-- ==== Sys2Proof/Word.lean ====
section
/-! DEFINITION. The plainest types of the model: a byte, and 32-bit and 64-bit register words. -/

namespace Sys2Proof

/-- One byte of a message, a register access or a memory. -/
abbrev Byte := BitVec 8

/-- One direct register of BAR0 (R4: 32 bits wide). -/
abbrev Word := BitVec 32

end Sys2Proof
end

