-- ==== Sys2Proof/Machine/Bytes.lean ====
section
/-! DEFINITION. Byte order, bit fields, checks and the canonical byte memory that the whole model shares. -/

namespace Sys2Proof.Machine

/-! ### Bit fields and saturation -/

/-- Bits [lo + w - 1 : lo] of a number. -/
def bits (v lo w : Nat) : Nat := (v / 2 ^ lo) % 2 ^ w

/-- Bit `i` of a number. -/
def bit (v i : Nat) : Bool := v.testBit i

/-- A Bool as the register bit it stands for, at position `i`. -/
def flag (b : Bool) (i : Nat) : Nat := if b then 2 ^ i else 0

/-- A field of width `w` placed at bit `lo`. -/
def field (v lo w : Nat) : Nat := (v % 2 ^ w) * 2 ^ lo

/-- `v` with bit `i` cleared. -/
def clearBit (v i : Nat) : Nat := if v.testBit i then v - 2 ^ i else v

/-- `v` with bit `i` set. -/
def setBit (v i : Nat) : Nat := if v.testBit i then v else v + 2 ^ i

/-- `v` without the bits set in `m` (a W1C write of `m`, R7), over 32 bits. -/
def w1c (v m : Nat) : Nat := v &&& (m ^^^ 0xFFFFFFFF)

/-- A count that stops at `max`. -/
def satAdd (max v k : Nat) : Nat := Nat.min max (v + k)

/-- A signed number as `w` bits of two's complement. -/
def twos (w : Nat) (i : Int) : Nat := (i % (2 ^ w : Int)).toNat

/-- `w` bits of two's complement as a signed number. -/
def ofTwos (w v : Nat) : Int := if v % 2 ^ w < 2 ^ (w - 1) then (v % 2 ^ w : Nat) else (v % 2 ^ w : Nat) - (2 ^ w : Int)

/-- A signed number held within plus or minus `m`. -/
def clampInt (m : Int) (i : Int) : Int := max (-m) (min m i)

/-- Division rounding up. -/
def ceilDiv (a b : Nat) : Nat := (a + b - 1) / b

/-! ### Little-endian byte strings (R3) -/

/-- The number that a byte string spells, least significant byte first. -/
def leNat : List Byte → Nat
  | [] => 0
  | b :: bs => b.toNat + 256 * leNat bs

/-- `n` bytes of a number, least significant first. -/
def leBytes : Nat → Nat → List Byte
  | 0, _ => []
  | n + 1, v => BitVec.ofNat 8 v :: leBytes n (v / 256)

/-- `n` bytes of a number, most significant first (published formats, R3). -/
def beBytes (n v : Nat) : List Byte := (leBytes n v).reverse

/-- The number that a byte string spells, most significant byte first. -/
def beNat (bs : List Byte) : Nat := leNat bs.reverse

/-- Bytes `off` to `off + n - 1` of a byte string. Bytes past its end are left out. -/
def slice (bs : List Byte) (off n : Nat) : List Byte := (bs.drop off).take n

/-- The little-endian number at bytes `off` to `off + n - 1`. -/
def leAt (bs : List Byte) (off n : Nat) : Nat := leNat (slice bs off n)

/-- A byte string padded with zeros (or cut) to `n` bytes. -/
def padTo (n : Nat) (bs : List Byte) : List Byte := bs.take n ++ List.replicate (n - bs.length) 0

/-- True when every byte is zero. -/
def allZero (bs : List Byte) : Bool := bs.all (· == 0)

/-- The bytes of an ASCII string. -/
def asciiBytes (s : String) : List Byte := s.toList.map fun c => BitVec.ofNat 8 c.toNat

/-! ### Lists keyed by an index -/

/-- Entry `i` of a list, or the default entry past its end. -/
def nth {α : Type} [Inhabited α] (l : List α) (i : Nat) : α := l.getD i default

/-- A list with entry `i` changed; nothing happens past its end. -/
def upd {α : Type} (l : List α) (i : Nat) (f : α → α) : List α := l.modify i f

/-- A list with every entry that meets `p` changed. -/
def updWhere {α : Type} (p : α → Bool) (f : α → α) (l : List α) : List α := l.map fun a => if p a then f a else a

/-- The lowest number below `n` that meets `p`. -/
def lowest (p : Nat → Bool) (n : Nat) : Option Nat := (List.range n).find? p

/-- A number below `n` that meets `p`: the first one at or after `start`, going round. Where the spec leaves the choice
open, `start` is a free value, so every number that meets `p` can be the answer. -/
def anyFrom (p : Nat → Bool) (start n : Nat) : Option Nat :=
  ((List.range n).map fun i => (start + i) % n).find? p

/-! ### Byte memory in canonical form -/

/-- A memory: the bytes that are not zero, at strictly rising addresses. An address not listed reads as zero. -/
abbrev Memory := List Host.Cell

/-- Strictly rising addresses, and no listed byte equal to zero, what an unlisted address reads as. -/
def Memory.wf : Memory → Bool
  | [] => true
  | [(_, b)] => b != 0
  | (a, b) :: (a', b') :: rest => b != 0 && decide (a < a') && Memory.wf ((a', b') :: rest)

/-- The byte at an address. -/
def Memory.read (m : Memory) (a : Nat) : Byte :=
  match m with
  | [] => 0
  | (k, b) :: rest => if k = a then b else Memory.read rest a

/-- The memory with one byte written. Writing zero removes the entry. -/
def Memory.write (m : Memory) (a : Nat) (v : Byte) : Memory :=
  match m with
  | [] => if v = 0 then [] else [(a, v)]
  | (k, b) :: rest =>
    if a < k then (if v = 0 then (k, b) :: rest else (a, v) :: (k, b) :: rest)
    else if a = k then (if v = 0 then rest else (a, v) :: rest)
    else (k, b) :: Memory.write rest a v

/-- `n` bytes from an address upward. -/
def Memory.readN (m : Memory) (a n : Nat) : List Byte := (List.range n).map fun i => Memory.read m (a + i)

/-- A byte string written from an address upward. -/
def Memory.writeN (m : Memory) (a : Nat) : List Byte → Memory
  | [] => m
  | b :: bs => Memory.writeN (Memory.write m a b) (a + 1) bs

end Sys2Proof.Machine
end

