-- ==== Sys2Proof/Machine/GroupParts.lean ====
section
/-! DEFINITION. State of stripe groups: layout, bands, journal, members, rebuild, losses and Skim (05, 06, 08). Every
field's default is its value at reset, and its docstring names the rule that gives it. -/

namespace Sys2Proof.Machine

/-- A 16 KiB unit as flash holds it: 16,384 stored bytes, least significant first, and its integrity tag (R236). -/
structure Unit16 where
  data : Nat := 0
  /-- WSEQ, 64 bits. -/
  wseq : Nat := 0
  /-- CHECK, 64 bits. -/
  check : Nat := 0
  deriving DecidableEq, Repr, Inhabited

/-- A controller's role for a group, in the order of the codes of R325. -/
inductive Role where
  | none | owner | partner | takingOver | handingOver | leaseLost | fenced
  deriving DecidableEq, Repr, Inhabited

/-- Health of a group, in the order of the codes of R257. -/
inductive Health where
  | forming | mounting | optimal | degraded | rebuilding | multiFault | failed
  deriving DecidableEq, Repr, Inhabited

/-- Space state of a group (R176). -/
inductive Space where
  | normal | low | spent
  deriving DecidableEq, Repr, Inhabited

/-- Band state, in the order of the codes of R153. -/
inductive BandSt where
  | free | opened | closing | closed | victim | erasePending | erasing | retired
  deriving DecidableEq, Repr, Inhabited

/-- A substitution entry (R152). -/
structure Subst where
  member : Nat := 0
  die : Nat := 0
  /-- FROM, 10 bits. -/
  start : Nat := 0
  /-- KIND is PARITY. -/
  parity : Bool := false
  block : Nat := 0
  /-- The erase count that the substitute carried when it entered the band (R173). -/
  erases : Nat := 0
  deriving DecidableEq, Repr, Inhabited

/-- A band record (R151). A band that no record names is FREE with ERASES 0. -/
structure Band where
  num : Nat := 0
  st : BandSt := .free
  stream : Nat := 15
  spareFormed : Bool := false
  repaired : Bool := false
  erases : Nat := 0
  /-- The chain of substitution entries. -/
  subst : List Subst := []
  valid : Nat := 0
  wp : Nat := 0
  closedAt : Nat := 0
  seq : Nat := 0
  /-- Turn number at which the band was opened, kept with the record in the delta log (R157). -/
  openTurn : Nat := 0
  /-- (member, die, block) of blocks to be retired at the band's next erase (R162). -/
  retire : List (Nat × Nat × Nat) := []
  /-- (member, die) positions whose block has been erased by this group (R534). -/
  clean : List (Nat × Nat) := []
  /-- (member, die) positions whose erase is still due in the erase pass (R167). -/
  eraseLeft : List (Nat × Nat) := []
  /-- (stripe, member) chunks that the close sweep has still to verify (R161). -/
  sweepLeft : List (Nat × Nat) := []
  /-- The close sweep has begun, and then the erase of the parity-area blocks that ends it (R161). -/
  sweepOn : Bool := false
  areasOn : Bool := false
  /-- (member, row) die-parity chunks that are programmed in the parity-area blocks (R160). -/
  parityRows : List (Nat × Nat) := []
  /-- (member, die, rows) found programmed by the scan at a mount, for a band that was OPEN at the cut (R171 step 6). -/
  tops : List (Nat × Nat × Nat) := []
  /-- The DU below which every owner record stands in the band summary (R159). -/
  summed : Nat := 0
  /-- The band was closed early or was OPEN at a cut (R162, R172), and its unverified stripes are being placed again (R162). -/
  cut : Bool := false
  moving : Bool := false
  /-- Die indices at which the band places no data (R235). -/
  skip : List Nat := []
  /-- (stripe, member) data chunks that were not placed for a missing member, taken as filler, and parity chunks not
  written (R234). -/
  holes : List (Nat × Nat) := []
  deriving DecidableEq, Repr, Inhabited

/-- Owner record of a placed unit, from the band summary (R159). -/
structure Owner where
  gua : Nat := 0
  nsx : Nat := 0
  unit : Nat := 0
  deriving DecidableEq, Repr, Inhabited

/-- Where a chunk stands on its way to flash (R161). -/
inductive ChunkSt where
  | placed | queued | verifying | verified | skipped
  deriving DecidableEq, Repr, Inhabited

/-- A stripe that is not yet STRIPE_DONE. -/
structure Stripe where
  band : Nat := 0
  q : Nat := 0
  stream : Nat := 0
  /-- Units placed: (unit index within the stripe, source index): a write-staging slot, or 131,072 + a staging block
  (R217). -/
  units : List (Nat × Nat) := []
  /-- Unit indices whose copies are still being read (R114). -/
  waiting : List Nat := []
  /-- The parity accumulator, one unit per unit position (R160, R233). -/
  parity : List Unit16 := List.replicate 4 {}
  /-- The stripe is formed and its programs are queued. -/
  formed : Bool := false
  /-- State of each member's chunk, once formed. -/
  chunks : List ChunkSt := []
  deriving DecidableEq, Repr, Inhabited

/-- A die-parity accumulator (R160). -/
structure DieAcc where
  band : Nat := 0
  member : Nat := 0
  row : Nat := 0
  folded : Nat := 0
  /-- The die indices folded so far. -/
  dies : List Nat := []
  units : List Unit16 := List.replicate 4 {}
  deriving DecidableEq, Repr, Inhabited

/-- A journal record (R241): TYPE, EPOCH, JSEQ and the 44-byte body; beside them the turn in which it was written, which the delta log keeps
with it (R157). -/
structure JRec where
  ty : Nat := 0
  epoch : Nat := 0
  jseq : Nat := 0
  body : List Byte := []
  turn : Nat := 0
  deriving DecidableEq, Repr, Inhabited

/-- A delta-log page placed in stream 9: the GUA it lies at and the JSEQ after its last record (R169). -/
structure LogPage where
  gua : Nat := 0
  below : Nat := 0
  verified : Bool := false
  deriving DecidableEq, Repr, Inhabited

/-- What a page of stream 9 that is still needed holds (R154, R159, R169, R170). -/
inductive MetaFor where
  | log (below : Nat) | checkpoint (num : Nat) | map (nsx page seq : Nat) | summary (band : Nat)
  deriving DecidableEq, Repr, Inhabited

/-- A page of stream 9 that is still needed: where it lies and what it holds (R169, R170). -/
structure MetaPage where
  gua : Nat := 0
  use : MetaFor := .log 0
  deriving DecidableEq, Repr, Inhabited

/-- Membership state, in the order of the MEMBER record's codes (R242). -/
inductive MemberSt where
  | current | missing | target | returning
  deriving DecidableEq, Repr, Inhabited

/-- A member of a group (R234, R235, R263). -/
structure Member where
  bay : Nat := 0
  st : MemberSt := .current
  moduleId : Nat := 0
  /-- The departure mark: the group's next SEQ at the departure (R263). -/
  mark : Nat := 0
  /-- Clock cycle of the departure. -/
  since : Nat := 0
  /-- The spare delay has run out (R260), and the return window is open (R263). -/
  spareDue : Bool := false
  window : Bool := false
  /-- Bands erased since the departure (R263). -/
  erasedSince : List Nat := []
  /-- Bands that a target or returning member has still to rebuild (R261, R263). -/
  todo : List Nat := []
  /-- The bands among them that are being rebuilt (R261). -/
  active : List Nat := []
  /-- Rows rebuilt per die index of the bands being rebuilt: (band, die, rows) (R261). -/
  rows : List (Nat × Nat × Nat) := []
  /-- In a band still to rebuild: the first stripe formed with the target in place, which has been current on it at once
  (R234). -/
  newFrom : List (Nat × Nat) := []
  /-- Dead die indices (R235). -/
  dead : List Nat := []
  /-- Blocks retired (die, block) (R163). -/
  retired : List (Nat × Nat) := []
  /-- Spares in use: (die, block) (R152). -/
  used : List (Nat × Nat) := []
  /-- Good blocks of RETIRED bands that have joined the spares of their dies: (die, block) (R153, R163). -/
  joined : List (Nat × Nat) := []
  /-- Erase counts of spares that are not 0: (die, block, count) (R173). -/
  spareErases : List (Nat × Nat × Nat) := []
  /-- SET0 and SET1 are erased (R250). -/
  set0 : Bool := false
  set1 : Bool := false
  /-- The epoch that the member has accepted from this controller (R226). -/
  accepted : Nat := 0
  deriving DecidableEq, Repr, Inhabited

/-- A lost-extent entry (R266). -/
structure LostEntry where
  striped : Bool := false
  cause : Nat := 0
  member : Nat := 0
  stride : Nat := 0
  start : Nat := 0
  count : Nat := 0
  deriving DecidableEq, Repr, Inhabited

/-- Mirror of a group (R244 to R248). -/
inductive Mirror where
  | service | solo | resync
  deriving DecidableEq, Repr, Inhabited

/-- A copy of the journal gathered at a mount (R254): its place in the fixed order and its counted records. -/
structure JCopy where
  order : Nat := 0
  recs : List JRec := []
  /-- Every record below it has been retired, where the copy says so. -/
  base : Option Nat := none
  /-- Die-parity accumulators that an image lists (R253). -/
  accs : List DieAcc := []
  /-- Its final message has come. -/
  last : Bool := false
  deriving DecidableEq, Repr, Inhabited

/-- A relocation batch unit: old GUA, new GUA, whether the copy has been programmed and verified (R167). -/
structure RelocUnit where
  old : Nat := 0
  new : Nat := 0
  done : Bool := false
  deriving DecidableEq, Repr, Inhabited

/-- Why units are being relocated (R166, R149, R174, R161, R205, R264). -/
structure Collect where
  victim : Nat := 0
  /-- The victim's next DU to look at; none when a batch is the whole work. -/
  next : Option Nat := none
  batch : List RelocUnit := []
  /-- Units whose copies have not started, for want of records, of a band or of program slots (R243, R492), and those among
  them that are known to be bad where they lie (R205). -/
  todo : List Nat := []
  bad : List Nat := []
  /-- It moves units off a dead die, with the priority of owed rebuild work (R235). -/
  owed : Bool := false
  /-- JSEQ of VICTIM_COMMIT (R167). -/
  commit : Option Nat := none
  deriving DecidableEq, Repr, Inhabited

/-- The Skim patrol of a group's share of a pass (R201 to R205). -/
structure SkimWork where
  band : Nat := 0
  q : Nat := 0
  /-- Buffers of the data comparison and of the parity unit, per unit position; outcomes as they come: 0 waiting,
  1 read, 2 failed. -/
  data : List (Option Unit16) := []
  parity : List (Option Unit16) := []
  /-- Units that failed outright: (member, u). -/
  failed : List (Nat × Nat) := []
  /-- The stripe is compared, else only its units' tags are checked. -/
  compare : Bool := true
  /-- Units to be read one by one, after a mismatch or without comparison: (member, u), and what came of each: 0 its tag
  passes, 1 it passes rebuilt, 2 it is lost. -/
  want : List (Nat × Nat) := []
  tags : List (Nat × Nat × Nat) := []
  deriving DecidableEq, Repr, Inhabited

/-- A per-block read-exposure counter (R204). -/
structure Exposure where
  member : Nat := 0
  die : Nat := 0
  block : Nat := 0
  count : Nat := 0
  deriving DecidableEq, Repr, Inhabited

/-- 64-bit counters of a group (R173, R207). -/
structure GroupCtrs where
  hostUnits : Nat := 0
  programmed : Nat := 0
  relocated : Nat := 0
  blocksRetired : Nat := 0
  readaround : Nat := 0
  raFallback : Nat := 0
  suspProg : Nat := 0
  suspErase : Nat := 0
  skimStripes : Nat := 0
  skimMismatch : Nat := 0
  skimRepaired : Nat := 0
  skimParityBad : Nat := 0
  skimLost : Nat := 0
  skimReadFail : Nat := 0
  skimTagFail : Nat := 0
  skimRefresh : Nat := 0
  deriving DecidableEq, Repr, Inhabited

/-- A witness of a group (R323, R326, R337): device ID, MP address, the frame boundary at which the renewal it granted
last was sent, the boundary of its last answer, and renewals sent and not yet answered (TAG, boundary). -/
structure Witness where
  dev : Nat := 0
  mp : List Byte := []
  granted : Option Nat := none
  answered : Option Nat := none
  sent : List (Nat × Nat) := []
  deriving DecidableEq, Repr, Inhabited

/-- A takeover attempt (R334). -/
structure Attempt where
  epoch : Nat := 0
  planned : Bool := false
  /-- TAG of its requests, the frame boundary of sending, the witnesses that have said YES, and all that have answered (R330). -/
  tag : Nat := 0
  sentAt : Nat := 0
  yes : List Nat := []
  answered : List Nat := []
  /-- The takeover is forced (R336). -/
  forced : Bool := false
  /-- Bays whose EPOCH_SET has not completed yet (R335). -/
  bays : List Nat := []
  deriving DecidableEq, Repr, Inhabited

/-- Why a handover is under way: failback, swap, the HANDOVER command, leaving service, or CONTAINED (R338 to R341). -/
inductive HandFor where
  | failback | swap | command | leave | contained
  deriving DecidableEq, Repr, Inhabited

/-- A planned handover at the owner (R341). -/
structure Handover where
  why : HandFor := .failback
  /-- The checkpoint is on flash and the OFFER has gone; the boundary turn T that it names. -/
  offered : Bool := false
  turn : Nat := 0
  /-- The partner's ACK has come; the final JMIRROR has gone at T. -/
  acked : Bool := false
  final : Bool := false
  /-- Turn boundaries delivered when it went (R37). -/
  finalAt : Nat := 0
  deriving DecidableEq, Repr, Inhabited

/-- A stripe group as this controller holds it. -/
structure Group where
  /-- A formation has named it: its shape is known (R232; reset false). -/
  formed : Bool := false
  /-- Role (R325; reset NONE). -/
  role : Role := .none
  /-- In TAKING_OVER: the votes are won (R335; reset false). -/
  won : Bool := false
  /-- Group UID, 64 bits (reset 0). -/
  uid : Nat := 0
  /-- The ownership epoch in use, 32 bits (R226; reset 0), and the highest epoch known for the group (R245; reset 0). -/
  epoch : Nat := 0
  known : Nat := 0
  /-- Preferred owner: true for slot B (R394; reset false). -/
  preferB : Bool := false
  /-- The pair configuration: device IDs of the slot A and slot B controllers, and the witness set (R323; reset 0). -/
  devA : Nat := 0
  devB : Nat := 0
  wits : List Witness := List.replicate 3 {}
  /-- The frame boundary at which the owner was last heard (R328; reset 0), and the highest PROMISED returned (R334;
  reset 0). -/
  heard : Nat := 0
  promised : Nat := 0
  /-- The attempt under way (R334; reset none), the boundary at which the last one failed (reset none), and
  EV_SCRIM_TAKEOVER_DENIED has been raised in this series (reset false). -/
  attempt : Option Attempt := none
  failedAt : Option Nat := none
  deniedTold : Bool := false
  /-- Scheduled instant (fabric time in ns) of the last swap that fell due, and the instant from which one that could not run is tried again
  (R339; reset none). -/
  swapAt : Option Nat := none
  swapRetry : Option Nat := none
  /-- The count last told of by EV_SCRIM_WITNESS_UNREACHABLE (R337; reset none). -/
  reachTold : Option Nat := none
  /-- A handover under way at the owner (R341; reset none), and what the partner has acknowledged: T, or is being handed
  (reset none). -/
  hand : Option Handover := none
  handedBy : Option Nat := none
  /-- This controller, the preferred owner, has sent REQUEST (R338; reset false), and sends it again at the next turn
  boundary (reset false). -/
  requested : Bool := false
  requestAgain : Bool := false
  /-- Health state (R257; reset FORMING) and cause (R258; 1 JOURNAL_LOST, 2 no anchor or metadata, 3 list full, log 7). -/
  health : Health := .forming
  cause : Nat := 0
  /-- Space state (R176; reset NORMAL). -/
  space : Space := .normal
  /-- D, P, N and S of the group (R144, R179, R232; reset 0). -/
  dies : Nat := 0
  positions : Nat := 0
  blocks : Nat := 0
  spares : Nat := 0
  /-- Members 0 to W - 1 (R232; reset none). -/
  members : List Member := []
  /-- Designated spare bays taken by GRP_ASSIGN (R259; reset none). -/
  spareBays : List Nat := []
  /-- WSEQ, 64 bits (R238; reset 1). -/
  wseq : Nat := 1
  /-- Next JSEQ, 64 bits (R240; reset 1, log 7). -/
  jseq : Nat := 1
  /-- Next band SEQ, 32 bits (R151; reset 1, log 7). -/
  seq : Nat := 1
  /-- Band records that differ from a fresh one (R151; reset none). -/
  bands : List Band := []
  /-- The OPEN band of each of the ten streams (R154; reset none). -/
  openBand : List (Option Nat) := List.replicate 10 none
  /-- Band summaries (R159; reset none). -/
  owners : List Owner := []
  /-- Stripes not yet done (reset none) and die-parity accumulators (R160; reset none). -/
  stripes : List Stripe := []
  dieAccs : List DieAcc := []
  /-- Unretired journal records, as owner or as partner's copy (R240; reset none). -/
  journal : List JRec := []
  /-- Every record below this JSEQ is acknowledged by the partner, and retired (R244; reset 1). -/
  acked : Nat := 1
  retired : Nat := 1
  /-- Records below this JSEQ stand in a delta-log page, and are durable there (R169; reset 1). -/
  logged : Nat := 1
  durable : Nat := 1
  logPages : List LogPage := []
  /-- Pages of stream 9 that are still needed (R154, R170; reset none). -/
  pages : List MetaPage := []
  /-- One above the highest JSEQ that a JMIRROR has named (R341; reset 1), and the JSEQ below which every record's effect is
  in the map and the band table (R245; reset 1). -/
  topSeen : Nat := 1
  applied : Nat := 1
  /-- Mirror state (R246; reset in service). -/
  mirror : Mirror := .service
  /-- Retransmissions since ACKED last advanced (R317, R246; reset 0). -/
  mirrorTry : Nat := 0
  /-- The last resynchronisation page has been sent (owner) or is being received (partner) (R248; reset false). -/
  resyncSent : Bool := false
  /-- Checkpoints whose anchor records have been queued (R170; reset 0), and the pages of one still in the making (reset none). -/
  checkpoint : Nat := 0
  ckptPages : List Nat := []
  /-- Its root page (R170; reset none) and its JSEQ: every record below it is in the checkpoint (reset 1). -/
  ckptRoot : Option Nat := none
  ckptSeq : Nat := 1
  /-- Where the rolling sweep of the map pages stands (R170; reset 0). -/
  mapSweep : Nat := 0
  /-- Copies gathered for a mount (R254; reset none) and whether the mount waits for copy 4 (reset false). -/
  copies : List JCopy := []
  mountWait : Bool := false
  /-- The delta log that a mount replayed reaches the group's last record (R256; reset false). -/
  logReaches : Bool := false
  /-- At a mount: (namespace index, map page, JSEQ at which the page was taken) (R171 step 3; reset none), and the bands have
  been brought to rest (reset false). -/
  pageSeq : List (Nat × Nat × Nat) := []
  settled : Bool := false
  /-- The group was not mounted because a module does not fit the turn length (R187; reset false). -/
  unfit : Bool := false
  /-- Units that R249 reads at a mount: (GUA, WSEQ, nsx, unit, zoned) (reset none). -/
  replay : List (Nat × Nat × Nat × Nat × Bool) := []
  /-- Lost-extent list (R266; reset none) and the generation of log C0h (R98; reset 0). -/
  lost : List LostEntry := []
  lostGen : Nat := 0
  /-- Collections in progress (R165 to R168; reset none). -/
  collects : List Collect := []
  /-- Rebuild slots charged in this frame (R262; reset 0). -/
  rebuildCharged : Nat := 0
  /-- The stream with the next turn to collect (R166; reset 0). -/
  gcStream : Nat := 0
  /-- Skim stripes being compared (reset none) and read-exposure counters (R204; reset none). -/
  skim : List SkimWork := []
  exposure : List Exposure := []
  /-- Counters (R173, R207; reset 0). -/
  ctrs : GroupCtrs := {}
  /-- Wear thresholds already told: 80 %, 95 % (R175; reset false). -/
  wear80 : Bool := false
  wear95 : Bool := false
  /-- EV_GROUP_LIST_HIGH has been raised (R270; reset false). -/
  listHighTold : Bool := false
  /-- Clock cycles of events raised at most once per minute: parity repair, refresh, lost extents (R208, R273; reset
  none). -/
  repairTold : Option Nat := none
  refreshTold : Option Nat := none
  lostTold : Option Nat := none
  deriving DecidableEq, Repr, Inhabited

end Sys2Proof.Machine
end

