-- ==== Sys2Proof/Types.lean ====
section
/-! DEFINITION. The structured operands of commands: what a message, a completion or a sample carries. -/

namespace Sys2Proof.Payload

/-! ### Time (02) -/

/-- A PTP Sync (two-step Syncs with their Follow_Up joined to them), R42. -/
structure PtpSync where
  /-- It came from a host-port grandmaster, else from a Scrim peer. -/
  host : Bool := false
  /-- The host port or Scrim port. -/
  port : Nat := 0
  /-- The Scrim peer's device ID. -/
  devId : Nat := 0
  domain : Nat := 0
  /-- The origin timestamp, ns. -/
  originNs : Nat := 0
  /-- The measured path delay, ns. -/
  delayNs : Nat := 0
  /-- logMessageInterval. -/
  interval : Int := 0
  deriving DecidableEq, Repr, Inhabited

/-- Time information from a Scrim peer (R38, R39, R41). -/
structure PtpAnnounce where
  devId : Nat := 0
  /-- The peer is this shelf's other controller. -/
  partner : Bool := false
  cls : Nat := 4
  /-- The peer's grandmaster, its class, the peer's hops to it, and whether the chain is traceable. -/
  gmDev : Nat := 0
  gmCls : Nat := 4
  hops : Nat := 0
  traceable : Bool := false
  periodUs : Nat := 1000
  fpt : Nat := 2
  deriving DecidableEq, Repr, Inhabited

/-- Which PTP message an interval sends (R42). -/
inductive PtpTx where
  | sync (port : Nat)
  | announce (port : Nat)
  | pdelayReq (port : Nat)
  | delayReq (hostPort : Nat)
  deriving DecidableEq, Repr, Inhabited

/-! ### Endpoint (13) -/

/-- A configuration-space register. The spec gives no offsets for the capabilities, so they are named. -/
inductive CfgReg where
  /-- A dword of the standard header, by byte offset. -/
  | header (off : Nat)
  /-- Power Management: its capabilities and its PMCSR. -/
  | pmc
  | pmcsr
  /-- PCI Express: Capabilities, Device Capabilities 1 and 2, Device Control and Link Capabilities. -/
  | pcieCap
  | devCap
  | devCap2
  | devCtl
  | linkCap
  /-- Correctable Error Status of Advanced Error Reporting. -/
  | aerCorr
  /-- MSI-X: Table Offset, PBA Offset and Message Control; and the Device Serial Number. -/
  | msixTable
  | msixPba
  | msixControl
  | serialLo
  | serialHi
  /-- Any other register. -/
  | other (off : Nat)
  deriving DecidableEq, Repr, Inhabited

/-! ### Power die (14 to 17) -/

/-- One telemetry sample of a bay (R438, R447): shunt current in mA, voltages in mV, temperatures in 1/8 °C. `diode` is
the reading of a fitted diode, none when it reads open or short. -/
structure Telemetry where
  ma : Int := 0
  vSnsn : Nat := 0
  vch : Nat := 0
  vout : Nat := 0
  diode : Option Int := none
  powerDie : Int := 0
  /-- FEED_A, FEED_B and the bus in mV, where the ADC's sequence converted them too. -/
  feeds : Option (Nat × Nat × Nat) := none
  deriving DecidableEq, Repr, Inhabited

/-- A black-box record that firmware or Primer sends (R483). -/
structure BbxSubmit where
  primer : Bool := false
  code : Nat := 0
  kind : Nat := 0
  subject : Nat := 0
  detail : List Int := []
  deriving DecidableEq, Repr, Inhabited

/-- The strap pins at the rise of PWRON_RST_N (R515). -/
structure Straps where
  slotSel : Bool := false
  shelfId : Nat := 0
  provisionEn : Bool := false
  bootSel : Bool := false
  deriving DecidableEq, Repr, Inhabited

/-! ### Bay protocol (07) -/

/-- The fields of a completion entry or notice that the controller takes from a ring (R218). `epoch` is EPOCH of a notice or of an
EPOCH_SET completion. -/
structure Cpl where
  tag : Nat := 0
  gen : Nat := 0
  opc : Nat := 0
  phase : Bool := false
  status : Nat := 0
  retry : Bool := false
  cbits : Nat := 0
  dstate : Nat := 0
  duration : Nat := 0
  epoch : Nat := 0
  deriving DecidableEq, Repr, Inhabited

/-! ### Host commands (03) -/

/-- A capsule: the queue it arrives on (CNTLID, QID, 0 for the admin queue) and its submission entry. -/
structure Capsule where
  cntlid : Nat := 0
  qid : Nat := 0
  cid : Nat := 0
  opc : Nat := 0
  nsid : Nat := 0
  fuse : Nat := 0
  psdt : Nat := 1
  /-- CDW2 to CDW5. -/
  rsvd : List Nat := []
  cdw10 : Nat := 0
  cdw11 : Nat := 0
  cdw12 : Nat := 0
  cdw13 : Nat := 0
  cdw14 : Nat := 0
  cdw15 : Nat := 0
  /-- Length in the SGL, and length of the capsule with its in-capsule data. -/
  sglLen : Nat := 0
  capLen : Nat := 64
  /-- In-capsule data, or what a fetch from the host buffer will bring. -/
  data : List Byte := []
  /-- The host buffer cannot be reached (R100). -/
  badBuf : Bool := false
  deriving DecidableEq, Repr, Inhabited

/-- A Connect: the connection it comes on, and its fields. -/
structure Connect where
  cid : Nat := 0
  qid : Nat := 0
  /-- CNTLID, FFFFh for an admin queue. -/
  cntlid : Nat := 0xFFFF
  /-- SQSIZE, 0-based. -/
  sqsize : Nat := 31
  kato : Nat := 0
  hostNqn : List Byte := []
  subNqn : List Byte := []
  tcp : Bool := false
  /-- The TCP port, or the RDMA CM service ID, that the connection was made to, and the digests that the host asks for on TCP
  (R59). -/
  service : Nat := 4420
  hdgst : Bool := false
  ddgst : Bool := false
  /-- The connection carries TLS; its handshake has failed (R59, R106). -/
  tls : Bool := false
  tlsFailed : Bool := false
  /-- Host port and sub-port. -/
  port : Nat := 0
  sub : Nat := 0
  deriving DecidableEq, Repr, Inhabited

/-! ### Registers (00), Hawk (04) and Scrim frames (10) -/

/-- A read of `len` bytes at an offset of BAR0 (R4). -/
structure RegRead where
  off : Nat := 0
  len : Nat := 4
  deriving DecidableEq, Repr, Inhabited

/-- The end of a use of a Hawk entry: its block, and whether a peer's response pinned it, else a host read (R130, R137). -/
structure HawkUse where
  blk : Nat := 0
  peer : Bool := false
  deriving DecidableEq, Repr, Inhabited

/-- A frame as an SP port receives it, from its destination address to its ICV, and whether its FCS was right (R288). -/
structure WireFrame where
  bytes : List Byte := []
  fcsOk : Bool := true
  deriving DecidableEq, Repr, Inhabited

/-! ### Network (09) -/

/-- A frame that arrives on a host sub-port: its length from destination MAC to FCS, whether its FCS is right, its first
bytes, and the queue of the connection that it belongs to, when the transport knows one (QID 0 is the admin queue). -/
structure EthFrame where
  port : Nat := 0
  sub : Nat := 0
  len : Nat := 64
  fcsOk : Bool := true
  head : List Byte := []
  conn : Option (Nat × Nat) := none
  deriving DecidableEq, Repr, Inhabited

/-- A frame that an internal source offers to the switch (R281, R285): its switch port, the egress port and sub-port, the
session whose data it carries, else its class, its length, and its first bytes. -/
structure NetOut where
  src : Nat := 20
  port : Nat := 0
  sub : Nat := 0
  sess : Option (Nat × Nat) := none
  cls : Nat := 6
  len : Nat := 64
  ecn : Bool := false
  head : List Byte := []
  deriving DecidableEq, Repr, Inhabited

end Sys2Proof.Payload
end

