-- ==== Sys2Proof/Machine/HostParts.lean ====
section
/-! DEFINITION. State of the NVMe over Fabrics target: namespaces, zones, grants, associations, sessions and commands
(03, 05). Every field's default is its value at reset, and its docstring names the rule that gives it. -/

namespace Sys2Proof.Machine

/-- Zone state of the Zoned Namespace Command Set (R71). -/
inductive ZoneSt where
  | empty | implOpen | explOpen | closed | full
  deriving DecidableEq, Repr, Inhabited

/-- A zone that is not Empty (R71, R147): zone entry, extents (ZOFF, GUA) and write pointer in units. -/
structure Zone where
  num : Nat := 0
  st : ZoneSt := .empty
  /-- Write pointer, in 16 KiB units from the zone's start. -/
  wp : Nat := 0
  cls : Nat := 0
  compact : Bool := false
  /-- WRITTEN: units placed. -/
  written : Nat := 0
  extents : List (Nat × Nat) := []
  /-- It was moved to Full by Finish (R71). -/
  finished : Bool := false
  /-- Order of the last write, for implicit closing (R71). -/
  order : Nat := 0
  deriving DecidableEq, Repr, Inhabited

/-- What a map entry holds; an unmapped unit has no entry (R145). -/
inductive MapVal where
  | gua (g : Nat)
  | staged (slot : Nat)
  deriving DecidableEq, Repr, Inhabited

/-- A namespace (R65, R127, R132). -/
structure Ns where
  nsx : Nat := 0
  group : Nat := 0
  zoned : Bool := false
  /-- LBA format: true for 512 B, false for 4 KiB. -/
  lba512 : Bool := false
  /-- Zone size code, 256 MiB × 2^code. -/
  zoneCode : Nat := 0
  encrypted : Bool := false
  /-- Hawk mode: 0 OFF, 1 NORMAL, 2 EAGER. -/
  hawk : Nat := 1
  /-- Size in bytes. -/
  size : Nat := 0
  nguid : List Byte := []
  /-- Host-set Write Protect (R67). -/
  protect : Bool := false
  /-- The zoned default class (R156). -/
  cls : Nat := 0
  /-- Content epoch, PEER_SERVE and up to four sources (address, NSID) (R132). -/
  content : Nat := 0
  peerServe : Bool := false
  sources : List (Nat × Nat) := []
  /-- Maximum active and open zones (R70). -/
  maxActive : Nat := 0
  maxOpen : Nat := 0
  /-- The conventional map: units that are not unmapped (R145). -/
  map : List (Nat × MapVal) := []
  /-- Zones that are not Empty (R71). -/
  zones : List Zone := []
  /-- The most recent Dataset Management hints, newest first: first unit, units, class (R155). -/
  hints : List (Nat × Nat × Nat) := []
  /-- The key generation it names is retired until the new label is in force (R68). -/
  genRetired : Bool := false
  /-- A job is deleting it (R394). -/
  deleting : Bool := false
  /-- Clock cycle at which EV_HOST_LOST_READ was last raised (R106; reset none). -/
  lostTold : Option Nat := none
  deriving DecidableEq, Repr, Inhabited

/-- A grant (R394). -/
structure Grant where
  num : Nat := 0
  cls : Nat := 0
  weight : Nat := 0
  cir : Nat := 0
  pir : Nat := 0
  cbs : Nat := 0
  pbs : Nat := 0
  nqn : List Byte := []
  bitmap : Nat := 0
  deriving DecidableEq, Repr, Inhabited

/-- Read policy of a session (R93). -/
structure Policy where
  ra : Bool := true
  deadline : Nat := 0
  rate : Nat := 0
  burst : Nat := 1024
  deriving DecidableEq, Repr, Inhabited

/-- An association (R57, R60, R64, R102). -/
structure Assoc where
  num : Nat := 0
  cntlid : Nat := 0
  nqn : List Byte := []
  discovery : Bool := false
  port : Nat := 0
  sub : Nat := 0
  tcp : Bool := false
  /-- Header and data digests as negotiated for the admin connection (R59). -/
  hdgst : Bool := false
  ddgst : Bool := false
  /-- Keep alive time in ms. -/
  kato : Nat := 120000
  /-- Clock cycle of the last capsule (R64). -/
  heard : Nat := 0
  /-- Entries of the admin queue (R60). -/
  sqsize : Nat := 32
  /-- CC, 32 bits, and CSTS.RDY and CSTS.SHST (NVMe). -/
  cc : Nat := 0
  rdy : Bool := false
  shst : Nat := 0
  /-- Number of Queues as granted, 0-based (R80). -/
  queues : Nat := 0
  /-- Asynchronous Event Configuration (R102). -/
  aec : Nat := 0
  /-- Outstanding Asynchronous Event Requests, by CID (R60), and held notices (type, information, page) (R102). -/
  aers : List Nat := []
  notices : List (Nat × Nat × Nat) := []
  /-- Changed Namespace List and Changed Zone List (R78). -/
  changedNs : List Nat := []
  /-- Namespaces whose log C0h is still to be read to clear Lost Extents Added (R103). -/
  lostLeft : List Nat := []
  changedZones : List (Nat × Nat) := []
  /-- The policy that new sessions take, from a Set with SQID FFFFh (R93). -/
  policy : Option Policy := none
  /-- SQHD of the admin queue. -/
  sqhd : Nat := 0
  /-- Streams directive enabled, per NSX (NVMe). -/
  streams : List Nat := []
  deriving DecidableEq, Repr, Inhabited

/-- A session: one I/O queue pair (R60, R90, R297). -/
structure Session where
  num : Nat := 0
  assoc : Nat := 0
  qid : Nat := 0
  sqsize : Nat := 0
  port : Nat := 0
  sub : Nat := 0
  tcp : Bool := false
  tls : Bool := false
  /-- Header and data digests as negotiated for the connection (R59). -/
  hdgst : Bool := false
  ddgst : Bool := false
  policy : Policy := {}
  /-- Pacing bucket in bytes (R90) and the clock cycle it was taken at. -/
  bucket : Nat := 0
  bucketAt : Nat := 0
  sqhd : Nat := 0
  /-- The target engine that serves it (R281; which one the spec leaves open, log 3). -/
  engine : Nat := 0
  deriving DecidableEq, Repr, Inhabited

/-- What a command does. -/
inductive CmdKind where
  | read | verify | gathered | paced | write | zappend | zeroes | dealloc | flush | zone
  deriving DecidableEq, Repr, Inhabited

/-- Progress of one unit of a read. -/
inductive UnitSt where
  /-- Not yet looked up, waiting for its data, ready to leave (or checked), sent. -/
  | todo | waiting | ready | sent
  deriving DecidableEq, Repr, Inhabited

/-- One unit of a read or Verify. -/
structure ReadUnit where
  /-- Extent index, namespace, unit number, first byte within the unit, length, and offset in the transfer. -/
  ext : Nat := 0
  nsx : Nat := 0
  unitNo : Nat := 0
  off : Nat := 0
  len : Nat := 0
  dst : Nat := 0
  st : UnitSt := .todo
  /-- Plaintext of the whole unit once it is known. -/
  data : Nat := 0
  /-- Hawk ticket held (R128), served from Hawk, served by reconstruction. -/
  ticket : Bool := false
  fromHawk : Bool := false
  rebuilt : Bool := false
  deriving DecidableEq, Repr, Inhabited

/-- Progress of a write. -/
inductive WriteSt where
  /-- Held by an earlier overlapping write (R75); held for staging or records (R28, R243); held for a band (R176);
  waiting for the read halves of read-modify-writes; merged, and held for a band (R176); in staging; failed, and waiting for its turn in
  its zone's order (R72). -/
  | overlap | room | band | rmw | merged | staged | failed
  deriving DecidableEq, Repr, Inhabited

/-- A command in flight: a command context (R62). -/
structure Cmd where
  num : Nat := 0
  sess : Nat := 0
  cid : Nat := 0
  kind : CmdKind := .read
  nsx : Nat := 0
  /-- Arrival at the target engine (R73): the 1.6 GHz cycle, and the engine. -/
  stamp : Nat := 0
  engine : Nat := 0
  /-- First byte and length in the namespace. -/
  first : Nat := 0
  len : Nat := 0
  /-- Further ranges of a Dataset Management deallocate, as first byte and length. -/
  more : List (Nat × Nat) := []
  fua : Bool := false
  lr : Bool := false
  noHawk : Bool := false
  dsm : Nat := 0
  dspec : Nat := 0
  deadline : Nat := 0
  paced : Bool := false
  /-- Reads: the units. -/
  units : List ReadUnit := []
  /-- A byte has been sent, or a flash operation dispatched (R79). -/
  begun : Bool := false
  /-- Writes: data not yet fetched, state, units merged so far, JSEQ of the WRITE or DEALLOC records. -/
  data : List Byte := []
  wst : WriteSt := .staged
  rmwLeft : List Nat := []
  merged : List (Nat × Nat) := []
  recs : List Nat := []
  /-- Zoned writes: zone and its write pointer before. -/
  zone : Nat := 0
  zoneUnit : Nat := 0
  /-- Zoned writes: the GUAs given at arrival, one per unit (R148). -/
  run : List Nat := []
  /-- Zone Management Send: its action and Select All (R71). -/
  act : Nat := 0
  all : Bool := false
  /-- The host buffer cannot be reached (R100), and cells of the reserve kept for an extent list (R86). -/
  badBuf : Bool := false
  cells : Nat := 0
  /-- Flush: JSEQ per group that must be committed. -/
  waitFor : List (Nat × Nat) := []
  /-- Status, DNR and DW0 of a zoned write that has failed (R72). -/
  fail : Option (Nat × Bool × Nat) := none
  /-- Its queue has been torn down: it goes on to flash and posts nothing (R94). -/
  silent : Bool := false
  /-- The generations that its requests to the cipher engine carry, read when it was decoded: namespace index, GEN of its NS_XTS
  slot, GEN of its NS_GMAC slot (R361). -/
  gens : List (Nat × Nat × Nat) := []
  deriving DecidableEq, Repr, Inhabited

/-- An entry of the Error Information Log (R96). -/
structure ErrEntry where
  count : Nat := 0
  sqid : Nat := 0
  cid : Nat := 0
  status : Nat := 0
  lba : Nat := 0
  nsid : Nat := 0
  info : Nat := 0
  deriving DecidableEq, Repr, Inhabited

/-- A capsule held for want of a command context (R63). -/
structure HeldCapsule where
  /-- 64 B cells it takes. -/
  cells : Nat := 1
  cap : Payload.Capsule := {}
  deriving DecidableEq, Repr, Inhabited

/-- The host service (03). -/
structure HostState where
  /-- The subsystem NQN, NUL-padded, when set through NS_SUBSYS (R57; reset none: the default). -/
  nqn : Option (List Byte) := none
  /-- Namespaces (R65; reset none) and grants (R394; reset none). -/
  nss : List Ns := []
  grants : List Grant := []
  /-- Associations, sessions, commands in flight (R60; reset none). -/
  assocs : List Assoc := []
  sessions : List Session := []
  cmds : List Cmd := []
  /-- Next number given to an association, session or command, and the arrival order (the model's own; reset 1). -/
  nextId : Nat := 1
  /-- Capsules held in the reserve, oldest first (R63; reset none). -/
  held : List HeldCapsule := []
  /-- Error Information Log, newest first, at most 256 (R60; reset none), and its 64-bit count (reset 0). -/
  errors : List ErrEntry := []
  errCount : Nat := 0
  /-- Host NQN and clock cycle of EV_HOST_ADMIT_REFUSED (R106; reset none). -/
  refusedTold : List (List Byte × Nat) := []
  /-- SMART Critical Warning bit 3 (R99; reset 0). -/
  warnSpent : Bool := false
  /-- Bytes read and written by hosts, and host read and write commands (NVMe SMART; reset 0). -/
  readBytes : Nat := 0
  writeBytes : Nat := 0
  readCmds : Nat := 0
  writeCmds : Nat := 0
  /-- Last ANA state reported per group, as its NVMe code (R66; reset 3, Inaccessible). -/
  ana : List Nat := List.replicate 6 3
  /-- EV_FTL_EXTENT_POOL has been raised and use has not fallen below 90 % since (R149; reset false). -/
  poolTold : Bool := false
  /-- ANA change count and generation of the Discovery Log Page (NVMe; reset 0). -/
  anaCount : Nat := 0
  discGen : Nat := 0
  /-- The free values that stand for the other controller's entries of the Discovery Log Page, once it has been found (R58; reset
  none; the model's own, log 29). -/
  partnerDisc : Option Nat := none
  deriving DecidableEq, Repr, Inhabited

end Sys2Proof.Machine
end

