-- ==== Sys2Proof/Machine/ScrimParts.lean ====
section
/-! DEFINITION. State of the Scrim fabric, of the witness table in the AON controller, and of Keying and the cipher engine
(10, 11). Every field's default is its value at reset, and its docstring names the rule that gives it. -/

namespace Sys2Proof.Machine

/-! ### Scrim (10) -/

/-- State of an adjacency, in the order of the codes of SCRIM_ADJ (R310). -/
inductive AdjSt where
  | down | init | twoWay | full
  deriving DecidableEq, Repr, Inhabited

/-- The adjacency on one SP port (R310, R311, R360). -/
structure Adj where
  /-- SCRIM_ADJ.STATE (reset DOWN). -/
  st : AdjSt := .down
  /-- Device ID last heard on the port, 0 when none, its address, and whether that is CLAIMED (R311; reset 0). -/
  nbr : Nat := 0
  nbrAddr : Nat := 0
  nbrClaimed : Bool := false
  /-- The neighbour's SP port, as its HELLO gives it (R311; reset 0), and its MAC address, as the last frame heard gives it (R312; reset
  0). -/
  nbrPort : Nat := 0
  nbrMac : Nat := 0
  /-- Protection is active in the transmit and the receive direction (R311, R360; reset 0). -/
  protTx : Bool := false
  protRx : Bool := false
  /-- AN, last PN sent and last PN accepted under the key in use, per direction (R311; reset 0). -/
  txAn : Nat := 0
  rxAn : Nat := 0
  txPn : Nat := 0
  rxPn : Nat := 0
  /-- The key before and the key in use in each direction: 32 bytes and the salt (R350; reset none). -/
  txKey : List Byte := []
  rxKey : List Byte := []
  /-- The keys of a rekey: the transmit key waits for the neighbour's CONFIRM, the receive key takes effect when its first
  frame verifies (R311, R360; reset none). -/
  txNext : List Byte := []
  rxNext : List Byte := []
  /-- Own nonce, the neighbour's nonce once it has come, AN of the exchange, and whether an exchange is under way (R360;
  reset 0). -/
  ownNonce : Nat := 0
  peerNonce : Option Nat := none
  an : Nat := 0
  keyx : Bool := false
  /-- Clock cycles of failed ICVs within the last second (R310; reset none), and of EV_CIPH_KEYX_FAILED (R360; reset
  none). -/
  icvAt : List Nat := []
  keyxTold : Option Nat := none
  deriving DecidableEq, Repr, Inhabited

/-- One link of an LSA: neighbour's device ID, address, and the originator's SP port (R315). -/
structure LsaLink where
  dev : Nat := 0
  addr : Nat := 0
  claimed : Bool := false
  port : Nat := 0
  deriving DecidableEq, Repr, Inhabited

/-- A link-state advertisement (R315). -/
structure Lsa where
  dev : Nat := 0
  addr : Nat := 0
  claimed : Bool := false
  lseq : Nat := 0
  age : Nat := 0
  links : List LsaLink := []
  deriving DecidableEq, Repr, Inhabited

/-- A route: the SP ports of its equal-cost next hops (R317). -/
structure Route where
  addr : Nat := 0
  hops : Nat := 0
  ports : List Nat := []
  deriving DecidableEq, Repr, Inhabited

/-- A fault-table entry (R319). -/
structure Fault_ where
  subject : Nat := 0
  cls : Nat := 0
  /-- Clock cycle of the window start. -/
  start : Nat := 0
  count : Nat := 0
  firstOrigin : Nat := 0
  firstSeen : Nat := 0
  here : Bool := false
  deriving DecidableEq, Repr, Inhabited

/-- The Scrim fabric. -/
structure ScrimState where
  /-- SCRIM_STATUS.ADDR and CLAIMED (reset 0), and whether an address has been chosen since the data die started (R307;
  reset false). -/
  addr : Nat := 0
  claimed : Bool := false
  chosen : Bool := false
  /-- SP0 to SP3. -/
  adjs : List Adj := List.replicate 4 {}
  /-- The LSA database, this controller's own first (R316; reset none), and its own LSEQ (R315; reset 0). -/
  lsdb : List Lsa := []
  lseq : Nat := 0
  /-- LSAs that a link has not acknowledged: port, originator, LSEQ (R316; reset none). -/
  unacked : List (Nat × Nat × Nat) := []
  /-- The routing table (R317; reset none), and a computation is due (reset false). -/
  routes : List Route := []
  spfDue : Bool := false
  /-- The fault table (R319; reset none), and the conditions that stand reported: subject and class (R318; reset none). -/
  faults : List Fault_ := []
  standing : List (Nat × Nat) := []
  /-- Device ID of the shelf's other controller, as a HELLO or a pair configuration has told it (R311, R323; reset none). -/
  partnerDev : Option Nat := none
  /-- The last TAG given to a request (R332; the model's own choice, log 7; reset 0). -/
  tag : Nat := 0
  /-- SCRIM_EVT, 7 bits (reset 0). -/
  evt : Nat := 0
  /-- Counters: addr_changes, loops, icv_fail, no_route, bad_type, fault_evicted, takeovers, handovers (R343; reset 0). -/
  ctrs : List Nat := List.replicate 8 0
  /-- The controller has been in CONTAINED since its last reset (R338; reset false). -/
  contained : Bool := false
  deriving DecidableEq, Repr, Inhabited

/-- An entry of the vote table (R331). -/
structure WitEntry where
  uid : Nat := 0
  /-- The pair device IDs. -/
  devA : Nat := 0
  devB : Nat := 0
  owner : Nat := 0
  epoch : Nat := 0
  promised : Nat := 0
  /-- Island counter (clock cycle) of the last grant, if any. -/
  grant : Option Nat := none
  /-- The device a held release names, and the clock cycle it was taken at. -/
  release : Option (Nat × Nat) := none
  provisional : Bool := false
  /-- Clock cycle of the creation. -/
  created : Nat := 0
  /-- L in frames and the frame period in µs. -/
  lease : Nat := 32
  period : Nat := 1000
  deriving DecidableEq, Repr, Inhabited

/-- What the AON controller holds as a witness, in its volatile memory (R329 to R333, R355). -/
structure WitState where
  /-- The vote table, at most 1,024 entries (reset none). -/
  entries : List WitEntry := []
  /-- The highest SEQ accepted per sender device ID (R333; reset none), and the last SEQ sent (reset 0). -/
  seqs : List (Nat × Nat) := []
  lastSeq : Nat := 0
  /-- The copy of the WITNESS key, 32 bytes (R355; reset none). -/
  key : Option (List Byte) := none
  deriving DecidableEq, Repr, Inhabited

/-! ### Keying and the cipher engine (11) -/

/-- A context label of a key slot (R349). -/
structure Label where
  slot : Nat := 0
  bytes : List Byte := List.replicate 32 0
  deriving DecidableEq, Repr, Inhabited

/-- A record-table entry of a TLS session (R356). -/
structure TlsRec where
  sess : Nat := 0
  /-- Masked keys, IVs, sequence numbers. -/
  txKey : Nat := 0
  rxKey : Nat := 0
  txIv : Nat := 0
  rxIv : Nat := 0
  txSeq : Nat := 0
  rxSeq : Nat := 0
  deriving DecidableEq, Repr, Inhabited

/-- Counters of the cipher engine (R370). -/
structure CiphCtrs where
  hits : Nat := 0
  misses : Nat := 0
  derivations : Nat := 0
  retired : Nat := 0
  tagFail : Nat := 0
  keyxFail : Nat := 0
  entropyFail : Nat := 0
  /-- AES blocks, those with 0 to 3 dummy rounds, and those of Q0 to Q3 (R363, R365, R370). -/
  blocks : Nat := 0
  dummy : List Nat := List.replicate 4 0
  queued : List Nat := List.replicate 4 0
  deriving DecidableEq, Repr, Inhabited

/-- Keying and the cipher engine. -/
structure CiphState where
  /-- CIPH_STATUS.PIPES, ROOT_OK, ENTROPY_OK, KEYING (reset 0). -/
  pipes : Nat := 0
  rootOk : Bool := false
  entropyOk : Bool := false
  keying : Bool := false
  /-- CIPH_PIPE_DIS, 48 bits (R368; reset 0). -/
  pipeDis : Nat := 0
  /-- CIPH_EVT, 5 bits (reset 0). -/
  evt : Nat := 0
  /-- Key slots with VALID 1 or a GEN (R349; reset none: every byte 0). -/
  labels : List Label := []
  /-- The derived-key cache: slot and GEN, most recently used first (R354; reset empty). -/
  cache : List (Nat × Nat) := []
  /-- The record table (R356; reset empty). -/
  recs : List TlsRec := []
  /-- DRBG requests since the last reseed (R365; reset 0). -/
  drbg : Nat := 0
  ctrs : CiphCtrs := {}
  deriving DecidableEq, Repr, Inhabited

end Sys2Proof.Machine
end

