-- ==== Sys2Proof/Machine/MountParts.lean ====
section
/-! DEFINITION. What a mount finds on flash, and what a resynchronisation page carries, as data: the spec gives neither a
layout (R170, R171, R248; log 9). -/

namespace Sys2Proof.Machine

/-- A group's translation state, as a checkpoint or pages of a resynchronisation hold it: in `group` the shape, the pair
configuration, the members, the band and substitution entries, the owner records, the lost-extent list and the counters;
in `nss` the namespaces with their maps and zones. -/
structure GroupImage where
  group : Group := {}
  nss : List Ns := []
  deriving DecidableEq, Repr, Inhabited

/-- An anchor record that GROUP_MOUNT finds on a member: whether it is valid, its sequence, and the checkpoint it names, none when a metadata
unit that the mount needs is lost (R170, R171 step 1, R258). The checkpoint's `group.jseq` is its sequence: the first JSEQ that it does not
hold; `group.pageSeq` the sequences of its map pages. -/
structure MountAnchor where
  valid : Bool := true
  seq : Nat := 0
  checkpoint : Option GroupImage := none
  deriving DecidableEq, Repr, Inhabited

/-- What GROUP_MOUNT finds (R171, R254). -/
structure MountImage where
  /-- The anchor records of every present member. -/
  anchors : List MountAnchor := []
  /-- The delta log from the checkpoint's oldest page on, and whether it reaches the group's last record (R256). -/
  log : List JRec := []
  reaches : Bool := false
  /-- Journal images on flash, in the order of R254 with `order` 2 or 3. -/
  images : List JCopy := []
  deriving DecidableEq, Repr, Inhabited

/-- The checkpoint that the valid anchor record with the highest sequence names (R171 step 1). -/
def MountImage.newest (img : MountImage) : Option GroupImage :=
  let best := (img.anchors.filter MountAnchor.valid).foldl (fun (a : Option MountAnchor) x => match a with
    | none => some x
    | some y => if y.seq < x.seq then some x else some y) none
  best.bind MountAnchor.checkpoint

/-- One resynchronisation page (R248). -/
structure ResyncPage where
  g : Nat := 0
  epoch : Nat := 0
  /-- The JSEQ at which the page was read, and whether it is the last page. -/
  jseq : Nat := 1
  last : Bool := true
  /-- It is the first page: the partner clears its copy. -/
  first : Bool := true
  image : GroupImage := {}
  /-- The mirrored configuration of a namespace: its labels, and namespaces that are gone (R351). -/
  labels : List Label := []
  gone : List Nat := []
  deriving DecidableEq, Repr, Inhabited

end Sys2Proof.Machine
end

