-- ==== Sys2Proof/Syntax.lean ====
section
/-! DEFINITION. The commands of the block: one constructor for each row of the spec's table of operations and events,
in the table's order. What an operand means is said at the command's meaning in Machine/. -/

namespace Sys2Proof

/-- A command or event that acts on the controller. -/
inductive Instr where
  /-- REGISTER_WRITE (R7). -/
  | registerWrite (off : Nat) (data : List Byte)
  /-- MIRRORED_READ (R17). -/
  | mirroredRead (r : Payload.RegRead)
  /-- POWER_DIE_WRITE_APPLY (R18). -/
  | powerDieWriteApply
  /-- PKG_LINK_DOWN (R17). -/
  | pkgLinkDown (replays : Nat) (reads : List Nat)
  /-- PKG_LINK_UP (R18). -/
  | pkgLinkUp
  /-- TIME_NOW_READ (R56). -/
  | timeNowRead
  /-- TIME_CFG_WRITE (R40). -/
  | timeCfgWrite (v : Nat)
  /-- TOD_LOAD (R46). -/
  | todLoad
  /-- SLOT_BOUNDARY (R35). -/
  | slotBoundary
  /-- FRAME_BOUNDARY (R35). -/
  | frameBoundary
  /-- TURN_BOUNDARY (R35). -/
  | turnBoundary
  /-- TIME_STEP (R51). -/
  | timeStep
  /-- PTP_SYNC_RX (R43). -/
  | ptpSyncRx (m : Payload.PtpSync)
  /-- PTP_ANNOUNCE_RX (R41). -/
  | ptpAnnounceRx (m : Payload.PtpAnnounce)
  /-- PTP_SOURCE_LOSS (R43). -/
  | ptpSourceLoss (host : Bool)
  /-- PPS_IN_EDGE (R46). -/
  | ppsInEdge (widthNs : Nat) (falling : Bool)
  /-- PPS_IN_LOSS (R43). -/
  | ppsInLoss
  /-- SOURCE_REQUALIFIED (R44). -/
  | sourceRequalified (src : Nat)
  /-- SLEW_COMPLETE (R50). -/
  | slewComplete
  /-- LOCK_OFFSET_DRIFT (R53). -/
  | lockOffsetDrift
  /-- PPS_OUT_START (R47). -/
  | ppsOutStart
  /-- PPS_OUT_END (R47). -/
  | ppsOutEnd
  /-- CONNECT (R61). -/
  | connect (m : Payload.Connect)
  /-- PROPERTY_SET (R77). -/
  | propertySet (c : Payload.Capsule)
  /-- PROPERTY_GET (R77). -/
  | propertyGet (c : Payload.Capsule)
  /-- DISCONNECT (R94). -/
  | disconnect (c : Payload.Capsule)
  /-- GET_LOG_PAGE (R78). -/
  | getLogPage (c : Payload.Capsule)
  /-- NVME_IDENTIFY (R77). -/
  | nvmeIdentify (c : Payload.Capsule)
  /-- NVME_ABORT (R79). -/
  | nvmeAbort (c : Payload.Capsule)
  /-- SET_FEATURES (R80). -/
  | setFeatures (c : Payload.Capsule)
  /-- GET_FEATURES (R93). -/
  | getFeatures (c : Payload.Capsule)
  /-- ASYNC_EVENT_REQUEST (R102). -/
  | asyncEventRequest (c : Payload.Capsule)
  /-- KEEP_ALIVE (R64). -/
  | keepAlive (c : Payload.Capsule)
  /-- DIRECTIVE_SEND (R77). -/
  | directiveSend (c : Payload.Capsule)
  /-- DIRECTIVE_RECEIVE (R77). -/
  | directiveReceive (c : Payload.Capsule)
  /-- UNSUPPORTED_COMMAND (R81). -/
  | unsupportedCommand (c : Payload.Capsule)
  /-- NVME_FLUSH (R82). -/
  | nvmeFlush (c : Payload.Capsule)
  /-- NVME_WRITE (R27). -/
  | nvmeWrite (c : Payload.Capsule)
  /-- NVME_READ (R76). -/
  | nvmeRead (c : Payload.Capsule)
  /-- WRITE_ZEROES (R81). -/
  | writeZeroes (c : Payload.Capsule)
  /-- DATASET_MANAGEMENT (R81). -/
  | datasetManagement (c : Payload.Capsule)
  /-- NVME_VERIFY (R81). -/
  | nvmeVerify (c : Payload.Capsule)
  /-- ZONE_MGMT_SEND (R71). -/
  | zoneMgmtSend (c : Payload.Capsule)
  /-- ZONE_MGMT_RECEIVE (R81). -/
  | zoneMgmtReceive (c : Payload.Capsule)
  /-- ZONE_APPEND (R72). -/
  | zoneAppend (c : Payload.Capsule)
  /-- GATHERED_READ (R86). -/
  | gatheredRead (c : Payload.Capsule)
  /-- PACED_READ (R89). -/
  | pacedRead (c : Payload.Capsule)
  /-- KATO_EXPIRY (R64). -/
  | katoExpiry (cntlid : Nat)
  /-- TRANSPORT_ERROR (R94). -/
  | transportError (cntlid qid : Nat)
  /-- CAPSULE_RESERVE_ADMIT (R63). -/
  | capsuleReserveAdmit
  /-- OVERLAP_WRITE_RELEASE (R75). -/
  | overlapWriteRelease
  /-- WRITE_FETCH_RESUME (R28). -/
  | writeFetchResume
  /-- PACED_FRAME_SEND (R90). -/
  | pacedFrameSend (cntlid qid bytes : Nat)
  /-- STAGE_BUFFER_GRANT (R108). -/
  | stageBufferGrant
  /-- STAGE_STARVE_TIMEOUT (R108). -/
  | stageStarveTimeout
  /-- BAY_WRITE_TLP (R118). -/
  | bayWriteTlp (bay addr : Nat) (data : List Byte)
  /-- TAG_CHECK_DONE (R112). -/
  | tagCheckDone (blk : Nat)
  /-- SLOT_REVOKE_DRAIN (R121). -/
  | slotRevokeDrain (blk : Nat)
  /-- TAG_QUARANTINE_EXPIRY (R120). -/
  | tagQuarantineExpiry (tag : Nat)
  /-- HAWK_DECAY (R126). -/
  | hawkDecay
  /-- HAWK_PIN_RELEASE (R130). -/
  | hawkPinRelease (use : Payload.HawkUse)
  /-- PEER_HOLD_EXPIRY (R134). -/
  | peerHoldExpiry (blk : Nat)
  /-- PEER_READ_REQ (R137). -/
  | peerReadReq (src : Nat) (body : List Byte)
  /-- PEER_READ_RSP (R138). -/
  | peerReadRsp (src : Nat) (body : List Byte)
  /-- DIE_DISPATCH (R191). -/
  | dieDispatch (bay die : Nat)
  /-- ERASE_TURN_SUSPEND (R185). -/
  | eraseTurnSuspend
  /-- PROGRAM_OVERRUN (R186). -/
  | programOverrun (bay die : Nat)
  /-- DIE_STATUS_POLL (R188). -/
  | dieStatusPoll (bay die : Nat)
  /-- READ_CPL (R119). -/
  | readCpl (bay : Nat) (entry : List Byte)
  /-- VERIFY_CPL (R161). -/
  | verifyCpl (bay : Nat) (entry : List Byte)
  /-- PROGRAM_CPL (R220). -/
  | programCpl (bay : Nat) (entry : List Byte)
  /-- ERASE_CPL (R220). -/
  | eraseCpl (bay : Nat) (entry : List Byte)
  /-- SUSPEND_CPL (R197). -/
  | suspendCpl (bay : Nat) (entry : List Byte)
  /-- RESUME_CPL (R222). -/
  | resumeCpl (bay : Nat) (entry : List Byte)
  /-- ABORT_CPL (R224). -/
  | abortCpl (bay : Nat) (entry : List Byte)
  /-- DIE_STATUS_CPL (R188). -/
  | dieStatusCpl (bay : Nat) (entry : List Byte)
  /-- EPOCH_SET_CPL (R226). -/
  | epochSetCpl (bay : Nat) (entry : List Byte)
  /-- EPOCH_NOTICE (R226). -/
  | epochNotice (bay : Nat) (entry : List Byte)
  /-- OP_ABORT_TIMER (R222). -/
  | opAbortTimer (tag : Nat)
  /-- OP_TIMEOUT (R223). -/
  | opTimeout (tag : Nat)
  /-- MODULE_SOURCE_READ (R217). -/
  | moduleSourceRead (bay addr len : Nat)
  /-- BAY_PERST_RELEASE (R210). -/
  | bayPerstRelease (bay : Nat)
  /-- BAY_LINK_TRAIN_TIMEOUT (R210). -/
  | bayLinkTrainTimeout (bay : Nat)
  /-- BAY_ENUMERATE (R210). -/
  | bayEnumerate (bay : Nat) (copy1 copy2 : List Byte)
  /-- BAY_PORT_READY (R210). -/
  | bayPortReady (bay : Nat) (ready : Option Nat)
  /-- BAYLNK_RETRAIN (R230). -/
  | baylnkRetrain (bay : Nat)
  /-- BAYLNK_HOLD (R230). -/
  | baylnkHold (bay : Nat) (v : Bool)
  /-- BAY_LINK_DOWN (R227). -/
  | bayLinkDown (bay : Nat)
  /-- SPARE_BAND_FORM (R164). -/
  | spareBandForm (gi : Nat)
  /-- GC_VICTIM_SELECT (R166). -/
  | gcVictimSelect (gi : Nat)
  /-- GC_BATCH_VERIFIED (R167). -/
  | gcBatchVerified (gi victim : Nat)
  /-- GC_VICTIM_DURABLE (R167). -/
  | gcVictimDurable (gi victim : Nat)
  /-- GC_READERS_DRAINED (R167). -/
  | gcReadersDrained (gi victim : Nat)
  /-- ZONE_COMPACT (R149). -/
  | zoneCompact (nsx zone : Nat)
  /-- WEAR_LEVEL_START (R174). -/
  | wearLevelStart (gi : Nat)
  /-- DELTA_LOG_APPEND (R169). -/
  | deltaLogAppend (gi : Nat)
  /-- CHECKPOINT_TIMER (R170). -/
  | checkpointTimer (gi : Nat)
  /-- GROUP_MOUNT (R171). -/
  | groupMount (g : Nat) (img : Machine.MountImage)
  /-- SKIM_PASS_START (R201). -/
  | skimPassStart
  /-- SKIM_STRIPE_COMPARE (R205). -/
  | skimStripeCompare (g band q : Nat)
  /-- JMIRROR_RX (R245). -/
  | jmirrorRx (src : Nat) (body : List Byte)
  /-- JACK_RX (R245). -/
  | jackRx (body : List Byte)
  /-- JMIRROR_RETRY (R246). -/
  | jmirrorRetry (g : Nat)
  /-- MIRROR_FAIL_TIMEOUT (R246). -/
  | mirrorFailTimeout (g : Nat)
  /-- RESYNC_START (R248). -/
  | resyncStart (g : Nat)
  /-- RESYNC_RX (R248). -/
  | resyncRx (page : Machine.ResyncPage)
  /-- JCOPY_REQ_RX (R255). -/
  | jcopyReqRx (src : Nat) (body : List Byte)
  /-- JCOPY_RX (R255). -/
  | jcopyRx (body : List Byte)
  /-- JCOPY_TIMEOUT (R254). -/
  | jcopyTimeout (g : Nat)
  /-- JOURNAL_WAIT_TIMEOUT (R254). -/
  | journalWaitTimeout (g : Nat)
  /-- SPARE_DELAY_EXPIRY (R260). -/
  | spareDelayExpiry (g m : Nat)
  /-- RETURN_WINDOW_EXPIRY (R263). -/
  | returnWindowExpiry (g m : Nat)
  /-- REBUILD_BAND_DONE (R261). -/
  | rebuildBandDone (g band : Nat)
  /-- HOST_FRAME_RX (R281). -/
  | hostFrameRx (f : Payload.EthFrame)
  /-- PFC_FRAME_RX (R286). -/
  | pfcFrameRx (port sub vec : Nat) (times : List Nat)
  /-- PFC_WATCHDOG (R286). -/
  | pfcWatchdog (port sub cls : Nat)
  /-- SUBPORT_DOWN (R290). -/
  | subportDown (port sub : Nat)
  /-- SUBPORT_UP (R289). -/
  | subportUp (port sub : Nat)
  /-- NET_PORT_ENABLE (R289). -/
  | netPortEnable (port : Nat) (enable : Bool)
  /-- PORT_SELECT (R296). -/
  | portSelect (port sub : Nat)
  /-- INTERNAL_FRAME_ADMIT (R285). -/
  | internalFrameAdmit (f : Option Payload.NetOut)
  /-- CNP_RX (R297). -/
  | cnpRx (cntlid qid : Nat)
  /-- CNP_RECOVER (R297). -/
  | cnpRecover (cntlid qid : Nat)
  /-- MIRROR_RESET (R294). -/
  | mirrorReset
  /-- NET_COMMIT (R300). -/
  | netCommit
  /-- SCRIM_FRAME_RX (R313). -/
  | scrimFrameRx (port : Nat) (frame : Payload.WireFrame)
  /-- HELLO_TX (R310). -/
  | helloTx
  /-- HELLO_RX (R310). -/
  | helloRx (port : Nat) (body : List Byte)
  /-- ADJ_DEAD (R310). -/
  | adjDead (port : Nat)
  /-- ADDR_CLAIM (R307). -/
  | addrClaim
  /-- LSA_RX (R316). -/
  | lsaRx (port : Nat) (body : List Byte)
  /-- LSA_ACK_RX (R316). -/
  | lsaAckRx (port : Nat) (body : List Byte)
  /-- LSA_RETRANSMIT (R316). -/
  | lsaRetransmit (port : Nat)
  /-- LSA_REFRESH (R315). -/
  | lsaRefresh
  /-- LSA_AGE_TICK (R315). -/
  | lsaAgeTick
  /-- SPF_COMPUTE (R317). -/
  | spfCompute
  /-- FAULT_REPORT_RX (R319). -/
  | faultReportRx (port : Nat) (body : List Byte)
  /-- FAULT_WINDOW_EXPIRY (R319). -/
  | faultWindowExpiry (subject cls : Nat)
  /-- FAULT_REPEAT (R318). -/
  | faultRepeat (subject cls : Nat)
  /-- LEASE_ANSWER_RX (R326). -/
  | leaseAnswerRx (body : List Byte)
  /-- LEASE_LAPSE (R327). -/
  | leaseLapse (g : Nat)
  /-- TAKEOVER_TRIGGER (R328). -/
  | takeoverTrigger (g : Nat)
  /-- WITNESS_REGISTER_RX (R331). -/
  | witnessRegisterRx (src flow : Nat) (body : List Byte)
  /-- WITNESS_RENEW_RX (R331). -/
  | witnessRenewRx (src flow : Nat) (body : List Byte)
  /-- WITNESS_TAKEOVER_RX (R331). -/
  | witnessTakeoverRx (src flow : Nat) (body : List Byte)
  /-- WITNESS_RELEASE_RX (R331). -/
  | witnessReleaseRx (body : List Byte)
  /-- RELEASE_HOLD_EXPIRY (R331). -/
  | releaseHoldExpiry (uid : Nat)
  /-- PROVISIONAL_MATURE (R331). -/
  | provisionalMature (uid : Nat)
  /-- WITNESS_DATAGRAM_RX (R333). -/
  | witnessDatagramRx (addr : List Byte) (port : Nat) (bytes : List Byte)
  /-- VOTE_RX (R334). -/
  | voteRx (body : List Byte)
  /-- TAKEOVER_ATTEMPT_END (R334). -/
  | takeoverAttemptEnd (g : Nat)
  /-- TAKEOVER_RETRY (R334). -/
  | takeoverRetry (g : Nat)
  /-- HANDOVER_OFFER_RX (R341). -/
  | handoverOfferRx (body : List Byte)
  /-- HANDOVER_ACK_RX (R341). -/
  | handoverAckRx (body : List Byte)
  /-- HANDOVER_COMMIT_RX (R341). -/
  | handoverCommitRx (body : List Byte)
  /-- HANDOVER_CANCEL_RX (R341). -/
  | handoverCancelRx (body : List Byte)
  /-- HANDOVER_REQUEST_RX (R338). -/
  | handoverRequestRx (body : List Byte)
  /-- HANDOVER_JACK_TIMEOUT (R341). -/
  | handoverJackTimeout (g : Nat)
  /-- FAILBACK_HOLDOFF_EXPIRY (R338). -/
  | failbackHoldoffExpiry (g : Nat)
  /-- SWAP_DUE (R339). -/
  | swapDue (g : Nat)
  /-- WITNESS_UNREACHABLE (R337). -/
  | witnessUnreachable (g : Nat)
  /-- KEYX_INIT_RX (R360). -/
  | keyxInitRx (port : Nat) (body : List Byte)
  /-- KEYX_CONFIRM_RX (R360). -/
  | keyxConfirmRx (port : Nat) (body : List Byte)
  /-- KEYX_INIT_RESEND (R360). -/
  | keyxInitResend (port : Nat)
  /-- KEYX_RESTART (R360). -/
  | keyxRestart (port : Nat)
  /-- KEYX_REKEY (R360). -/
  | keyxRekey (port : Nat)
  /-- ROOT_KEY_FAULT (R348). -/
  | rootKeyFault
  /-- ENTROPY_FAIL (R367). -/
  | entropyFail
  /-- ENTROPY_RECOVER (R367). -/
  | entropyRecover
  /-- TLS_RECORD_RX (R358). -/
  | tlsRecordRx (cntlid qid : Nat) (tagOk : Bool)
  /-- TLS_KEY_UPDATE (R358). -/
  | tlsKeyUpdate (cntlid qid : Nat) (tx : Bool)
  /-- MBX_DOORBELL (R373). -/
  | mbxDoorbell (c : Nat)
  /-- MBX_ACK (R373). -/
  | mbxAck (c : Nat)
  /-- BAR2_AREA_WRITE (R374). -/
  | bar2AreaWrite (off : Nat) (data : List Byte)
  /-- MBX_MP_REQUEST (R379). -/
  | mbxMpRequest (addr port : Nat) (datagram : List Byte)
  /-- MBX_SMBUS_REQUEST (R380). -/
  | mbxSmbusRequest (pecOk : Bool) (msgType : Nat) (bytes : List Byte)
  /-- MBX_SCRIM_REQUEST (R381). -/
  | mbxScrimRequest (src devId : Nat) (m : List Byte)
  /-- MBX_DATA_DIE_TAKE (R382). -/
  | mbxDataDieTake (c : Nat)
  /-- MBX_AON_WITHDRAW (R382). -/
  | mbxAonWithdraw (chan : Nat)
  /-- JOB_DONE (R383). -/
  | jobDone (job : Nat)
  /-- IDENTIFY (R394). -/
  | identify (chan : Nat)
  /-- STATS (R394). -/
  | stats (chan : Nat)
  /-- STATS_DESCRIBE (R394). -/
  | statsDescribe (chan : Nat)
  /-- NET_ADDR (R394). -/
  | netAddr (chan : Nat)
  /-- MIRROR_READ (R394). -/
  | mirrorRead (chan : Nat)
  /-- RESET (R394). -/
  | reset (chan : Nat)
  /-- CREDENTIAL (R379). -/
  | credential (chan : Nat)
  /-- JOB_STATUS (R383). -/
  | jobStatus (chan : Nat)
  /-- FUSE_STATUS (R502). -/
  | fuseStatus (chan : Nat)
  /-- FUSE_ROOT_KEY (R502). -/
  | fuseRootKey (chan : Nat) (readBackOk : Bool)
  /-- FUSE_KEY_HASH (R502). -/
  | fuseKeyHash (chan : Nat) (readBackOk : Bool)
  /-- FUSE_LIFECYCLE (R500). -/
  | fuseLifecycle (chan : Nat) (readBackOk : Bool)
  /-- FUSE_DEBUG_LOCK (R502). -/
  | fuseDebugLock (chan : Nat) (readBackOk : Bool)
  /-- OTP_WRITE (R498). -/
  | otpWrite (chan : Nat) (readBackOk : Bool)
  /-- OTP_VOID (R498). -/
  | otpVoid (chan : Nat) (readBackOk : Bool)
  /-- OTP_READ (R502). -/
  | otpRead (chan : Nat)
  /-- NS_CREATE (R394). -/
  | nsCreate (chan : Nat)
  /-- NS_DELETE (R394). -/
  | nsDelete (chan : Nat)
  /-- NS_RESIZE (R394). -/
  | nsResize (chan : Nat)
  /-- NS_ATTR (R394). -/
  | nsAttr (chan : Nat)
  /-- NS_GRANT (R394). -/
  | nsGrant (chan : Nat)
  /-- NS_SUBSYS (R394). -/
  | nsSubsys (chan : Nat)
  /-- NS_INFO (R394). -/
  | nsInfo (chan : Nat)
  /-- BAY_STATUS (R394). -/
  | bayStatus (chan : Nat)
  /-- BAY_POWER (R443). -/
  | bayPower (chan : Nat)
  /-- BAY_HOLD (R394). -/
  | bayHold (chan : Nat)
  /-- GRP_FORM (R232). -/
  | grpForm (chan : Nat)
  /-- GRP_DISSOLVE (R271). -/
  | grpDissolve (chan : Nat)
  /-- GRP_ASSIGN (R394). -/
  | grpAssign (chan : Nat)
  /-- GRP_ACCEPT_LOSS (R256). -/
  | grpAcceptLoss (chan : Nat)
  /-- GRP_STATUS (R394). -/
  | grpStatus (chan : Nat)
  /-- GRP_LOST_READ (R394). -/
  | grpLostRead (chan : Nat)
  /-- FAULT_SUBMIT (R318). -/
  | faultSubmit (chan : Nat)
  /-- FORCE_TAKEOVER (R336). -/
  | forceTakeover (chan : Nat)
  /-- HANDOVER (R394). -/
  | handover (chan : Nat)
  /-- LABEL_WRITE (R351). -/
  | labelWrite (chan : Nat)
  /-- LABEL_READ (R394). -/
  | labelRead (chan : Nat)
  /-- GEN_ADVANCE (R362). -/
  | genAdvance (chan : Nat)
  /-- PSK_EXPORT (R359). -/
  | pskExport (chan : Nat)
  /-- MODE_STATUS (R475). -/
  | modeStatus (chan : Nat)
  /-- MODE_REQUEST (R459). -/
  | modeRequest (chan : Nat)
  /-- WAKE_CONFIG (R475). -/
  | wakeConfig (chan : Nat)
  /-- ISLAND_TIME (R475). -/
  | islandTime (chan : Nat)
  /-- BBX_READ (R484). -/
  | bbxRead (chan : Nat)
  /-- BBX_CLEAR (R485). -/
  | bbxClear (chan : Nat)
  /-- PARAM_GET (R389). -/
  | paramGet (chan : Nat)
  /-- PARAM_SET (R390). -/
  | paramSet (chan : Nat)
  /-- PARAM_COMMIT (R391). -/
  | paramCommit (chan : Nat)
  /-- PARAM_DISCARD (R389). -/
  | paramDiscard (chan : Nat)
  /-- PARAM_DESCRIBE (R387). -/
  | paramDescribe (chan : Nat)
  /-- PARAM_SAVE (R393). -/
  | paramSave (chan : Nat)
  /-- PARAM_DEFAULTS (R393). -/
  | paramDefaults (chan : Nat)
  /-- FW_BEGIN (R397). -/
  | fwBegin (chan : Nat)
  /-- FW_WRITE (R397). -/
  | fwWrite (chan : Nat)
  /-- FW_VERIFY (R397). -/
  | fwVerify (chan : Nat)
  /-- FW_ACTIVATE (R397). -/
  | fwActivate (chan : Nat)
  /-- FW_CONFIRM (R397). -/
  | fwConfirm (chan : Nat) (readBackOk : Bool)
  /-- FW_STATUS (R397). -/
  | fwStatus (chan : Nat)
  /-- FW_ABORT (R397). -/
  | fwAbort (chan : Nat)
  /-- FW_SESSION_IDLE (R397). -/
  | fwSessionIdle
  /-- FW_TRIAL_TIMEOUT (R398). -/
  | fwTrialTimeout
  /-- EVENT_READ (R396). -/
  | eventRead (chan : Nat)
  /-- EVENT_WAIT (R396). -/
  | eventWait (chan : Nat)
  /-- EVENT_WAIT_TIMEOUT (R396). -/
  | eventWaitTimeout (chan : Nat)
  /-- EVT_HEAD_READ (R416). -/
  | evtHeadRead
  /-- CONFIG_REQUEST (R404). -/
  | configRequest (write : Bool) (r : Payload.CfgReg) (value : Nat)
  /-- EP_PERST_ASSERT (R420). -/
  | epPerstAssert
  /-- EP_PERST_DEASSERT (R404). -/
  | epPerstDeassert
  /-- EP_CFG_READY_TIMEOUT (R404). -/
  | epCfgReadyTimeout
  /-- EP_HOT_RESET (R420). -/
  | epHotReset
  /-- EP_FLR (R420). -/
  | epFlr
  /-- EP_LINK_DOWN (R420). -/
  | epLinkDown
  /-- EP_LINK_UP (R402). -/
  | epLinkUp (gen width : Nat)
  /-- DMA_READ_TIMEOUT (R420). -/
  | dmaReadTimeout (queue : Nat)
  /-- EP_D3HOT_ENTRY (R418). -/
  | epD3hotEntry
  /-- EP_D3COLD_ENTRY (R418). -/
  | epD3coldEntry
  /-- EP_D0_RETURN (R418). -/
  | epD0Return
  /-- PME_TURN_OFF (R419). -/
  | pmeTurnOff (waitedOut : Bool)
  /-- BAR4_ACCESS (R408). -/
  | bar4Access (write : Bool) (off len : Nat) (data : List Byte)
  /-- EP_WIN_COMMIT (R410). -/
  | epWinCommit
  /-- WIN_EPOCH_DRAIN (R412). -/
  | winEpochDrain
  /-- DMA_DESC_DONE (R416). -/
  | dmaDescDone (queue : Nat)
  /-- MSIX_UNMASK (R417). -/
  | msixUnmask (v : Nat)
  /-- PRSL_CHANGE (R430). -/
  | prslChange (bay : Nat) (seated : Bool)
  /-- PRSS_CHANGE (R428). -/
  | prssChange (bay : Nat) (seated : Bool)
  /-- SEAT_TIMER (R428). -/
  | seatTimer (bay : Nat)
  /-- UNSEAT_TIMER (R428). -/
  | unseatTimer (bay : Nat)
  /-- RAMP_COMPLETE (R431). -/
  | rampComplete (bay : Nat) (vchAtLeastVout : Bool)
  /-- GATE_ENHANCED (R431). -/
  | gateEnhanced (bay : Nat)
  /-- RAMP_TIMEOUT (R431). -/
  | rampTimeout (bay : Nat)
  /-- FAULT_TIMER_EXPIRY (R433). -/
  | faultTimerExpiry (bay peakMa : Nat)
  /-- FAST_TRIP (R434). -/
  | fastTrip (bay : Nat)
  /-- POWER_GOOD_ASSERT (R437). -/
  | powerGoodAssert (bay voutMv : Nat)
  /-- PG_UNDERVOLT (R437). -/
  | pgUndervolt (bay : Nat)
  /-- THERMAL_SAMPLE (R438). -/
  | thermalSample (bay : Nat) (t : Payload.Telemetry)
  /-- FET_DAMAGE_DETECT (R440). -/
  | fetDamageDetect (bay : Nat) (nearVout : Bool)
  /-- RETRY_OFFTIME_EXPIRY (R442). -/
  | retryOfftimeExpiry (bay : Nat)
  /-- RETRY_COUNT_RESET (R430). -/
  | retryCountReset (bay : Nat)
  /-- CYCLE_RETURN (R430). -/
  | cycleReturn (bay : Nat)
  /-- BAYPWR_ON (R430). -/
  | baypwrOn (bay : Nat)
  /-- BAYPWR_OFF (R430). -/
  | baypwrOff (bay : Nat)
  /-- BAYPWR_CYCLE (R430). -/
  | baypwrCycle (bay : Nat)
  /-- BAYPWR_CLEAR (R430). -/
  | baypwrClear (bay : Nat)
  /-- BAY_OR_REVERSE (R426). -/
  | bayOrReverse (bay : Nat)
  /-- FEED_ORING_ON (R445). -/
  | feedOringOn (b : Bool) (feedMv busMv : Nat)
  /-- FEED_REVERSE_OFF (R445). -/
  | feedReverseOff (b : Bool) (feedMv busMv : Nat)
  /-- FEED_REARM (R445). -/
  | feedRearm (b : Bool) (feedMv busMv : Nat)
  /-- FEED_OV_OFF (R445). -/
  | feedOvOff (b : Bool) (feedMv : Nat)
  /-- FEED_OV_RECOVER (R445). -/
  | feedOvRecover (b : Bool) (feedMv busMv : Nat)
  /-- FEED_ABSENT (R446). -/
  | feedAbsent (b : Bool) (feedMv : Nat)
  /-- FEED_RESTORED (R452). -/
  | feedRestored (b : Bool) (feedMv busMv : Nat)
  /-- FEED_COLLAPSE (R446). -/
  | feedCollapse (busMv : Nat)
  /-- PWRFAIL_N_FALL (R16). -/
  | pwrfailNFall
  /-- FLUSH_PROGRESS_TICK (R488). -/
  | flushProgressTick
  /-- PFAIL_FLUSH_DONE (R491). -/
  | pfailFlushDone
  /-- POST_FLUSH_RESET (R494). -/
  | postFlushReset
  /-- SRAM_ECC_ERROR (R457). -/
  | sramEccError (region : Nat)
  /-- DRAM_ECC_ERROR (R457). -/
  | dramEccError (line : Nat)
  /-- INVARIANT_BREAK (R457). -/
  | invariantBreak
  /-- DIE_CRITICAL_TEMP (R457). -/
  | dieCriticalTemp
  /-- DIE_OVERTEMP_SHUTDOWN (R523). -/
  | dieOvertempShutdown (tempC : Nat)
  /-- OVERTEMP_WAKE_HOLD_END (R523). -/
  | overtempWakeHoldEnd
  /-- ISLAND_ENTRY_COMPLETE (R461). -/
  | islandEntryComplete
  /-- WAKE_INPUT_QUALIFY (R463). -/
  | wakeInputQualify (levels : Nat)
  /-- ISLAND_ALARM (R463). -/
  | islandAlarm
  /-- WAKE_LATCH_CLEAR (R462). -/
  | wakeLatchClear (mask : Nat)
  /-- ISLAND_EXIT (R462). -/
  | islandExit
  /-- MAIN_PG_TIMEOUT (R522). -/
  | mainPgTimeout
  /-- MAIN_PG_RISE (R521). -/
  | mainPgRise
  /-- MAIN_PG_FALL (R522). -/
  | mainPgFall
  /-- DD_RST_RELEASE (R473). -/
  | ddRstRelease
  /-- PRIMER_BOOT (R506). -/
  | primerBoot (pipes : Nat) (keyingOk : Bool)
  /-- STANDBY_REACHED (R506). -/
  | standbyReached
  /-- RESUME_TIME_WINDOW (R473). -/
  | resumeTimeWindow
  /-- AVS_RESPONSE (R467). -/
  | avsResponse (ack : Bool) (readMv : Nat)
  /-- AVS_TIMEOUT (R469). -/
  | avsTimeout
  /-- AVS_LOWER_RETRY (R469). -/
  | avsLowerRetry
  /-- ISLAND_SUPPLY_CHANGE (R470). -/
  | islandSupplyChange (aux poe : Bool) (poeClass : Nat)
  /-- VAON_LOSS (R487). -/
  | vaonLoss
  /-- BBX_RECORD_SUBMIT (R483). -/
  | bbxRecordSubmit (r : Payload.BbxSubmit)
  /-- BBX_RECORD_COMMIT (R481). -/
  | bbxRecordCommit (readBackOk : Bool)
  /-- BBX_ERASE_DONE (R481). -/
  | bbxEraseDone
  /-- DD_BEAT_EDGE (R490). -/
  | ddBeatEdge
  /-- WATCHDOG_EXPIRY (R490). -/
  | watchdogExpiry
  /-- POWER_DIE_RESET (R489). -/
  | powerDieReset
  /-- PWRON_RESET_ASSERT (R520). -/
  | pwronResetAssert
  /-- PWRON_RESET_RELEASE (R520). -/
  | pwronResetRelease (slotB prov bootSel : Bool) (shelf : Nat)
  /-- BAY_LINK_TRAINED (R209). -/
  | bayLinkTrained (bay speed width : Nat)
  /-- BREAKER_CROSSING (R433). -/
  | breakerCrossing (bay : Nat) (breaker limit : Bool)
  /-- OPERATING_POINT_VOLTAGE (R469). -/
  | operatingPointVoltage (mv : Nat) (forEntry : Bool)
  /-- MP_PHY_RESET_RELEASE (R518). -/
  | mpPhyResetRelease
  /-- PTP_MESSAGE_TX (R42). -/
  | ptpMessageTx (m : Payload.PtpTx)
  /-- PTP_PDELAY_REQ_RX (R42). -/
  | ptpPdelayReqRx (port seq : Nat)
  /-- PFC_PAUSE_EXPIRY (R286). -/
  | pfcPauseExpiry (port sub cls : Nat)
  /-- PFC_WATCHDOG_RECOVER (R286). -/
  | pfcWatchdogRecover (port sub cls : Nat)
  /-- TRANSPORT_RETRANSMIT (R299). -/
  | transportRetransmit (cntlid qid : Nat)
  deriving DecidableEq, Repr

end Sys2Proof
end

