-- ==== Sys2Proof/Decode.lean ====
section
/-! DEFINITION. Commands from words. The spec gives the commands no bit encoding (the table's rows have no fields), so no word
spells one. -/

namespace Sys2Proof

/-- The command that a word spells by the table's bits: none, since no row of the table gives bits. -/
def decodeTableWord (_nbits _w : Nat) : Option Instr := none

end Sys2Proof
end

