-- ==== Sys2Proof/Config.lean ====
section
/-! DEFINITION. What the spec leaves open, as constants without a body: nothing can evaluate them, so a claim holds
whatever they are. A constant of one counter argument is applied to `State.free`, a counter that every use advances,
so that each use is a fresh value; a constant of operand arguments is one fixed, unknown function of them. -/

namespace Sys2Proof.Config

/-- A fresh open number (log entry 3): every place in the model where the spec gives an effect and not the value. -/
opaque freeNat : Nat → Nat

/-- A fresh open yes or no (log entry 3). -/
opaque freeBool : Nat → Bool

/-- SHA-384 of a byte string (R499, R504): a published function, kept uninterpreted (log entry 4). -/
opaque sha384 : List Byte → Nat

/-- ECDSA P-384 verification of (public key, digest, signature) (R504): uninterpreted (log entry 4). -/
opaque ecdsaP384 : List Byte → Nat → List Byte → Bool

/-- SHA-384 of the provisioning key held in Primer (R505): mask ROM content that the spec does not print. -/
opaque provisioningKeyHash : Nat

/-- The hash by which Hawk's admission counters are indexed by (namespace index, unit) (R126). -/
opaque hawkHash : Nat → Nat → Nat

/-- The content of the switch packet buffer at an on-chip address outside the mirror ring (R407), by read. -/
opaque packetByte : Nat → Nat → Nat

/-- Where the bay link controller places a bay's submission ring (false) and completion ring (true) in its own memory (R213): the spec gives
its size and no address (log 130). -/
opaque ringBase : Nat → Bool → Nat

/-- The MAC address of an SP port: the part has one, and no rule gives it (R312; log 131). -/
opaque spMac : Nat → Nat

end Sys2Proof.Config
end

