-- ==== Sys2Proof/Machine/Aes.lean ====
section
/-! DEFINITION. AES-256 and the constructions over it that the spec uses: CMAC (R379, R330, R352), the counter-mode key
derivation over CMAC (R352), XTS (R350) and GHASH with GCM (R311, R356). They are the published functions (FIPS 197,
NIST SP 800-38B, 800-108, 800-38D, IEEE 1619), written over lists of bytes held as numbers. -/

namespace Sys2Proof.Machine.Aes

/-- The S-box, entry i in bits [8i + 7 : 8i]. -/
def sboxTable : Nat := 0x16bb54b00f2d99416842e6bf0d89a18cdf2855cee9871e9b948ed9691198f8e19e1dc186b95735610ef6034866b53e708a8bbd4b1f74dde8c6b4a61c2e2578ba08ae7a65eaf4566ca94ed58d6d37c8e779e4959162acd3c25c2406490a3a32e0db0b5ede14b8ee4688902a22dc4f816073195d643d7ea7c41744975fec130ccdd2f3ff1021dab6bcf5389d928f40a351a89f3c507f02f94585334d43fbaaefd0cf584c4a39becb6a5bb1fc20ed00d153842fe329b3d63b52a05a6e1b1a2c830975b227ebe28012079a059618c323c7041531d871f1e5a534ccf73f362693fdb7c072a49cafa2d4adf04759fa7dc982ca76abd7fe2b670130c56f6bf27b777c63

/-- The inverse S-box, entry i in bits [8i + 7 : 8i]. -/
def invSboxTable : Nat := 0x7d0c2155631469e126d677ba7e042b17619953833cbbebc8b0f52aae4d3be0a0ef9cc9939f7ae52d0d4ab519a97f51605fec8027591012b131c7078833a8dd1ff45acd78fec0db9a2079d2c64b3e56fc1bbe18aa0e62b76f89c5291d711af1476edf751ce837f9e28535ade72274ac9673e6b4f0cecff297eadc674f4111913a6b8a130103bdafc1020f3fca8f1e2cd00645b3b80558e4f70ad3bc8c00abd890849d8da75746155edab9edfd5048706c92b6655dcc5ca4d41698688664f6f87225d18b6d49a25b76b224d92866a12e084ec3fa420b954cee3d23c2a632947b54cbe9dec444438e3487ff2f9b8239e37cfbd7f3819ea340bf38a53630d56a0952

/-- One byte through the S-box. -/
def sub (b : Nat) : Nat := sboxTable / 2 ^ (8 * b) % 256

/-- One byte through the inverse S-box. -/
def invSub (b : Nat) : Nat := invSboxTable / 2 ^ (8 * b) % 256

/-- Multiplication by x in GF(2^8). -/
def xtime (b : Nat) : Nat := if b < 128 then 2 * b else (2 * b - 256) ^^^ 0x1b

/-- Multiplication in GF(2^8) by a constant given as `n` low bits. -/
def gmul : Nat → Nat → Nat → Nat
  | 0, _, _ => 0
  | n + 1, a, c => (if c % 2 = 1 then a else 0) ^^^ gmul n (xtime a) (c / 2)

/-- Byte-wise XOR of two byte lists. -/
def xorL (a b : List Nat) : List Nat := List.zipWith (· ^^^ ·) a b

/-- The 60 words of the AES-256 key schedule, newest first, after `n` further words. `i` is the next word's number. -/
def expand : Nat → Nat → Nat → List (List Nat) → List (List Nat)
  | 0, _, _, ws => ws
  | n + 1, i, rcon, ws =>
    let prev := ws.headD []
    let t :=
      if i % 8 = 0 then
        match prev.map sub with
        | [a, b, c, d] => [b ^^^ rcon, c, d, a]
        | _ => prev
      else if i % 8 = 4 then prev.map sub else prev
    expand n (i + 1) (if i % 8 = 0 then xtime rcon else rcon) (xorL (ws.getD 7 []) t :: ws)

/-- Four bytes at a time. -/
def words : Nat → List Nat → List (List Nat)
  | 0, _ => []
  | n + 1, bs => bs.take 4 :: words n (bs.drop 4)

/-- The fifteen round keys of 16 bytes. -/
def roundKeys (key : List Nat) : List (List Nat) :=
  let ws := (expand 52 8 1 (words 8 key).reverse).reverse
  (List.range 15).map fun r => ((ws.drop (4 * r)).take 4).flatten

/-- ShiftRows: output byte i comes from input byte (5 i) mod 16. -/
def shiftRows (st : List Nat) : List Nat := (List.range 16).map fun i => st.getD (5 * i % 16) 0

/-- Inverse ShiftRows: output byte i comes from input byte (13 i) mod 16. -/
def invShiftRows (st : List Nat) : List Nat := (List.range 16).map fun i => st.getD (13 * i % 16) 0

/-- One column times the circulant matrix whose first row is `m`. -/
def mixColumn (m col : List Nat) : List Nat :=
  (List.range 4).map fun r =>
    (List.range 4).foldl (fun acc c => acc ^^^ gmul 4 (col.getD c 0) (m.getD ((c + 4 - r) % 4) 0)) 0

/-- MixColumns (or its inverse) with matrix row `m`. -/
def mixColumns (m st : List Nat) : List Nat := ((words 4 st).map (mixColumn m)).flatten

/-- The rounds of encryption after the first key addition. -/
def encRounds : List (List Nat) → List Nat → List Nat
  | [], st => st
  | [k], st => xorL (shiftRows (st.map sub)) k
  | k :: k' :: ks, st => encRounds (k' :: ks) (xorL (mixColumns [2, 3, 1, 1] (shiftRows (st.map sub))) k)

/-- AES-256 encryption of one block. -/
def encrypt (key blk : List Nat) : List Nat :=
  match roundKeys key with
  | [] => blk
  | k :: ks => encRounds ks (xorL blk k)

/-- The rounds of decryption after the last key's addition; the keys come in reverse order. -/
def decRounds : List (List Nat) → List Nat → List Nat
  | [], st => st
  | [k], st => xorL ((invShiftRows st).map invSub) k
  | k :: k' :: ks, st => decRounds (k' :: ks) (mixColumns [14, 11, 13, 9] (xorL ((invShiftRows st).map invSub) k))

/-- AES-256 decryption of one block. -/
def decrypt (key blk : List Nat) : List Nat :=
  match (roundKeys key).reverse with
  | [] => blk
  | k :: ks => decRounds ks (xorL blk k)

/-- Bytes of a byte string as numbers. -/
def ofBytes (bs : List Byte) : List Nat := bs.map BitVec.toNat

/-- Numbers as bytes. -/
def toBytes (bs : List Nat) : List Byte := bs.map (BitVec.ofNat 8)

/-- The number that bytes spell, most significant byte first. -/
def be (bs : List Nat) : Nat := bs.foldl (fun a b => a * 256 + b) 0

/-- `n` bytes of a number, most significant byte first. -/
def ofBe (n v : Nat) : List Nat := (List.range n).map fun i => v / 2 ^ (8 * (n - 1 - i)) % 256

/-- `n` bytes of a number, least significant byte first. -/
def ofLe (n v : Nat) : List Nat := (List.range n).map fun i => v / 2 ^ (8 * i) % 256

/-- Doubling in GF(2^128) as CMAC has it, over the block read big-endian. -/
def dbl (v : Nat) : Nat := if v < 2 ^ 127 then 2 * v else (2 * v - 2 ^ 128) ^^^ 0x87

/-- The CBC chain of CMAC over all but the last block. -/
def cmacLoop (key : List Nat) (k1 k2 : Nat) : Nat → List Nat → List Nat → List Nat
  | 0, x, _ => x
  | n + 1, x, m =>
    if m.length ≤ 16 then
      let last := if m.length = 16 then xorL m (ofBe 16 k1)
        else xorL (m ++ 0x80 :: List.replicate (15 - m.length) 0) (ofBe 16 k2)
      encrypt key (xorL x last)
    else cmacLoop key k1 k2 n (encrypt key (xorL x (m.take 16))) (m.drop 16)

/-- AES-256-CMAC of a message: 16 bytes. -/
def cmac (key msg : List Nat) : List Nat :=
  let k1 := dbl (be (encrypt key (List.replicate 16 0)))
  cmacLoop key k1 (dbl k1) (msg.length / 16 + 1) (List.replicate 16 0) msg

/-- One XTS data unit, block by block, under data key `k1` and tweak `t`. -/
def xtsBlocks (dec : Bool) (k1 : List Nat) : Nat → Nat → List Nat → List Nat
  | 0, _, _ => []
  | n + 1, t, bs =>
    let tw := ofLe 16 t
    let blk := xorL (bs.take 16) tw
    xorL (if dec then decrypt k1 blk else encrypt k1 blk) tw ++
      xtsBlocks dec k1 n (if t < 2 ^ 127 then 2 * t else (2 * t - 2 ^ 128) ^^^ 0x87) (bs.drop 16)

/-- XTS-AES-256 over a whole number of blocks: key 64 bytes, data-unit number `unit`. -/
def xts (dec : Bool) (key : List Nat) (unit : Nat) (bs : List Nat) : List Nat :=
  let tw := encrypt (key.drop 32) (ofLe 16 unit)
  xtsBlocks dec (key.take 32) (bs.length / 16) (tw.foldr (fun b a => b + 256 * a) 0) bs

/-- Multiplication in GF(2^128) as GHASH has it: bit 127 of the big-endian number is the coefficient of x^0. -/
def ghashMul : Nat → Nat → Nat → Nat → Nat
  | 0, _, _, z => z
  | n + 1, x, v, z =>
    ghashMul n x (if v % 2 = 1 then (v / 2) ^^^ (0xe1 * 2 ^ 120) else v / 2) (if x.testBit n then z ^^^ v else z)

/-- GHASH over whole blocks under hash key `h`. -/
def ghash (h : Nat) : Nat → Nat → List Nat → Nat
  | 0, y, _ => y
  | n + 1, y, bs => ghash h n (ghashMul 128 (y ^^^ be (bs.take 16)) h 0) (bs.drop 16)

/-- Zero padding to a whole number of blocks. -/
def pad16 (bs : List Nat) : List Nat := bs ++ List.replicate ((16 - bs.length % 16) % 16) 0

/-- The GCM counter stream over a byte string, from counter `c` (32 bits) with a 12-byte IV. -/
def gctr (key iv : List Nat) : Nat → Nat → List Nat → List Nat
  | 0, _, _ => []
  | n + 1, c, bs => xorL bs (encrypt key (iv ++ ofBe 4 c)) ++ gctr key iv n (c + 1) (bs.drop 16)

/-- The GCM tag of (additional data, ciphertext). -/
def gcmTag (key iv aad ct : List Nat) : List Nat :=
  let h := be (encrypt key (List.replicate 16 0))
  let bs := pad16 aad ++ pad16 ct ++ ofBe 8 (8 * aad.length) ++ ofBe 8 (8 * ct.length)
  xorL (ofBe 16 (ghash h (bs.length / 16) 0 bs)) (encrypt key (iv ++ [0, 0, 0, 1]))

/-- GCM encryption (or decryption) of a text with a 12-byte IV, without the tag. -/
def gcmCrypt (key iv txt : List Nat) : List Nat := gctr key iv (ceilDiv txt.length 16) 2 txt

end Sys2Proof.Machine.Aes
end

