-- ==== Sys2Proof/Machine/Codes.lean ====
section
/-! DEFINITION. The codes of the spec's tables: mailbox status codes (R386), events and black-box fault codes. -/

namespace Sys2Proof.Machine.Code

/-- EV_TIME_LOCKED. -/
abbrev evTimeLocked : Nat := 0x0101
/-- EV_TIME_HOLDOVER. -/
abbrev evTimeHoldover : Nat := 0x0102
/-- EV_TIME_STEPPED. -/
abbrev evTimeStepped : Nat := 0x0103
/-- EV_TIME_SOURCE_CHANGED. -/
abbrev evTimeSourceChanged : Nat := 0x0104
/-- EV_TIME_PERIOD_MISMATCH. -/
abbrev evTimePeriodMismatch : Nat := 0x0105
/-- EV_TIME_TURN_MISMATCH. -/
abbrev evTimeTurnMismatch : Nat := 0x0106
/-- EV_TIME_PPS_LOST. -/
abbrev evTimePpsLost : Nat := 0x0107
/-- EV_HOST_ADMIT_REFUSED. -/
abbrev evHostAdmitRefused : Nat := 0x0201
/-- EV_HOST_KATO_EXPIRED. -/
abbrev evHostKatoExpired : Nat := 0x0202
/-- EV_HOST_TLS_FAILED. -/
abbrev evHostTlsFailed : Nat := 0x0203
/-- EV_HOST_NS_WRITE_PROTECTED. -/
abbrev evHostNsWriteProtected : Nat := 0x0204
/-- EV_HOST_LOST_READ. -/
abbrev evHostLostRead : Nat := 0x0205
/-- EV_STAGE_STARVED. -/
abbrev evStageStarved : Nat := 0x0210
/-- EV_STAGE_LATE_DATA. -/
abbrev evStageLateData : Nat := 0x0211
/-- EV_HAWK_PEER_CORRUPT. -/
abbrev evHawkPeerCorrupt : Nat := 0x0212
/-- EV_FTL_LOW_SPACE. -/
abbrev evFtlLowSpace : Nat := 0x0301
/-- EV_FTL_GROUP_SPENT. -/
abbrev evFtlGroupSpent : Nat := 0x0302
/-- EV_FTL_GROUP_UNSPENT. -/
abbrev evFtlGroupUnspent : Nat := 0x0303
/-- EV_FTL_BLOCK_RETIRED. -/
abbrev evFtlBlockRetired : Nat := 0x0304
/-- EV_FTL_BAND_RETIRED. -/
abbrev evFtlBandRetired : Nat := 0x0305
/-- EV_FTL_WEAR. -/
abbrev evFtlWear : Nat := 0x0306
/-- EV_FTL_MOUNTED. -/
abbrev evFtlMounted : Nat := 0x0307
/-- EV_FTL_EXTENT_POOL. -/
abbrev evFtlExtentPool : Nat := 0x0308
/-- EV_FTL_SWEEP_REPAIR. -/
abbrev evFtlSweepRepair : Nat := 0x0309
/-- EV_TURN_OVERRUN. -/
abbrev evTurnOverrun : Nat := 0x0401
/-- EV_TURN_MODULE_UNFIT. -/
abbrev evTurnModuleUnfit : Nat := 0x0402
/-- EV_SKIM_PASS_DONE. -/
abbrev evSkimPassDone : Nat := 0x0403
/-- EV_SKIM_BEHIND. -/
abbrev evSkimBehind : Nat := 0x0404
/-- EV_SKIM_PARITY_REPAIR. -/
abbrev evSkimParityRepair : Nat := 0x0405
/-- EV_SKIM_REFRESH. -/
abbrev evSkimRefresh : Nat := 0x0406
/-- EV_BAY_LINK_UP. -/
abbrev evBayLinkUp : Nat := 0x0501
/-- EV_BAY_LINK_DOWN. -/
abbrev evBayLinkDown : Nat := 0x0502
/-- EV_BAY_LINK_DEGRADED. -/
abbrev evBayLinkDegraded : Nat := 0x0503
/-- EV_BAY_DESCRIPTOR_BAD. -/
abbrev evBayDescriptorBad : Nat := 0x0504
/-- EV_BAY_TIMEOUT. -/
abbrev evBayTimeout : Nat := 0x0505
/-- EV_BAY_FENCED. -/
abbrev evBayFenced : Nat := 0x0506
/-- EV_BAY_MODULE_FATAL. -/
abbrev evBayModuleFatal : Nat := 0x0507
/-- EV_GROUP_STATE. -/
abbrev evGroupState : Nat := 0x0601
/-- EV_GROUP_REBUILD_START. -/
abbrev evGroupRebuildStart : Nat := 0x0602
/-- EV_GROUP_REBUILD_DONE. -/
abbrev evGroupRebuildDone : Nat := 0x0603
/-- EV_GROUP_LOST_EXTENTS. -/
abbrev evGroupLostExtents : Nat := 0x0604
/-- EV_GROUP_MIRROR_LOST. -/
abbrev evGroupMirrorLost : Nat := 0x0605
/-- EV_GROUP_MIRROR_RESTORED. -/
abbrev evGroupMirrorRestored : Nat := 0x0606
/-- EV_GROUP_JOURNAL_EXPOSED. -/
abbrev evGroupJournalExposed : Nat := 0x0607
/-- EV_GROUP_JOURNAL_LOST. -/
abbrev evGroupJournalLost : Nat := 0x0608
/-- EV_GROUP_MODULE_UNASSIGNED. -/
abbrev evGroupModuleUnassigned : Nat := 0x0609
/-- EV_GROUP_DIE_DEAD. -/
abbrev evGroupDieDead : Nat := 0x060A
/-- EV_GROUP_LIST_HIGH. -/
abbrev evGroupListHigh : Nat := 0x060B
/-- EV_NET_PORT_DOWN. -/
abbrev evNetPortDown : Nat := 0x0701
/-- EV_NET_PORT_UP. -/
abbrev evNetPortUp : Nat := 0x0702
/-- EV_NET_BUF_DROP. -/
abbrev evNetBufDrop : Nat := 0x0703
/-- EV_NET_PFC_WATCHDOG. -/
abbrev evNetPfcWatchdog : Nat := 0x0704
/-- EV_NET_GATE_OVERRUN. -/
abbrev evNetGateOverrun : Nat := 0x0705
/-- EV_NET_MIRROR_FULL. -/
abbrev evNetMirrorFull : Nat := 0x0706
/-- EV_NET_POLICE_RED. -/
abbrev evNetPoliceRed : Nat := 0x0707
/-- EV_SCRIM_ADJ_UP. -/
abbrev evScrimAdjUp : Nat := 0x0801
/-- EV_SCRIM_ADJ_DOWN. -/
abbrev evScrimAdjDown : Nat := 0x0802
/-- EV_SCRIM_ADDR_CHANGED. -/
abbrev evScrimAddrChanged : Nat := 0x0803
/-- EV_SCRIM_FAULT. -/
abbrev evScrimFault : Nat := 0x0804
/-- EV_SCRIM_LEASE_LOST. -/
abbrev evScrimLeaseLost : Nat := 0x0805
/-- EV_SCRIM_TAKEOVER. -/
abbrev evScrimTakeover : Nat := 0x0806
/-- EV_SCRIM_TAKEOVER_DENIED. -/
abbrev evScrimTakeoverDenied : Nat := 0x0807
/-- EV_SCRIM_HANDOVER. -/
abbrev evScrimHandover : Nat := 0x0808
/-- EV_SCRIM_HANDOVER_CANCELLED. -/
abbrev evScrimHandoverCancelled : Nat := 0x0809
/-- EV_SCRIM_WITNESS_UNREACHABLE. -/
abbrev evScrimWitnessUnreachable : Nat := 0x080A
/-- EV_SCRIM_PAIR_REFUSED. -/
abbrev evScrimPairRefused : Nat := 0x080B
/-- EV_SCRIM_LIMIT. -/
abbrev evScrimLimit : Nat := 0x080C
/-- EV_CIPH_ROOT_FAULT. -/
abbrev evCiphRootFault : Nat := 0x0901
/-- EV_CIPH_ENTROPY_FAIL. -/
abbrev evCiphEntropyFail : Nat := 0x0902
/-- EV_CIPH_SELFTEST_FAIL. -/
abbrev evCiphSelftestFail : Nat := 0x0903
/-- EV_CIPH_KEYX_FAILED. -/
abbrev evCiphKeyxFailed : Nat := 0x0904
/-- EV_CIPH_GEN_RETIRED. -/
abbrev evCiphGenRetired : Nat := 0x0905
/-- EV_CIPH_PSK_EXPORTED. -/
abbrev evCiphPskExported : Nat := 0x0906
/-- EV_MBX_AUTH_FAIL. -/
abbrev evMbxAuthFail : Nat := 0x0A01
/-- EV_MBX_BINDING_CHANGED. -/
abbrev evMbxBindingChanged : Nat := 0x0A02
/-- EV_MBX_JOB_DONE. -/
abbrev evMbxJobDone : Nat := 0x0A03
/-- EV_MBX_PARAM_DEFAULTS. -/
abbrev evMbxParamDefaults : Nat := 0x0A04
/-- EV_FW_STAGED. -/
abbrev evFwStaged : Nat := 0x0A05
/-- EV_FW_TRIAL_FAILED. -/
abbrev evFwTrialFailed : Nat := 0x0A06
/-- EV_EP_LINK_UP. -/
abbrev evEpLinkUp : Nat := 0x0B01
/-- EV_EP_LINK_DOWN. -/
abbrev evEpLinkDown : Nat := 0x0B02
/-- EV_EP_RESET. -/
abbrev evEpReset : Nat := 0x0B03
/-- EV_EP_WINDOW_FAULT. -/
abbrev evEpWindowFault : Nat := 0x0B04
/-- EV_BAYPWR_FAULT. -/
abbrev evBaypwrFault : Nat := 0x0C01
/-- EV_BAYPWR_LATCHED. -/
abbrev evBaypwrLatched : Nat := 0x0C02
/-- EV_BAYPWR_FET_DAMAGED. -/
abbrev evBaypwrFetDamaged : Nat := 0x0C03
/-- EV_FEED_LOST. -/
abbrev evFeedLost : Nat := 0x0C04
/-- EV_FEED_RESTORED. -/
abbrev evFeedRestored : Nat := 0x0C05
/-- EV_FEED_COLLAPSE. -/
abbrev evFeedCollapse : Nat := 0x0C06
/-- EV_MODE_CHANGED. -/
abbrev evModeChanged : Nat := 0x0D01
/-- EV_MODE_WAKE_REPLAYED. -/
abbrev evModeWakeReplayed : Nat := 0x0D02
/-- EV_MODE_RESUME_TIME. -/
abbrev evModeResumeTime : Nat := 0x0D03
/-- EV_PWR_AVS_FAULT. -/
abbrev evPwrAvsFault : Nat := 0x0D04
/-- EV_PWR_ISLAND_SOURCE. -/
abbrev evPwrIslandSource : Nat := 0x0D05
/-- EV_BBX_DROPPED. -/
abbrev evBbxDropped : Nat := 0x0E01
/-- EV_BOOT_FALLBACK. -/
abbrev evBootFallback : Nat := 0x0E02
/-- EV_WATCHDOG_RESET. -/
abbrev evWatchdogReset : Nat := 0x0E03
/-- EV_PFAIL_FLUSHED. -/
abbrev evPfailFlushed : Nat := 0x0E04
/-- FC_BREAKER. -/
abbrev fcBreaker : Nat := 0x0C11
/-- FC_SHORT_RAMP. -/
abbrev fcShortRamp : Nat := 0x0C12
/-- FC_FAST_TRIP. -/
abbrev fcFastTrip : Nat := 0x0C13
/-- FC_THERMAL. -/
abbrev fcThermal : Nat := 0x0C14
/-- FC_RAMP_TIMEOUT. -/
abbrev fcRampTimeout : Nat := 0x0C15
/-- FC_FET_DAMAGED. -/
abbrev fcFetDamaged : Nat := 0x0C16
/-- FC_RETRY_EXHAUSTED. -/
abbrev fcRetryExhausted : Nat := 0x0C17
/-- FC_DIODE_FAULT. -/
abbrev fcDiodeFault : Nat := 0x0C18
/-- FC_FEED_COLLAPSE. -/
abbrev fcFeedCollapse : Nat := 0x0C19
/-- FC_FEED_OV. -/
abbrev fcFeedOv : Nat := 0x0C1A
/-- FC_AVS_NOACK. -/
abbrev fcAvsNoack : Nat := 0x0D11
/-- FC_CONTAINED. -/
abbrev fcContained : Nat := 0x0D12
/-- FC_ISLAND_ENTRY. -/
abbrev fcIslandEntry : Nat := 0x0D13
/-- FC_RESUME_TIME. -/
abbrev fcResumeTime : Nat := 0x0D14
/-- FC_LAST_GASP. -/
abbrev fcLastGasp : Nat := 0x0E11
/-- FC_PFAIL_FLUSH. -/
abbrev fcPfailFlush : Nat := 0x0E12
/-- FC_WATCHDOG. -/
abbrev fcWatchdog : Nat := 0x0E13
/-- FC_WATCHDOG_GIVEUP. -/
abbrev fcWatchdogGiveup : Nat := 0x0E14
/-- FC_BOOT_FALLBACK. -/
abbrev fcBootFallback : Nat := 0x0E15
/-- FC_BOOT_FAIL. -/
abbrev fcBootFail : Nat := 0x0E16
/-- FC_FUSE_WRITE. -/
abbrev fcFuseWrite : Nat := 0x0E17
/-- FC_OTP_WRITE. -/
abbrev fcOtpWrite : Nat := 0x0E18
/-- FC_BBX_CLEARED. -/
abbrev fcBbxCleared : Nat := 0x0E19
/-- FC_WITNESS_VOTE. -/
abbrev fcWitnessVote : Nat := 0x0E1A
/-- FC_INTERNAL. -/
abbrev fcInternal : Nat := 0x0E1B
/-- FC_RETIRED. -/
abbrev fcRetired : Nat := 0x0E1C
/-- FC_MAIN_PG_FAIL. -/
abbrev fcMainPgFail : Nat := 0x0F11
/-- FC_MAIN_PG_LOST. -/
abbrev fcMainPgLost : Nat := 0x0F12
/-- FC_OVERTEMP. -/
abbrev fcOvertemp : Nat := 0x0F13
/-- ST_OK. -/
abbrev stOk : Nat := 0x0000
/-- ST_STARTED. -/
abbrev stStarted : Nat := 0x0001
/-- ST_BAD_FIELD. -/
abbrev stBadField : Nat := 0x0010
/-- ST_BAD_LENGTH. -/
abbrev stBadLength : Nat := 0x0011
/-- ST_BAD_OPCODE. -/
abbrev stBadOpcode : Nat := 0x0012
/-- ST_RANGE. -/
abbrev stRange : Nat := 0x0013
/-- ST_NO_PARAM. -/
abbrev stNoParam : Nat := 0x0014
/-- ST_PRIVILEGE. -/
abbrev stPrivilege : Nat := 0x0020
/-- ST_MODE. -/
abbrev stMode : Nat := 0x0021
/-- ST_BUSY. -/
abbrev stBusy : Nat := 0x0030
/-- ST_LOCKED. -/
abbrev stLocked : Nat := 0x0031
/-- ST_CONFLICT. -/
abbrev stConflict : Nat := 0x0032
/-- ST_STAGE_FULL. -/
abbrev stStageFull : Nat := 0x0033
/-- ST_NO_SPACE. -/
abbrev stNoSpace : Nat := 0x0040
/-- ST_NOT_OWNER. -/
abbrev stNotOwner : Nat := 0x0041
/-- ST_NOT_FOUND. -/
abbrev stNotFound : Nat := 0x0042
/-- ST_EXISTS. -/
abbrev stExists : Nat := 0x0043
/-- ST_PEER_UNREACHABLE. -/
abbrev stPeerUnreachable : Nat := 0x0044
/-- ST_IMAGE_BAD. -/
abbrev stImageBad : Nat := 0x0050
/-- ST_ROLLBACK. -/
abbrev stRollback : Nat := 0x0051
/-- ST_INTERNAL. -/
abbrev stInternal : Nat := 0x0060

end Sys2Proof.Machine.Code
end

