-- ==== Sys2Proof/Machine/Crc.lean ====
section
/-! DEFINITION. The cyclic redundancy checks the spec names: CRC-32 of IEEE 802.3 (R480, R503, R393), CRC-16 of
CCITT-FALSE (R497) and CRC-64 of ECMA-182 in its reflected form. They are the published functions. -/

namespace Sys2Proof.Machine

/-- `n` steps of a reflected (least significant bit first) CRC shift register. -/
def crcReflectedBits (poly : Nat) : Nat → Nat → Nat
  | 0, r => r
  | n + 1, r => crcReflectedBits poly n (if r % 2 = 1 then (r / 2) ^^^ poly else r / 2)

/-- A reflected CRC over a byte string from register value `r`. -/
def crcReflected (poly : Nat) : List Byte → Nat → Nat
  | [], r => r
  | b :: bs, r => crcReflected poly bs (crcReflectedBits poly 8 (r ^^^ b.toNat))

/-- CRC-32, IEEE 802.3 polynomial, reflected, initial and final value all ones. -/
def crc32 (bs : List Byte) : Nat := (crcReflected 0xEDB88320 bs 0xFFFFFFFF) ^^^ 0xFFFFFFFF

/-- `n` steps of a CRC-16 shift register, most significant bit first. -/
def crc16Bits : Nat → Nat → Nat
  | 0, r => r
  | n + 1, r => crc16Bits n (if r.testBit 15 then ((r * 2) % 65536) ^^^ 0x1021 else (r * 2) % 65536)

/-- CRC-16/CCITT-FALSE: polynomial 0x1021, initial value 0xFFFF, not reflected, no final inversion. -/
def crc16 (bs : List Byte) : Nat :=
  bs.foldl (fun r b => crc16Bits 8 (r ^^^ (b.toNat * 256))) 0xFFFF

/-- CRC-64 with the ECMA-182 polynomial, reflected, initial value and final XOR all ones (R237). -/
def crc64 (bs : List Byte) : Nat := (crcReflected 0xC96C5795D7870F42 bs 0xFFFFFFFFFFFFFFFF) ^^^ 0xFFFFFFFFFFFFFFFF

end Sys2Proof.Machine
end

