-- ==== Sys2Proof/Machine/ParamTable.lean ====
section
/-! DEFINITION. The parameter table: one row per parameter (or templated family of parameters) of the
parameter tables R54, R104, R139, R179, R206, R229, R272, R303, R343, R370, R399, R422, R450, R476 and R508,
in rising order of number. It is data only: Machine/Params.lean gives it its meaning. -/

namespace Sys2Proof.Machine

/-- One row of a parameter table. A templated row covers `count` numbers from `base` (R387). `type` and `cls` are coded
as R387 codes TYPE and CLASS; `defaults` lists (n, v): indexes below n (and not below an earlier n) have default v. An
enum's range is its index range (R388). -/
structure ParamRow where
  base : Nat
  count : Nat
  name : String
  type : Nat
  cls : Nat
  enums : Nat
  min : Int
  max : Int
  defaults : List (Nat × Int)
  deriving DecidableEq, Repr, Inhabited

/-- Part 0 of the parameter table. -/
def paramRows0 : List ParamRow :=
  [ ⟨0x1010, 1, "time.frame.period_us", 6, 2, 5, 0, 4, [(1, 2)]⟩,
    ⟨0x1011, 1, "time.turn.frames_per_turn", 1, 2, 0, 1, 8, [(1, 2)]⟩,
    ⟨0x1012, 1, "time.src.enable", 7, 0, 0, 8, 15, [(1, 15)]⟩,
    ⟨0x1013, 1, "time.ptp.domain", 1, 0, 0, 0, 127, [(1, 0)]⟩,
    ⟨0x1014, 1, "time.ptp.host_ports", 7, 0, 0, 0, 255, [(1, 0)]⟩,
    ⟨0x1015, 1, "time.ptp.host_transport", 6, 0, 3, 0, 2, [(1, 0)]⟩,
    ⟨0x1016, 1, "time.lock.threshold_ns", 3, 0, 0, 50, 100000, [(1, 1000)]⟩,
    ⟨0x1017, 1, "time.slew.limit_ppm", 3, 0, 0, 1000, 10000, [(1, 10000)]⟩,
    ⟨0x1018, 1, "time.src.loss_timeout_ms", 3, 0, 0, 100, 10000, [(1, 500)]⟩,
    ⟨0x1019, 1, "time.pps.in_polarity", 6, 0, 2, 0, 1, [(1, 0)]⟩,
    ⟨0x101A, 1, "time.pps.out_mode", 6, 0, 3, 0, 2, [(1, 1)]⟩,
    ⟨0x101B, 1, "time.pps.out_width_ms", 1, 0, 0, 1, 250, [(1, 100)]⟩,
    ⟨0x1100, 64, "mbx.chan.<c>.transport", 6, 2, 5, 0, 4, [(32, 1), (48, 2), (56, 3), (64, 4)]⟩,
    ⟨0x1140, 64, "mbx.chan.<c>.privilege", 6, 2, 3, 0, 2, [(1, 2), (16, 1), (32, 0), (34, 1), (48, 0), (49, 2), (56, 1), (60, 1), (64, 0)]⟩,
    ⟨0x1180, 64, "mbx.chan.<c>.peer", 4, 0, 0, 0, 18446744073709551615, [(64, 0)]⟩,
    ⟨0x11C0, 1, "mbx.mp.udp_port", 2, 2, 0, 1, 65535, [(1, 7448)]⟩,
    ⟨0x11C1, 1, "mbx.smbus.addr", 1, 2, 0, 8, 119, [(1, 44)]⟩,
    ⟨0x11C2, 1, "mbx.smbus.iana", 3, 0, 0, 0, 4294967295, [(1, 0)]⟩,
    ⟨0x11D0, 1, "fw.trial.confirm_s", 3, 0, 0, 60, 86400, [(1, 1800)]⟩,
    ⟨0x11D1, 1, "fw.session.idle_s", 2, 0, 0, 10, 3600, [(1, 300)]⟩,
    ⟨0x1200, 1, "ep.bar4.size_mib", 6, 0, 6, 0, 5, [(1, 2)]⟩,
    ⟨0x1201, 1, "ep.window.write_enable", 0, 0, 0, 0, 1, [(1, 0)]⟩,
    ⟨0x1202, 1, "ep.pme.event_groups", 7, 0, 0, 0, 65535, [(1, 0)]⟩,
    ⟨0x2001, 1, "host.assoc.max_io_queues", 2, 0, 0, 1, 1024, [(1, 64)]⟩ ]

/-- Part 1 of the parameter table. -/
def paramRows1 : List ParamRow :=
  [ ⟨0x2002, 1, "host.queue.max_entries", 2, 0, 0, 32, 1024, [(1, 1024)]⟩,
    ⟨0x2003, 1, "host.cmd.admit_limit", 3, 0, 0, 65536, 131072, [(1, 131072)]⟩,
    ⟨0x2004, 1, "host.session.read_deadline_us", 2, 0, 0, 20, 10000, [(1, 70)]⟩,
    ⟨0x2005, 1, "host.session.read_around", 0, 0, 0, 0, 1, [(1, 1)]⟩,
    ⟨0x2006, 1, "host.gather.max_bytes", 3, 0, 0, 1048576, 67108864, [(1, 16777216)]⟩,
    ⟨0x2007, 1, "host.paced.lookahead_kib", 3, 0, 0, 256, 8192, [(1, 1024)]⟩,
    ⟨0x2008, 1, "host.paced.max_ms", 3, 0, 0, 100, 600000, [(1, 60000)]⟩,
    ⟨0x2009, 1, "host.tcp.tls_required", 0, 0, 0, 0, 1, [(1, 1)]⟩,
    ⟨0x200A, 1, "host.tcp.port", 2, 2, 0, 1, 65535, [(1, 4420)]⟩,
    ⟨0x200B, 1, "host.discovery.port", 2, 2, 0, 1, 65535, [(1, 8009)]⟩,
    ⟨0x200C, 1, "host.rdma.service_id", 2, 2, 0, 1, 65535, [(1, 4420)]⟩,
    ⟨0x200D, 1, "host.zone.max_active_per_ns", 2, 0, 0, 1, 4096, [(1, 4096)]⟩,
    ⟨0x200E, 1, "host.zone.max_open_per_ns", 2, 0, 0, 1, 4096, [(1, 4096)]⟩,
    ⟨0x2100, 1, "stage.quota.background_pct", 1, 0, 0, 1, 50, [(1, 10)]⟩,
    ⟨0x2101, 1, "stage.quota.held_pct", 1, 0, 0, 5, 60, [(1, 25)]⟩,
    ⟨0x2102, 1, "stage.gather.window_units", 2, 0, 0, 16, 512, [(1, 128)]⟩,
    ⟨0x2103, 1, "stage.revoke.quarantine_ms", 2, 0, 0, 1, 100, [(1, 10)]⟩,
    ⟨0x2110, 1, "hawk.size.max_mib", 1, 0, 0, 0, 48, [(1, 48)]⟩,
    ⟨0x2111, 1, "hawk.admit.threshold", 1, 0, 0, 1, 15, [(1, 4)]⟩,
    ⟨0x2112, 1, "hawk.admit.decay_frames", 3, 0, 0, 1, 1000000, [(1, 1000)]⟩,
    ⟨0x2113, 1, "hawk.evict.candidates", 1, 0, 0, 4, 32, [(1, 16)]⟩,
    ⟨0x2114, 1, "hawk.evict.hit_cap", 1, 0, 0, 1, 255, [(1, 15)]⟩,
    ⟨0x2120, 1, "hawk.peer.enable", 0, 0, 0, 0, 1, [(1, 0)]⟩,
    ⟨0x2121, 1, "hawk.peer.hold_us", 2, 0, 0, 0, 50, [(1, 10)]⟩ ]

/-- Part 2 of the parameter table. -/
def paramRows2 : List ParamRow :=
  [ ⟨0x2122, 1, "hawk.peer.max_outstanding", 2, 0, 0, 64, 4096, [(1, 1024)]⟩,
    ⟨0x3001, 1, "ftl.spare.blocks_per_die", 2, 3, 0, 16, 512, [(1, 64)]⟩,
    ⟨0x3002, 1, "ftl.spare.reserve", 1, 0, 0, 1, 8, [(1, 2)]⟩,
    ⟨0x3003, 1, "ftl.band.free_floor", 2, 0, 0, 2, 64, [(1, 4)]⟩,
    ⟨0x3004, 1, "ftl.band.free_hyst", 2, 0, 0, 1, 64, [(1, 4)]⟩,
    ⟨0x3005, 1, "ftl.gc.start_free", 2, 0, 0, 8, 1024, [(1, 32)]⟩,
    ⟨0x3006, 1, "ftl.gc.urgent_free", 2, 0, 0, 4, 512, [(1, 12)]⟩,
    ⟨0x3007, 1, "ftl.gc.age_cap_frames", 3, 0, 0, 1000, 1000000000, [(1, 86400000)]⟩,
    ⟨0x3008, 1, "ftl.gc.spent_valid_pct", 1, 0, 0, 90, 99, [(1, 97)]⟩,
    ⟨0x3009, 1, "ftl.op.pct", 1, 0, 0, 3, 50, [(1, 7)]⟩,
    ⟨0x300A, 1, "ftl.wear.spread_max", 2, 0, 0, 50, 1000, [(1, 200)]⟩,
    ⟨0x300B, 1, "ftl.zone.extent_pool_mib", 3, 2, 0, 256, 16384, [(1, 4096)]⟩,
    ⟨0x300C, 1, "ftl.zone.compact_extents", 2, 0, 0, 2, 4096, [(1, 64)]⟩,
    ⟨0x300D, 1, "ftl.class.default_conv", 1, 0, 0, 0, 7, [(1, 3)]⟩,
    ⟨0x300E, 1, "ftl.class.default_zoned", 1, 0, 0, 0, 7, [(1, 5)]⟩,
    ⟨0x300F, 1, "ftl.class.infer_base_turns", 3, 0, 0, 16, 1000000, [(1, 512)]⟩,
    ⟨0x3010, 1, "ftl.checkpoint.interval_s", 2, 0, 0, 10, 3600, [(1, 300)]⟩,
    ⟨0x4001, 1, "turn.guard_us", 2, 1, 0, 20, 1000, [(1, 50)]⟩,
    ⟨0x4002, 1, "turn.readaround.cap_pct", 1, 1, 0, 0, 50, [(1, 20)]⟩,
    ⟨0x4003, 1, "turn.reads_between_ops", 1, 1, 0, 1, 64, [(1, 8)]⟩,
    ⟨0x4004, 1, "turn.suspend.enable", 0, 1, 0, 0, 1, [(1, 1)]⟩,
    ⟨0x4005, 1, "turn.suspend.program_max", 1, 1, 0, 0, 4, [(1, 1)]⟩,
    ⟨0x4006, 1, "turn.suspend.erase_max", 1, 1, 0, 0, 32, [(1, 8)]⟩,
    ⟨0x4010, 1, "skim.enable", 0, 0, 0, 0, 1, [(1, 1)]⟩ ]

/-- Part 3 of the parameter table. -/
def paramRows3 : List ParamRow :=
  [ ⟨0x4011, 1, "skim.period_h", 2, 0, 0, 24, 2160, [(1, 168)]⟩,
    ⟨0x4012, 1, "skim.refresh.pct", 1, 0, 0, 30, 95, [(1, 60)]⟩,
    ⟨0x4013, 1, "skim.disturb.reads", 3, 0, 0, 10000, 10000000, [(1, 100000)]⟩,
    ⟨0x5101, 1, "parity.spare.delay_s", 3, 0, 0, 0, 86400, [(1, 300)]⟩,
    ⟨0x5102, 1, "parity.return.window_s", 3, 0, 0, 0, 86400, [(1, 3600)]⟩,
    ⟨0x5103, 1, "parity.rebuild.auto_replace", 0, 0, 0, 0, 1, [(1, 1)]⟩,
    ⟨0x5104, 1, "parity.rebuild.floor_pct", 1, 1, 0, 1, 50, [(1, 5)]⟩,
    ⟨0x5105, 1, "parity.rebuild.bands_active", 1, 0, 0, 1, 16, [(1, 4)]⟩,
    ⟨0x5106, 1, "parity.die.dead_max", 1, 0, 0, 1, 64, [(1, 8)]⟩,
    ⟨0x5110, 1, "parity.mirror.retry_us", 2, 0, 0, 10, 1000, [(1, 50)]⟩,
    ⟨0x5111, 1, "parity.mirror.fail_ms", 2, 0, 0, 5, 1000, [(1, 50)]⟩,
    ⟨0x5112, 1, "parity.mirror.resync_mbps", 3, 0, 0, 1000, 200000, [(1, 25000)]⟩,
    ⟨0x5113, 1, "parity.journal.wait_s", 2, 0, 0, 0, 3600, [(1, 120)]⟩,
    ⟨0x6000, 12, "net.port.<p>.mode", 6, 2, 3, 0, 2, [(12, 0)]⟩,
    ⟨0x6010, 12, "net.port.<p>.media", 6, 2, 3, 0, 2, [(12, 0)]⟩,
    ⟨0x6020, 12, "net.port.<p>.ct_mask", 7, 0, 0, 0, 255, [(12, 255)]⟩,
    ⟨0x6030, 12, "net.port.<p>.pfc_mask", 7, 2, 0, 0, 63, [(12, 0)]⟩,
    ⟨0x6040, 12, "net.port.<p>.mirror_rx", 1, 0, 0, 0, 17, [(12, 0)]⟩,
    ⟨0x6050, 12, "net.port.<p>.mirror_tx", 1, 0, 0, 0, 17, [(12, 0)]⟩,
    ⟨0x6060, 8, "net.buf.alpha_exp.<c>", 5, 0, 0, (-6), 3, [(6, 0), (7, 1), (8, (-2))]⟩,
    ⟨0x6068, 8, "net.sched.class_weight.<c>", 1, 1, 0, 1, 255, [(6, 16), (7, 32), (8, 64)]⟩,
    ⟨0x6070, 1, "net.buf.min_cells", 2, 2, 0, 8, 1024, [(1, 32)]⟩,
    ⟨0x6071, 1, "net.pfc.headroom_cells", 2, 2, 0, 400, 8000, [(1, 1600)]⟩,
    ⟨0x6072, 1, "net.pfc.watchdog_ms", 2, 0, 0, 10, 10000, [(1, 200)]⟩ ]

/-- Part 4 of the parameter table. -/
def paramRows4 : List ParamRow :=
  [ ⟨0x6073, 1, "net.ecn.kmin_cells", 3, 0, 0, 64, 65536, [(1, 1600)]⟩,
    ⟨0x6074, 1, "net.ecn.kmax_cells", 3, 0, 0, 128, 131072, [(1, 6400)]⟩,
    ⟨0x6075, 1, "net.ecn.pmax_pct", 1, 0, 0, 1, 100, [(1, 10)]⟩,
    ⟨0x6076, 1, "net.cnp.cut_pct", 1, 0, 0, 1, 90, [(1, 50)]⟩,
    ⟨0x6077, 1, "net.cnp.recover_us", 2, 0, 0, 10, 10000, [(1, 55)]⟩,
    ⟨0x6078, 1, "net.cnp.step_mbps", 3, 0, 0, 100, 100000, [(1, 5000)]⟩,
    ⟨0x6079, 1, "net.link.down_debounce_us", 2, 0, 0, 0, 10000, [(1, 50)]⟩,
    ⟨0x607A, 1, "net.link.hold_down_ms", 2, 0, 0, 0, 60000, [(1, 1000)]⟩,
    ⟨0x607B, 1, "net.police.unassoc_mbps", 3, 0, 0, 10, 10000, [(1, 1000)]⟩,
    ⟨0x607C, 1, "net.police.yellow_free_pct", 1, 0, 0, 0, 90, [(1, 25)]⟩,
    ⟨0x607D, 1, "net.sched.session_weight", 1, 0, 0, 1, 255, [(1, 16)]⟩,
    ⟨0x607E, 1, "net.mirror.ring_records", 2, 2, 0, 1024, 16384, [(1, 4096)]⟩,
    ⟨0x607F, 1, "net.mirror.full_mode", 6, 0, 2, 0, 1, [(1, 0)]⟩,
    ⟨0x6100, 192, "net.gate.<p>.w<k>", 3, 1, 0, 0, 4294967295, [(192, 4294967295)]⟩,
    ⟨0x7001, 1, "scrim.hello_us", 2, 0, 0, 250, 10000, [(1, 1000)]⟩,
    ⟨0x7002, 1, "scrim.hello.dead_count", 1, 0, 0, 3, 32, [(1, 8)]⟩,
    ⟨0x7003, 1, "scrim.lsa.refresh_s", 2, 0, 0, 10, 600, [(1, 30)]⟩,
    ⟨0x7004, 1, "scrim.spf.holdoff_ms", 2, 0, 0, 1, 1000, [(1, 5)]⟩,
    ⟨0x7005, 1, "scrim.ecmp.ways", 1, 0, 0, 1, 4, [(1, 4)]⟩,
    ⟨0x7006, 1, "scrim.witness.udp_port", 2, 2, 0, 1, 65535, [(1, 7447)]⟩,
    ⟨0x7010, 1, "scrim.fault.window_ms", 2, 0, 0, 10, 10000, [(1, 100)]⟩,
    ⟨0x7011, 1, "scrim.fault.repeat_s", 2, 0, 0, 1, 3600, [(1, 60)]⟩,
    ⟨0x7020, 1, "scrim.lease.frames", 2, 1, 0, 8, 1024, [(1, 32)]⟩,
    ⟨0x7021, 1, "scrim.lease.renew_frames", 1, 1, 0, 1, 64, [(1, 4)]⟩ ]

/-- Part 5 of the parameter table. -/
def paramRows5 : List ParamRow :=
  [ ⟨0x7022, 1, "scrim.lease.guard_frames", 1, 1, 0, 1, 255, [(1, 4)]⟩,
    ⟨0x7023, 1, "scrim.failback.enable", 0, 0, 0, 0, 1, [(1, 1)]⟩,
    ⟨0x7024, 1, "scrim.failback.holdoff_s", 3, 0, 0, 0, 86400, [(1, 600)]⟩,
    ⟨0x7025, 1, "scrim.swap.interval_h", 2, 0, 0, 0, 720, [(1, 24)]⟩,
    ⟨0x7026, 1, "scrim.swap.offset_min", 2, 0, 0, 0, 1439, [(1, 120)]⟩,
    ⟨0x8001, 1, "cipher.sca.dummy_max", 1, 3, 0, 0, 3, [(1, 3)]⟩,
    ⟨0x8002, 1, "cipher.sca.shuffle", 0, 3, 0, 0, 1, [(1, 1)]⟩,
    ⟨0x8003, 1, "cipher.q0.cap_pct", 1, 1, 0, 1, 30, [(1, 10)]⟩,
    ⟨0x8004, 1, "cipher.weight.q1", 1, 1, 0, 1, 64, [(1, 8)]⟩,
    ⟨0x8005, 1, "cipher.weight.q2", 1, 1, 0, 1, 64, [(1, 4)]⟩,
    ⟨0x8006, 1, "cipher.weight.q3", 1, 1, 0, 1, 64, [(1, 1)]⟩,
    ⟨0x8007, 1, "cipher.psk.export_enable", 0, 0, 0, 0, 1, [(1, 0)]⟩,
    ⟨0x8008, 1, "cipher.scrim.rekey_s", 3, 0, 0, 60, 86400, [(1, 3600)]⟩,
    ⟨0x8009, 1, "cipher.fabric.gen", 3, 0, 0, 1, 4294967295, [(1, 1)]⟩,
    ⟨0x9001, 1, "baypwr.autostart", 0, 0, 0, 0, 1, [(1, 1)]⟩,
    ⟨0x9002, 1, "baypwr.breaker_ma", 2, 0, 0, 1000, 10000, [(1, 5000)]⟩,
    ⟨0x9003, 1, "baypwr.limit_ma", 2, 0, 0, 1500, 20000, [(1, 8000)]⟩,
    ⟨0x9004, 1, "baypwr.fasttrip_ma", 2, 0, 0, 5000, 30000, [(1, 15000)]⟩,
    ⟨0x9005, 1, "baypwr.fault_us", 3, 0, 0, 100, 50000, [(1, 10000)]⟩,
    ⟨0x9006, 1, "baypwr.ramp_mv_per_ms", 2, 0, 0, 100, 5000, [(1, 1000)]⟩,
    ⟨0x9007, 1, "baypwr.pg_mv", 2, 0, 0, 9000, 12000, [(1, 10800)]⟩,
    ⟨0x9008, 1, "baypwr.retry.max", 1, 0, 0, 0, 7, [(1, 7)]⟩,
    ⟨0x9009, 1, "baypwr.retry.reset_s", 2, 0, 0, 10, 3600, [(1, 60)]⟩,
    ⟨0x900A, 1, "baypwr.unseat_ms", 2, 0, 0, 1, 100, [(1, 5)]⟩ ]

/-- Part 6 of the parameter table. -/
def paramRows6 : List ParamRow :=
  [ ⟨0x900B, 1, "baypwr.therm.trip_c", 1, 0, 0, 100, 175, [(1, 150)]⟩,
    ⟨0x9010, 1, "baypwr.shunt_uohm", 2, 3, 0, 500, 10000, [(1, 2000)]⟩,
    ⟨0x9011, 1, "baypwr.therm.diode", 0, 3, 0, 0, 1, [(1, 0)]⟩,
    ⟨0x9012, 1, "baypwr.therm.rth1", 2, 3, 0, 10, 10000, [(1, 500)]⟩,
    ⟨0x9013, 1, "baypwr.therm.tau1", 3, 3, 0, 1000, 100000, [(1, 1000)]⟩,
    ⟨0x9014, 1, "baypwr.therm.rth2", 2, 3, 0, 10, 10000, [(1, 1500)]⟩,
    ⟨0x9015, 1, "baypwr.therm.tau2", 3, 3, 0, 10, 10000, [(1, 100)]⟩,
    ⟨0x9016, 1, "baypwr.therm.board_offset_c", 5, 3, 0, (-20), 40, [(1, 10)]⟩,
    ⟨0x9020, 1, "feed.collapse_mv", 2, 0, 0, 9000, 11500, [(1, 10500)]⟩,
    ⟨0x9021, 1, "feed.uv_mv", 2, 0, 0, 8000, 11000, [(1, 10000)]⟩,
    ⟨0x9022, 1, "feed.ov_mv", 2, 0, 0, 13000, 15000, [(1, 14000)]⟩,
    ⟨0x9100, 1, "baylnk.timeout.slack_us", 2, 0, 0, 100, 10000, [(1, 500)]⟩,
    ⟨0x9101, 1, "baylnk.abort.enable", 0, 0, 0, 0, 1, [(1, 1)]⟩,
    ⟨0x9102, 1, "baylnk.cq.head_batch", 2, 0, 0, 1, 1024, [(1, 64)]⟩,
    ⟨0x9103, 1, "baylnk.link.accept_degraded", 0, 0, 0, 0, 1, [(1, 1)]⟩,
    ⟨0x9104, 1, "baylnk.perst.delay_ms", 2, 0, 0, 100, 1000, [(1, 100)]⟩,
    ⟨0x9200, 1, "pwr.service.auto", 0, 0, 0, 0, 1, [(1, 1)]⟩,
    ⟨0x9201, 1, "pwr.wake.enable", 7, 0, 0, 0, 255, [(1, 176)]⟩,
    ⟨0x9202, 1, "pwr.wake.polarity", 7, 0, 0, 0, 15, [(1, 15)]⟩,
    ⟨0x9203, 1, "pwr.wake.level", 7, 0, 0, 0, 15, [(1, 0)]⟩,
    ⟨0x9204, 1, "pwr.wake.debounce_ms", 2, 0, 0, 1, 1000, [(1, 10)]⟩,
    ⟨0x9205, 1, "pwr.avs.timeout_us", 2, 0, 0, 10, 1000, [(1, 100)]⟩,
    ⟨0x9206, 1, "pwr.avs.retries", 1, 0, 0, 1, 8, [(1, 3)]⟩,
    ⟨0x9207, 1, "pwr.avs.settle_us", 2, 0, 0, 10, 1000, [(1, 50)]⟩ ]

/-- Part 7 of the parameter table. -/
def paramRows7 : List ParamRow :=
  [ ⟨0xA001, 1, "bbx.watchdog.timeout_ms", 2, 0, 0, 500, 60000, [(1, 2000)]⟩,
    ⟨0xA002, 1, "bbx.watchdog.giveup_count", 1, 0, 0, 2, 16, [(1, 4)]⟩ ]

/-- The whole parameter table. -/
def paramRows : List ParamRow :=
  paramRows0 ++ paramRows1 ++ paramRows2 ++ paramRows3 ++ paramRows4 ++ paramRows5 ++ paramRows6 ++ paramRows7

end Sys2Proof.Machine
end

