-- ==== Sys2Proof/Machine/FlashParts.lean ====
section
/-! DEFINITION. State of the bay links, the flash-operation contexts, the dies, write staging, the staging buffers and
Hawk (04, 06, 07). Every field's default is its value at reset, and its docstring names the rule that gives it. -/

namespace Sys2Proof.Machine

/-! ### Bays (07) -/

/-- What the controller keeps of an accepted module descriptor (R211). -/
structure Descriptor where
  moduleId : Nat := 0
  dies : Nat := 0
  positions : Nat := 0
  blocks : Nat := 0
  eccCap : Nat := 0
  ratedPe : Nat := 0
  tProgTyp : Nat := 0
  tProgMax : Nat := 0
  tEraseTyp : Nat := 0
  tEraseMax : Nat := 0
  tSenseTyp : Nat := 0
  tSense999 : Nat := 0
  tReadMax : Nat := 0
  tSuspProg : Nat := 0
  tSuspErase : Nat := 0
  flags : Nat := 0
  eraseHoldMs : Nat := 0
  deriving DecidableEq, Repr, Inhabited

/-- BAYLNK_STATUS.STATE. -/
inductive LinkSt where
  | off | training | descriptor | ready
  deriving DecidableEq, Repr, Inhabited

/-- A bay link (R209 to R231). -/
structure Bay where
  /-- BAYLNK_STATUS.UP (reset 0), SPEED (reset 0), WIDTH (reset 0). PRESENT is the power die's short pin. -/
  up : Bool := false
  speed : Nat := 0
  width : Nat := 0
  /-- BAYLNK_STATUS.STATE (reset OFF). -/
  st : LinkSt := .off
  /-- BAYLNK_STATUS.FENCED (R226; reset 0). -/
  fenced : Bool := false
  /-- BAYLNK_STATUS.DEGRADED (R209; reset 0). -/
  degraded : Bool := false
  /-- BAYLNK_CTRL.HOLD (reset 0). -/
  hold : Bool := false
  /-- BAYLNK_EPOCH, 32 bits (reset 0), and MOD_EPOCH as the port answered it when it became ready, or the module reported it since (R213,
  R226; reset 0). -/
  epoch : Nat := 0
  modEpoch : Nat := 0
  /-- BAYLNK_EVT, 5 bits (reset 0). -/
  evt : Nat := 0
  /-- BAYLNK_MODID, 64 bits (reset 0). -/
  modId : Nat := 0
  /-- The accepted descriptor (R210; reset none). -/
  desc : Option Descriptor := none
  /-- BAYn_PERST_N is asserted (R210, R518; reset asserted). -/
  perst : Bool := true
  /-- Training attempts that failed, and bring-up given up until presence changes or RETRAIN (R210; reset 0). -/
  attempts : Nat := 0
  stopped : Bool := false
  /-- Completion entries consumed since MOD_CQ_HEAD was last written (R219; reset 0). -/
  consumed : Nat := 0
  /-- Indices of the rings: MOD_SQ_TAIL and MOD_CQ_HEAD (R213; reset 0). -/
  sqTail : Nat := 0
  cqHead : Nat := 0
  /-- The P that the next entry of the completion ring has (R213, R218; reset 1, log 130). -/
  phase : Bool := true
  /-- Operations in a row that timed out (R223; reset 0), and clock cycles of INVALID completions within the last
  second (R220; reset none). -/
  timeoutsRow : Nat := 0
  invalidAt : List Nat := []
  /-- Counters of R229 and turn.overruns (R207), 64 bits (reset 0). -/
  lateCpl : Nat := 0
  timeouts : Nat := 0
  aborts : Nat := 0
  invalid : Nat := 0
  badRead : Nat := 0
  badWrite : Nat := 0
  fencedCnt : Nat := 0
  overruns : Nat := 0
  /-- Read-around credits left in this frame (R196; reset 0). -/
  credits : Nat := 0
  /-- Clock cycles at which EV_BAY_TIMEOUT and EV_TURN_OVERRUN were last raised (R223, R208; reset none). -/
  timeoutTold : Option Nat := none
  overrunTold : Option Nat := none
  /-- The second of the late-data window, TLPs counted in it, and whether EV_STAGE_LATE_DATA was raised in it (R141). -/
  lateWin : Nat := 0
  lateCnt : Nat := 0
  lateTold : Bool := false
  /-- Group that a designated spare bay serves as (R259; reset false). -/
  spare : Bool := false
  deriving DecidableEq, Repr, Inhabited

/-! ### Flash operations (04, 07) -/

/-- A place on flash: group, band, stripe, member, unit position within the chunk (R144, R233). -/
structure Place where
  g : Nat := 0
  band : Nat := 0
  q : Nat := 0
  member : Nat := 0
  u : Nat := 0
  deriving DecidableEq, Repr, Inhabited

/-- Why a block is erased, beside a band's erase pass (R160, R163, R250, R261). -/
inductive EraseFor where
  | band (band : Nat) | fresh (band : Nat) | area (band : Nat) | parityArea (band : Nat) | subst (band : Nat) | set (second : Bool)
  | rebuild (band : Nat) | anchor | image
  deriving DecidableEq, Repr, Inhabited

/-- What an operation is for. -/
inductive OpFor where
  /-- A READ into a staging block, as the whole unit or as a contribution to its reconstruction. -/
  | landing (blk : Nat)
  /-- PROGRAM or VERIFY of a member's chunk of a stripe. -/
  | chunk (g band q member : Nat)
  /-- PROGRAM or VERIFY of a die-parity chunk (R160). -/
  | dieParity (g band member row : Nat)
  /-- VERIFY of the close sweep (R161). -/
  | sweep (g band q member : Nat)
  /-- VERIFY of a chunk at a mount, in search of the last row that is programmed (R171 step 6). -/
  | scan (g band member row : Nat)
  /-- PROGRAM or VERIFY of a rebuilt chunk (R261). -/
  | rebuilt (g band q member : Nat)
  /-- An anchor record of a member (R170). -/
  | anchor (g member : Nat)
  /-- A page of a journal image (R252). -/
  | image (g member : Nat)
  /-- ERASE of a member's block on a die. -/
  | erase (g member : Nat) (why : EraseFor)
  /-- SUSPEND, for a read or at the end of a write turn (R185). -/
  | suspend (turnEnd : Bool)
  /-- RESUME or DIE_STATUS. -/
  | control
  /-- EPOCH_SET to a new epoch. -/
  | epochSet (epoch : Nat)
  /-- ABORT of a target: its tag and GEN. -/
  | abort (tag gen : Nat)
  deriving DecidableEq, Repr, Inhabited

/-- STATE of an operation context (R221). A free tag has none. -/
inductive OpSt where
  | queued | outstanding | quarantine
  deriving DecidableEq, Repr, Inhabited

/-- A flash-operation context with its landing slot (R116, R221). -/
structure FlashOp where
  tag : Nat := 0
  /-- GEN of the allocation, 6 bits. -/
  gen : Nat := 0
  st : OpSt := .queued
  bay : Nat := 0
  die : Nat := 0
  opc : Nat := 0
  /-- QCLASS (R191). -/
  qcls : Nat := 0
  block : Nat := 0
  page : Nat := 0
  /-- The four source indices S of a PROGRAM (R217). -/
  src : List Nat := []
  noRetry : Bool := false
  abortSent : Bool := false
  suspended : Bool := false
  /-- STAMP: local µs at dispatch, advanced by suspended time. -/
  stamp : Nat := 0
  /-- Landing slot: V, MODE, CLASS, BUF, BYTES, TAGGED, ERR (R116). -/
  live : Bool := false
  xor : Bool := false
  cls : Nat := 0
  buf : Nat := 0
  bytes : Nat := 0
  tagged : Bool := false
  err : Bool := false
  /-- Its command has gone, or its reconstruction has failed: the completion is taken and discarded (R121, R122). -/
  dropped : Bool := false
  /-- A PROGRAM has been tried once more after SOURCE_FAULT (R220). -/
  retried : Bool := false
  use : OpFor := .control
  deriving DecidableEq, Repr, Inhabited

/-- A die that is not idle (R183, R194). -/
structure Die where
  bay : Nat := 0
  die : Nat := 0
  /-- The program or erase in progress or suspended: its tag. -/
  op : Option Nat := none
  erase : Bool := false
  /-- µs of the dispatch, time spent suspended, and when a suspension began. -/
  start : Nat := 0
  suspTotal : Nat := 0
  suspAt : Option Nat := none
  /-- Suspends of this program or erase so far (R197). -/
  suspends : Nat := 0
  /-- The program that a flush has suspended beneath image programs: its tag (R491). -/
  below : Option Nat := none
  /-- An erase is held suspended across turns (R200). -/
  held : Bool := false
  /-- Busy with an unknown remaining time (R188, R223). -/
  unknown : Bool := false
  /-- The read or verify in progress: its tag. -/
  reading : Option Nat := none
  /-- Reads dispatched since the turn began or the last program or erase segment ended (R193, R197). -/
  reads : Nat := 0
  /-- End of the erase segment in progress in fabric ns: the end of its turn less the effective guard (R185, R194). -/
  segEnd : Nat := 0
  /-- A DIE_STATUS is on its way: the die may run an operation that this controller does not know (R188). -/
  asked : Bool := false
  /-- Counted as an overrun (R186). -/
  overrun : Bool := false
  deriving DecidableEq, Repr, Inhabited

/-! ### Write staging (05, 08) -/

/-- A DRAM write-staging slot in use (R145, R217). -/
structure WSlot where
  slot : Nat := 0
  unit : Unit16 := {}
  /-- Awaits its program and verify (R28). -/
  dirty : Bool := true
  /-- The GUA that a host unit's data has been placed at; none for parity and die parity. -/
  g : Nat := 0
  gua : Option Nat := none
  nsx : Nat := 0
  unitNo : Nat := 0
  /-- Metadata of stream 9. -/
  metadata : Bool := false
  /-- The write command that staged it (R79; 0 for none). -/
  cmd : Nat := 0
  deriving DecidableEq, Repr, Inhabited

/-! ### Staging buffers and Hawk (04) -/

/-- Buffer state, in the order of the codes of R111 (FREE has no entry). -/
inductive BufSt where
  | free | bound | landed | held | check | drain | orphan
  deriving DecidableEq, Repr, Inhabited

/-- What a staging buffer serves. -/
inductive BufFor where
  /-- Unit `i` of a command's transfer, and the read half of a read-modify-write. -/
  | host (cmd i : Nat)
  | rmw (cmd i : Nat)
  /-- A relocation copy from the old to the new GUA. -/
  | reloc (g old new : Nat)
  /-- Unit `u` of a rebuilt chunk. -/
  | rebuild (g band q u : Nat)
  /-- Patrol: the comparison of data, the parity unit, or one unit for its tag. -/
  | skimData (g band q u : Nat)
  | skimParity (g band q u : Nat)
  | skimTag (g band q member u : Nat)
  /-- A unit read at a mount (R249). -/
  | replay (g gua : Nat)
  deriving DecidableEq, Repr, Inhabited

/-- How a unit is read first: from its place under R195, by reconstruction of its stripe, or from its die's parity (R112, R161,
R205). -/
inductive ReadHow where
  | place | stripe | die
  deriving DecidableEq, Repr, Inhabited

/-- A staging buffer (R110 to R115). -/
structure Buf where
  blk : Nat := 0
  st : BufSt := .bound
  cls : Nat := 0
  xorExp : Nat := 0
  xorGot : Nat := 0
  xorFail : Bool := false
  plain : Bool := false
  tagOk : Bool := false
  unit : Unit16 := {}
  use : BufFor := .host 0 0
  /-- Where the unit lies, and the namespace index and unit number its tag must name (R237). -/
  place : Place := {}
  nsx : Nat := 0
  unitNo : Nat := 0
  /-- What the block is cleared to before contributions land (R115, R234). -/
  clear : Unit16 := {}
  /-- How it is being read. -/
  how : ReadHow := .place
  /-- The unit has been rescued once (R112). -/
  rescued : Bool := false
  /-- Fragments of a peer response that have matched, by FRAG (R136), and the bytes of data and tag, as runs [first, end), that a module
  has not fetched yet from a RELOC or REBUILD buffer (R114). -/
  frags : List Nat := []
  unfetched : List (Nat × Nat) := [(0, 16400)]
  /-- The member whose contribution failed (R265). -/
  bad : Option Nat := none
  /-- Clock cycle of the peer request, until its hold has passed (R134). -/
  peerTag : Option Nat := none
  /-- The peer that was asked (R318; the model's own). -/
  peerSrc : Nat := 0
  /-- A slot of the buffer has been revoked and its accepted TLPs still drain (R121). -/
  draining : Bool := false
  deriving DecidableEq, Repr, Inhabited

/-- A request that waits for a staging buffer (R108). -/
structure StageReq where
  cls : Nat := 0
  use : BufFor := .host 0 0
  place : Place := {}
  nsx : Nat := 0
  unitNo : Nat := 0
  how : ReadHow := .place
  /-- A PEER request: the source's address and NSID (R133, R134). -/
  peer : Option (Nat × Nat) := none
  /-- Fabric time in ns at which the wait began. -/
  since : Nat := 0
  told : Bool := false
  deriving DecidableEq, Repr, Inhabited

/-- A Hawk entry (R124, R129, R130). -/
structure HawkEntry where
  blk : Nat := 0
  nsx : Nat := 0
  unitNo : Nat := 0
  data : Nat := 0
  /-- Frame count of the last hit or install, and the 8-bit hit count. -/
  frame : Nat := 0
  hits : Nat := 0
  pins : Nat := 0
  /-- Pins among them that responses to peers hold (R137). -/
  peerPins : Nat := 0
  /-- Removed from the index while pinned (R130). -/
  removed : Bool := false
  deriving DecidableEq, Repr, Inhabited

/-- The request queue of the cipher engine that a buffer's tag check enters: Q1 for host reads, Q2 for RMW, Q3 for Skim and the rest
(R363). -/
def BufFor.cipherQ : BufFor → Nat
  | .host _ _ => 1
  | .rmw _ _ => 2
  | _ => 3

/-- A peer read that failed its CRC (R138): the peer and the clock cycle. -/
structure PeerBad where
  addr : Nat := 0
  at_ : Nat := 0
  deriving DecidableEq, Repr, Inhabited

/-- Counters of the staging and Hawk controller, 64 bits (04). -/
structure StageCtrs where
  lateData : Nat := 0
  malformed : Nat := 0
  lateAbort : Nat := 0
  xorRescue : Nat := 0
  tagFail : Nat := 0
  waitHost : Nat := 0
  orphans : Nat := 0
  peerSent : Nat := 0
  peerHit : Nat := 0
  peerLate : Nat := 0
  peerBad : Nat := 0
  hits : Nat := 0
  misses : Nat := 0
  installs : Nat := 0
  skipped : Nat := 0
  evictions : Nat := 0
  deriving DecidableEq, Repr, Inhabited

/-- Flash side of the data die (04, 06, 07). -/
structure FlashState where
  /-- The 24 bays (R230; reset each at its registers' reset values). -/
  bays : List Bay := List.replicate 24 {}
  /-- Contexts in use, oldest first (R116, R221; reset none). -/
  ops : List FlashOp := []
  /-- GEN last used per tag, for tags used before (R116; reset 0, log 7). -/
  gens : List (Nat × Nat) := []
  /-- Dies that are not idle (R183; reset none). -/
  dies : List Die := []
  /-- Write-staging slots in use (R145; reset none). -/
  slots : List WSlot := []
  /-- Staging buffers (R107; reset none), and requests that wait (R108; reset none). -/
  bufs : List Buf := []
  waits : List StageReq := []
  /-- Hawk entries, in the order of their installs (R124; reset none), and the block at which the clock hand stands (R129; reset 0, log
7). -/
  hawk : List HawkEntry := []
  hand : Nat := 0
  /-- Admission counters that are not 0: (index, count), 262,144 of 4 bits (R126; reset 0). -/
  admits : List (Nat × Nat) := []
  /-- Frame boundaries since the last decay (R126; reset 0). -/
  decayFrames : Nat := 0
  /-- Peers to which peer reads have stopped (R138; reset none) and CRC mismatches in the last minute (reset none). -/
  peerStopped : List Nat := []
  peerBadAt : List PeerBad := []
  /-- Requests of the last second whose hold passed without a response (R318; reset none). -/
  peerSilentAt : List PeerBad := []
  /-- Clock cycle at which EV_STAGE_STARVED was last raised (R141; reset none). -/
  starvedTold : Option Nat := none
  /-- Counters (reset 0). -/
  ctrs : StageCtrs := {}
  /-- A Skim pass is in progress (R201; reset false): stripes still to patrol (group, band, q) (reset none), the first
  frame of the pass (reset 0), and whether EV_SKIM_BEHIND was raised (reset false). -/
  skimOn : Bool := false
  skimLeft : List (Nat × Nat × Nat) := []
  skimStart : Nat := 0
  skimBehind : Bool := false
  deriving DecidableEq, Repr, Inhabited

end Sys2Proof.Machine
end

