-- ==== Sys2Proof/Machine/NetParts.lean ====
section
/-! DEFINITION. State of the Ethernet ports, the switch core, the scheduler and the header mirror (09). Every field's
default is its value at reset, and its docstring names the rule that gives it. -/

namespace Sys2Proof.Machine

/-- A frame in the packet buffer, or one that an internal source holds (R284, R285). -/
structure NetFrame where
  /-- Egress switch port (R280), sub-port and class (R282). -/
  port : Nat := 0
  sub : Nat := 0
  cls : Nat := 0
  /-- Session number, 0 for the control queue. -/
  key : Nat := 0
  /-- Length from destination MAC to FCS. -/
  len : Nat := 0
  /-- Its first 128 bytes. -/
  head : List Byte := []
  /-- ECN-capable. -/
  ecn : Bool := false
  /-- The internal port it comes from, and for a received one its port, sub-port and class (R286). -/
  src : Nat := 0
  ingress : Option (Nat × Nat × Nat) := none
  /-- Cells it takes of its queue's guarantee, of the shared pool, and of the headroom (R284, R286). -/
  guaranteed : Nat := 0
  shared : Nat := 0
  headroom : Nat := 0
  deriving DecidableEq, Repr, Inhabited

/-- A queue's tags, in 1/256 byte of wire time (R296). -/
structure QueueTag where
  key : Nat := 0
  start : Nat := 0
  finish : Nat := 0
  ready : Bool := false
  deriving DecidableEq, Repr, Inhabited

/-- A class's virtual time and tags, with those of its queues (R296). -/
structure ClassTag where
  vtime : Nat := 0
  start : Nat := 0
  finish : Nat := 0
  ready : Bool := false
  queues : List QueueTag := []
  deriving DecidableEq, Repr, Inhabited

/-- The scheduler of one sub-port, SP port or internal port (R296). -/
structure Sched where
  port : Nat := 0
  sub : Nat := 0
  vtime : Nat := 0
  classes : List ClassTag := List.replicate 8 {}
  /-- The class of the frame in transmission and the clock cycle at which it ends (R302). -/
  sending : Nat := 0
  sendEnd : Nat := 0
  deriving DecidableEq, Repr, Inhabited

/-- One sub-port (R274, R279, R286). -/
structure SubPort where
  /-- NET_PORT_STATUS.UP (reset 0). -/
  up : Bool := false
  /-- MAC, VLAN word ([11:0] VID, [15] tagged), prefix lengths and addresses (R279, R394; reset 0). -/
  mac : Nat := 0
  vlan : Nat := 0
  prefix4 : Nat := 0
  prefix6 : Nat := 0
  ipv4 : Nat := 0
  ipv6 : List Byte := []
  /-- Classes paused, classes whose pauses are ignored, classes for which XOFF has been sent (R286; reset 0). -/
  paused : Nat := 0
  ignoring : Nat := 0
  xoff : Nat := 0
  /-- The unassociated flow's buckets and the clock cycle they were taken at (R299; reset full at 1 MiB, log 7). -/
  tc : Nat := 1048576
  tp : Nat := 1048576
  bucketAt : Nat := 0
  deriving DecidableEq, Repr, Inhabited

/-- One external port (R274 to R292, R305). -/
structure NetPort where
  /-- NET_PORT_CFG.ENABLE (reset 0). -/
  enable : Bool := false
  /-- Mode, media and lossless classes in effect: those of the last setting of ENABLE (R278; reset 0). -/
  mode : Nat := 0
  media : Nat := 0
  pfc : Nat := 0
  /-- NET_PORT_EVT, 7 bits (reset 0). -/
  evt : Nat := 0
  subs : List SubPort := List.replicate 4 {}
  /-- 64-bit counters, 8 per kind by class (R303; reset 0). -/
  ctrs : List Nat := List.replicate 104 0
  /-- Clock cycles at which EV_NET_BUF_DROP and EV_NET_GATE_OVERRUN were last raised (R302, R304; reset none). -/
  dropTold : Option Nat := none
  overrunTold : Option Nat := none
  deriving DecidableEq, Repr, Inhabited

/-- A network record of an association: its policing buckets and its last EV_NET_POLICE_RED (R298, R299). -/
structure Policer where
  assoc : Nat := 0
  tc : Nat := 0
  tp : Nat := 0
  at_ : Nat := 0
  told : Option Nat := none
  deriving DecidableEq, Repr, Inhabited

/-- A session's CNP cap (R297): rate in Mb/s, bucket in bytes and its clock cycle, and the cycle of the last CNP. -/
structure CnpCap where
  sess : Nat := 0
  rate : Nat := 0
  bucket : Nat := 9236
  at_ : Nat := 0
  last : Nat := 0
  deriving DecidableEq, Repr, Inhabited

/-- A mirror record by its place in the ring (R293, R294). -/
structure MirrorSlot where
  slot : Nat := 0
  bytes : List Byte := []
  deriving DecidableEq, Repr, Inhabited

/-- The switch core. -/
structure NetState where
  /-- HP0 to HP7 and SP0 to SP3 (R274). -/
  ports : List NetPort := List.replicate 12 {}
  /-- Frames in egress queues, in the order of admission (R284; reset none), and frames that internal sources hold (R285;
  reset none). -/
  frames : List NetFrame := []
  held : List NetFrame := []
  /-- Schedulers that have ever run (R296; reset none, every tag 0). -/
  scheds : List Sched := []
  /-- Policers (R298; reset none) and CNP caps (R297; reset none). -/
  policers : List Policer := []
  caps : List CnpCap := []
  /-- NET_COMMIT.REFUSED (R300; reset 0). -/
  refused : Bool := false
  /-- NET_MIRROR_PROD and NET_MIRROR_CONS, 32 bits (reset 0), the records of the ring (reset none), and whether
  EV_NET_MIRROR_FULL has been raised for this fill (R294; reset 0). -/
  prod : Nat := 0
  cons : Nat := 0
  mirror : List MirrorSlot := []
  fullTold : Bool := false
  deriving DecidableEq, Repr, Inhabited

end Sys2Proof.Machine
end

