-- ==== Sys2Proof/Machine/Outputs.lean ====
section
/-! DEFINITION. What leaves the block. State keeps the list of everything that has left, oldest first (the model's own
record, log 2): register and configuration read completions, interrupts, mailbox responses, frames, completions to
hosts, submissions to modules. -/

namespace Sys2Proof.Machine

/-- What a PTP message carries beside its kind and stamp: the domain, the transport on a host port, and on Scrim the sender's time
information (R38, R39, R41, R42). -/
structure PtpInfo where
  domain : Nat := 0
  transport : Nat := 0
  info : Option Payload.PtpAnnounce := none
  deriving DecidableEq, Repr, Inhabited

/-- One thing that has left the block. -/
inductive Output where
  /-- A register read completed with a value (R4, R17). -/
  | regRead (off : Nat) (data : List Byte)
  /-- A configuration request completed: 0 successful, 1 Request Retry Status (R404). -/
  | cfg (status : Nat) (value : Nat)
  /-- A BAR4 read completed with data, or as Unsupported Request (R409). -/
  | bar4Data (data : List Byte)
  | bar4Ur (off : Nat)
  /-- A BAR0 read completed as Unsupported Request (R418). -/
  | bar0Ur (off : Nat)
  /-- An MSI-X message (R417), a PME message (R419) and PME_TO_Ack (R419). -/
  | msix (vector addr data : Nat)
  | pme
  | pmeToAck
  /-- A DMA descriptor of a queue completed to firmware with success or failure (R420, R421); `relaxed` says whether the queue's requests
  carry Relaxed Ordering (R415). And every descriptor in progress abandoned, which completes each with failure (R420, R421). -/
  | dmaDone (queue : Nat) (ok relaxed : Bool)
  | dmaAbandoned
  /-- A mailbox response on MP (R379) or SMBus (R380). -/
  | mpResponse (addr port : Nat) (bytes : List Byte)
  | smbusResponse (bytes : List Byte)
  /-- A PTP message (R42). -/
  | ptp (m : Payload.PtpTx) (about : PtpInfo) (stampNs : Nat)
  | ptpPdelayResp (port domain seq rxNs txNs : Nat)
  /-- A Scrim frame leaves on an SP port, from its destination address to its ICV (R312). -/
  | scrim (port : Nat) (frame : List Byte)
  /-- A witness datagram leaves on MP for an address (16 bytes) and port (R333). -/
  | witnessMp (addr : List Byte) (port : Nat) (datagram : List Byte)
  /-- A port trains: its mode 0 to 2 gives the one rate that is advertised; media 1 and 2, KR and CR, run Clause 73 auto-negotiation and link
  training, media 0, C2M, runs none (R275, R278). -/
  | portTrain (port mode media : Nat)
  /-- Network: a frame leaves a port with its CE mark and its VLAN ID and PCP, or its DSCP (R282, R287), or reaches an internal port's
  consumer (R281); a PFC frame leaves (R286). -/
  | frame (port sub cls key len : Nat) (ce : Bool) (vlan : Option (Nat × Nat)) (dscp : Nat)
  | pfc (port sub cls : Nat) (xoff : Bool)
  /-- Unacknowledged data of a connection leaves again (R299); a TLS bad_record_mac alert leaves (R358). -/
  | resend (cntlid qid : Nat)
  | tlsAlert (cntlid qid : Nat)
  /-- A 64-byte submission entry of a bay (R215), and the answer to a module's read of the source window: data, or Unsupported Request
  (R217). -/
  | bayEntry (bay : Nat) (entry : List Byte)
  | baySource (bay : Nat) (data : Option (List Byte))
  /-- A module's configuration is written as it is enumerated: its BAR, memory space and bus mastering enabled, and the maximum payload
  and read request sizes in bytes, with the bits of a PCIe tag (R209, R210 step 4). -/
  | bayConfig (bay mps mrrs tagBits : Nat)
  /-- A per-port register of the module is written, at its offset in MBAR (R213). -/
  | bayReg (bay off value : Nat)
  /-- Bytes of a command's transfer leave for the host, and a completion is posted: CNTLID and QID (0 for the admin
  queue), CID, SCT and SC, DNR, DW0, DW1, SQHD (R86, R100). -/
  | hostData (cntlid qid cid off : Nat) (data : List Byte)
  | completion (cntlid qid cid status : Nat) (dnr : Bool) (dw0 dw1 sqhd : Nat)
  /-- The answer to a Connect that gave no queue, and an RNR NAK or a closed receive window (R61, R63). -/
  | connRefused (port sub : Nat)
  | refusedConnect (port cid status : Nat)
  | notReady (cntlid qid : Nat)
  /-- An AVSBus request for a voltage in mV (R467). -/
  | avs (mv : Nat)
  deriving DecidableEq, Repr, Inhabited

end Sys2Proof.Machine
end

