-- ==== Sys2Proof/Machine/PowerParts.lean ====
section
/-! DEFINITION. State of the power die: bay power channels and feeds, modes and wake, the black box, OTP and fuses, and
the pins it samples or drives. Every field's default is its value at reset, and its docstring names its rule. -/

namespace Sys2Proof.Machine

/-! ### Bay power (14) -/

/-- A channel's state, in the order of the codes of R429. -/
inductive PwrSt where
  | empty | detected | seated | ramp | on | faultOff | latched | disabled | unseating
  deriving DecidableEq, Repr, Inhabited

/-- Why a channel is DISABLED (R430). -/
inductive OffBy where
  | command | island | cycle
  deriving DecidableEq, Repr, Inhabited

/-- One telemetry sample (R447): shunt current in mA, VCH and VOUT in mV. -/
structure Sample where
  ma : Int := 0
  vch : Nat := 0
  vout : Nat := 0
  deriving DecidableEq, Repr, Inhabited

/-- One bay power channel (R425 to R453). -/
structure PwrChan where
  /-- BAYPWR_STATUS.STATE (R429; reset EMPTY). -/
  st : PwrSt := .empty
  /-- LONG and SHORT: presence pins seated (R428; reset 0). -/
  long : Bool := false
  short : Bool := false
  /-- SHORT has been low for 50 ms, so the module counts as seated (R428; reset 0). -/
  stable : Bool := false
  /-- PG: power-good (R437; reset 0). -/
  pg : Bool := false
  /-- HS_ON: GATE_HS commanded on (reset 0). -/
  hsOn : Bool := false
  /-- OR_ON: GATE_OR on (R427; reset 0). -/
  orOn : Bool := false
  /-- The gate is being driven to full enhancement: the ramp is complete (R431; reset 0). -/
  enhancing : Bool := false
  /-- The fault timer's count at `timerAt` (R433; reset 0). -/
  timer : Nat := 0
  /-- The 16 MHz tick at which `timer` was taken (R433; reset 0). -/
  timerAt : Nat := 0
  /-- The breaker comparator (R433; reset clear). -/
  breaker : Bool := false
  /-- LIMIT: active limit regulating (reset 0). -/
  limit : Bool := false
  /-- DIODE_OK (R438; reset 0). -/
  diodeOk : Bool := false
  /-- The diode has read open or short since power-die reset (R438; reset 0). -/
  diodeBad : Bool := false
  /-- The off-time of FAULT_OFF has elapsed and the FET was still too hot to retry (R430; reset 0). -/
  offDone : Bool := false
  /-- RETRIES, 3 bits (R442; reset 0). -/
  retries : Nat := 0
  /-- LAST_FC, 16 bits (R449; reset 0). -/
  lastFc : Nat := 0
  /-- LATCHED by FET damage, not by retries (R440; reset 0). -/
  byFet : Bool := false
  /-- What disabled the channel (R430; reset none). -/
  offBy : OffBy := .command
  /-- Thermal model terms in 10^-9 K (R438; reset 0). -/
  dt1 : Int := 0
  dt2 : Int := 0
  /-- Modelled junction in 10^-9 °C (R438; reset 0). -/
  tj : Int := 0
  /-- BAYPWR_TEMP.DIODE, 16 bits (reset 0x8000). -/
  diode : Nat := 0x8000
  /-- The last 8 samples, newest last (R447; reset none). -/
  samples : List Sample := []
  /-- Energy in 10^-12 J (R447; reset 0). -/
  energy : Nat := 0
  /-- BAYPWR_EVT, 6 bits (reset 0). -/
  evt : Nat := 0
  /-- Clock cycle at which EV_BAYPWR_FAULT was last raised for the bay (R452; reset none). -/
  faultTold : Option Nat := none
  deriving DecidableEq, Repr, Inhabited

/-- A feed's state, in the order of the codes of R446. -/
inductive FeedSt where
  | absent | idle | conducting | reverseOff | ovOff
  deriving DecidableEq, Repr, Inhabited

/-- One feed (R445). -/
structure Feed where
  st : FeedSt := .absent
  deriving DecidableEq, Repr, Inhabited

/-- Bay power block (R425 to R453). -/
structure PwrState where
  /-- The 24 channels (R429; reset EMPTY). -/
  chans : List PwrChan := List.replicate 24 {}
  /-- FEED_A and FEED_B (R445; reset ABSENT). -/
  feedA : Feed := {}
  feedB : Feed := {}
  /-- The last 8 samples of FEED_A, FEED_B and the bus in mV, newest last (R447; reset none). -/
  feedSamples : List (Nat × Nat × Nat) := []
  /-- BAYPWR_FEED_STATUS.COLLAPSE (R446; reset 0). -/
  collapse : Bool := false
  /-- BAYPWR_FEED_EVT, 4 bits (reset 0). -/
  feedEvt : Nat := 0
  /-- BAYPWR_GLOBAL.LOADED (R450; reset 0). -/
  loaded : Bool := false
  /-- EV_FEED_COLLAPSE waits for the data die to receive it (R446; reset 0). -/
  collapseTold : Bool := true
  deriving DecidableEq, Repr, Inhabited

/-! ### Modes (15) -/

/-- The six modes, in the order of their codes (R454). -/
inductive Mode where
  | island | standby | owner | partner | contained | provision
  deriving DecidableEq, Repr, Inhabited

/-- An AVSBus request in progress (R467). -/
structure AvsReq where
  mv : Nat := 0
  /-- The voltage the whole raise or lowering is to reach. -/
  goal : Nat := 0
  raise : Bool := true
  left : Nat := 0
  /-- A mode entry waits for it (0), the running operating point needs it (1), or a lowering (2) (R469). -/
  why : Nat := 0
  deriving DecidableEq, Repr, Inhabited

/-- Mode, wake, island time, core voltage and supply state (R454 to R479). -/
structure ModeState where
  /-- PWR_MODE.MODE (R454; reset ISLAND, code 0). -/
  mode : Mode := .island
  /-- PWR_MODE.ENTERING and TARGET (R460; reset none). -/
  entering : Option Mode := none
  /-- PWR_MODE.HOLD (R456; reset 0). -/
  hold : Bool := false
  /-- PWR_MODE.CAUSE (R457; reset 0). -/
  cause : Nat := 0
  /-- Fabric time in ns of the last mode entry (R475; reset 0). -/
  lastEntry : Nat := 0
  /-- PWR_WAKE_LATCH, 8 bits (R464; reset 0). -/
  latch : Nat := 0
  /-- PWR_WAKE_LAST.SOURCES, 8 bits, and REPLAYED (R464; reset 0). -/
  last : Nat := 0
  replayed : Bool := false
  /-- Replayed bits of which EV_MODE_WAKE_REPLAYED still waits for the data die (R464; reset none). -/
  replayTell : Option Nat := none
  /-- Level sources that must be released before they qualify again, 4 bits (R464; reset 0). -/
  levelHeld : Nat := 0
  /-- WAKE_IN3 to WAKE_IN0 as debounced, 4 bits, 1 for high (R463; reset 0: pull-downs). -/
  wakeIn : Nat := 0
  /-- PWR_ALARM, 48 bits (R463; reset 0). -/
  alarm : Nat := 0
  /-- Clock cycle from which the island counter counts (R472; reset 0: the counter starts at 0). -/
  islZero : Nat := 0
  /-- PWR_ISLAND_HI as latched, 16 bits (reset 0). -/
  islHi : Nat := 0
  /-- T_e and C_e (R461; reset 0), C_d (R473; reset 0). -/
  te : Nat := 0
  ce : Nat := 0
  /-- The fabric time last known before DD_RST_N fell, in ns, and the island counter then (R34; reset 0). -/
  lastFab : Nat := 0
  lastIsl : Nat := 0
  cd : Nat := 0
  /-- E_i and E_f in ns, uncertainty in µs (R473; reset 0). -/
  ei : Nat := 0
  ef : Int := 0
  uncUs : Nat := 0
  /-- ISLAND_TIME flags: E_f used, UNKNOWN (R475; reset 0). -/
  efUsed : Bool := false
  unknown : Bool := false
  /-- The 2 s window of R473 is open (reset 0). -/
  resumeOpen : Bool := false
  /-- The entry into ISLAND under way or last made was caused by feed loss (R463; reset 0). -/
  byFeedLoss : Bool := false
  /-- Groups still to hand over before the entry or reset under way goes on (R394, R398, R459, R461; reset none), and the
  reason of a data-die reset that waits for them (reset none). -/
  toHand : List Nat := []
  resetAfter : Option Nat := none
  /-- PWR_AVS.TARGET and ACKED, mV (R467; reset 800). -/
  avsTarget : Nat := 800
  avsAcked : Nat := 800
  /-- The AVSBus request in progress (R467; reset none). -/
  avs : Option AvsReq := none
  /-- The goal of a lowering that failed and is tried again (R469; reset none). -/
  avsLower : Option Nat := none
  /-- PWR_SUPPLY: SOURCE, AUX, POE, POE_CLASS, CNT_VALID, MAIN_PG (R470; reset 0). -/
  source : Nat := 0
  aux : Bool := false
  poe : Bool := false
  poeClass : Nat := 0
  cntValid : Bool := false
  mainPg : Bool := false
  deriving DecidableEq, Repr, Inhabited

/-- Pins and resets of the two dies (R16, R490, R512 to R523). -/
structure PinState where
  /-- MAIN_EN (R518; reset low). -/
  mainEn : Bool := false
  /-- DD_RST_N is asserted (low) (R461; reset asserted: the device is held in reset, R520). -/
  ddReset : Bool := true
  /-- PF_WARN (R16; reset 0). -/
  pfWarn : Bool := false
  /-- PWRON_RST_N is low (R520; reset low: PWRON_RESET_RELEASE is the first thing to come, log 5). -/
  pwronLow : Bool := true
  /-- MP_PHY_RST_N is high (R518; reset low). -/
  mpPhyUp : Bool := false
  /-- Wakes are refused after an overtemperature shutdown (R523; reset 0). -/
  overtempHold : Bool := false
  /-- Clock cycle of the last DD_BEAT edge (R490; reset 0). -/
  lastBeat : Nat := 0
  /-- Fabric time in ns of the last DD_BEAT edge (R490; reset 0). -/
  lastBeatNs : Nat := 0
  /-- Clock cycles of the watchdog resets within the last 10 minutes (R490; reset none). -/
  dogResets : List Nat := []
  /-- STATUS_LED_N[2:0] lit, 3 bits: off until firmware drives them (R518; reset 0). -/
  statusLed : Nat := 0
  /-- BAYn_LED_N lit, 24 bits: off until firmware drives them (R518; reset 0). -/
  bayLed : Nat := 0
  deriving DecidableEq, Repr, Inhabited

/-! ### Black box, OTP and fuses (16) -/

/-- A black-box record (R480). -/
structure BbxRec where
  code : Nat := 0
  origin : Nat := 0
  lastGasp : Bool := false
  unlocked : Bool := false
  estimated : Bool := false
  seq : Nat := 0
  ftime : Nat := 0
  island : Nat := 0
  kind : Nat := 0
  subject : Nat := 0
  ddResets : Nat := 0
  detail : List Int := []
  /-- The slot of the ring the record stands in, 0 to 8,159: 510 sectors of 16 (R481). -/
  pos : Nat := 0
  deriving DecidableEq, Repr, Inhabited

/-- Black-box writer (R480 to R490). -/
structure BbxState where
  /-- Committed records of the ring, oldest first (R481; reset none, DESIGN CHOICE, log 5). -/
  ring : List BbxRec := []
  /-- The queue of records accepted and not yet committed, head first, at most 64 (R483; reset empty). -/
  queue : List BbxRec := []
  /-- The next SEQ, 32 bits (R481; reset 1, log 5). -/
  seq : Nat := 1
  /-- The slot of the ring written next (R481; reset 0). -/
  pos : Nat := 0
  /-- BBX_STATUS.ERASING (R481; reset 0). -/
  erasing : Bool := false
  /-- Firmware's bucket: tokens at `bucketAt`, at most 256 (R483; reset 256). -/
  bucket : Nat := 256
  bucketAt : Nat := 0
  /-- BBX_STATUS.DROPPED, 16 bits saturating (R483; reset 0). -/
  dropped : Nat := 0
  /-- Clock cycle at which EV_BBX_DROPPED was last raised (R483; reset none). -/
  dropTold : Option Nat := none
  /-- Last-gasp area B is open, else area A (R489; reset A). -/
  lgOpenB : Bool := false
  /-- Committed records of the last-gasp areas not yet copied (R489; reset none). -/
  gasps : List BbxRec := []
  /-- The last FC code written and its SEQ (R488; reset 0). -/
  lastFc : Nat := 0
  lastFcSeq : Nat := 0
  /-- Flush progress as the data die last reported it (R488; reset 0xFFFF_FFFF). -/
  flushLeft : Nat := 0xFFFFFFFF
  /-- The last fabric time received over the package link, and when (R482; reset 0). -/
  ftime : Nat := 0
  ftimeAt : Nat := 0
  /-- Data-die reset count, 32 bits (R394; reset 0, DESIGN CHOICE, log 5). -/
  ddResets : Nat := 0
  deriving DecidableEq, Repr, Inhabited

/-- One SHA-384 key hash of the fuse bank (R499). -/
structure KeyHash where
  programmed : Bool := false
  /-- Uncorrectable ECC error. -/
  bad : Bool := false
  value : Nat := 0
  deriving DecidableEq, Repr, Inhabited

/-- Root key ECC status, in the order of FUSE_STATUS.ROOT (R511). -/
inductive RootSt where
  | unprogrammed | good | corrected | uncorrectable
  deriving DecidableEq, Repr, Inhabited

/-- OTP array and fuse bank (R497 to R502). Reset content: a part as it leaves test (DESIGN CHOICE, log 5). -/
structure FuseState where
  /-- Four OTP generations of 128 bytes (R497; reset all zero). -/
  otp : List (List Byte) := List.replicate 4 (List.replicate 128 0)
  /-- The OTP generation read at the last power-die reset, 7 = none (R498; reset 7). -/
  otpGen : Nat := 7
  /-- The bytes of that generation as read at the last power-die reset (R498; reset zero). -/
  otpBytes : List Byte := List.replicate 128 0
  /-- ROOT, 256 bits, and its ECC status (R499; reset unprogrammed). -/
  root : Nat := 0
  rootSt : RootSt := .unprogrammed
  /-- DEVICE_ID, 64 bits (R499; fused at test; reset 0, DESIGN CHOICE, log 5). -/
  deviceId : Nat := 0
  /-- The majority groups of 8 fuses: PROVISIONED, DEPLOYED, RETIRED, DEBUG_LOCK, WRITE_LOCK (R499; reset 0). -/
  provisioned : Nat := 0
  deployed : Nat := 0
  retired : Nat := 0
  debugLock : Nat := 0
  writeLock : Nat := 0
  /-- REVOKE: four majority groups of 8 fuses (R499; reset 0). -/
  revoke : List Nat := [0, 0, 0, 0]
  /-- ROLLBACK: 128 fuses (R499; reset 0). -/
  rollback : Nat := 0
  /-- HASH0 to HASH3 (R499; reset unprogrammed). -/
  hashes : List KeyHash := [{}, {}, {}, {}]
  deriving DecidableEq, Repr, Inhabited

/-- Power-fail flush (R491). -/
structure FlushState where
  /-- A flush is under way (reset 0). -/
  active : Bool := false
  /-- Chunks programmed and still to program (reset 0). -/
  programmed : Nat := 0
  left : Nat := 0
  /-- The image of R252 has its COMMIT on flash (reset 0). -/
  image : Bool := false
  /-- Clock cycle of the warning (reset 0). -/
  start : Nat := 0
  /-- The result of a flush that has run since the last boot: image committed, chunks programmed, chunks left, µs to its
  end (R509, R510; reset none). -/
  before : Option (List Int) := none
  deriving DecidableEq, Repr, Inhabited

end Sys2Proof.Machine
end

