-- ==== Sys2Proof/Machine/SystemParts.lean ====
section
/-! DEFINITION. State of the system block, the on-package link, the TIME block, the parameters, the mailboxes, the
event ring, firmware update and the attached-host endpoint. Every field's default is its value at reset, and its
docstring names the rule that gives it. -/

namespace Sys2Proof.Machine

/-! ### System block and on-package link (01 Architecture) -/

/-- A write to a mirrored power-die register that has been posted and not yet applied (R18). -/
structure PostedWrite where
  addr : Nat := 0
  value : Nat := 0
  deriving DecidableEq, Repr, Inhabited

/-- SYS_ID straps and SYS_PKG_LINK (R16 to R18). -/
structure SysState where
  /-- SYS_ID.SLOT, 1 bit: SLOT_SEL as sampled, true for slot B (R515; reset strap, DESIGN CHOICE slot A, log 5). -/
  slotB : Bool := false
  /-- SYS_ID.PROV, 1 bit: PROVISION_EN as sampled (R515; reset strap, DESIGN CHOICE 0, log 5). -/
  prov : Bool := false
  /-- SYS_ID.SHELF, 6 bits: SHELF_ID as sampled (R515; reset strap, DESIGN CHOICE 0, log 5). -/
  shelf : Nat := 0
  /-- BOOT_SEL as sampled, 1 bit (R515; reset strap, DESIGN CHOICE 0, log 5). -/
  bootSel : Bool := false
  /-- SYS_PKG_LINK.UP, 1 bit (R17; reset 0). -/
  linkUp : Bool := false
  /-- SYS_PKG_LINK.TIMEOUT, 1 bit (R17, R18; reset 0). -/
  linkTimeout : Bool := false
  /-- SYS_PKG_LINK.DOWN_SEEN, 1 bit (R18; reset 0). -/
  linkDownSeen : Bool := false
  /-- SYS_PKG_LINK.REPLAYS, 8 bits, saturating (R18; reset 0). -/
  replays : Nat := 0
  /-- SYS_PKG_LINK.TRAINS, 16 bits, saturating (R18; reset 0). -/
  trains : Nat := 0
  /-- Posted writes to mirrored registers not yet applied, oldest first (R18; reset empty). -/
  posted : List PostedWrite := []
  deriving DecidableEq, Repr, Inhabited

/-! ### TIME block (02 Fabric time) -/

/-- TIME_STATUS.STATE (R48 to R53). -/
inductive Servo where
  | freerun | locked | slewing | holdover
  deriving DecidableEq, Repr, Inhabited

/-- A time source: 1 Scrim PTP, 2 host-port PTP, 3 PPS_IN, 4 local reference (TIME_SRC.ACTIVE). -/
abbrev SourceId := Nat

/-- What the controller has measured of one PTP source (R43, R44). -/
structure PtpSource where
  /-- Consecutive Sync intervals in which a Sync arrived, at most 16 kept (R43; reset 0). -/
  count : Nat := 0
  /-- The last 16 offsets measured, newest last, in ns (R43; reset empty). -/
  offsets : List Int := []
  /-- Clock cycle of the last Sync (R43; reset none). -/
  last : Option Nat := none
  /-- The Sync interval in force, as log2 of seconds (R43; reset 0). -/
  interval : Int := 0
  /-- The source is qualified (R43; reset 0). -/
  qualified : Bool := false
  /-- The source has been lost since it was last taken (R44; reset 0). -/
  lost : Bool := false
  deriving DecidableEq, Repr, Inhabited

/-- What a Scrim peer has advertised with its PTP messages (R38, R39, R41). -/
structure TimePeer where
  devId : Nat := 0
  /-- The peer is this shelf's other controller (R39). -/
  partner : Bool := false
  /-- The peer is reachable over Scrim (R41). -/
  reachable : Bool := true
  cls : Nat := 4
  /-- The peer's hop count to its own grandmaster (R41). -/
  hops : Nat := 0
  /-- The device ID of the peer's grandmaster and that grandmaster's class (R41). -/
  gmDev : Nat := 0
  gmCls : Nat := 4
  traceable : Bool := false
  /-- The frame period the peer advertises, in µs (R38). -/
  periodUs : Nat := 0
  /-- The frames per turn the peer advertises (R39). -/
  fpt : Nat := 0
  /-- EV_TIME_PERIOD_MISMATCH has been raised for this peer (R38). -/
  periodTold : Bool := false
  /-- EV_TIME_TURN_MISMATCH has been raised for this peer (R39). -/
  turnTold : Bool := false
  deriving DecidableEq, Repr, Inhabited

/-- TIME state (R33 to R56). -/
structure TimeState where
  /-- Fabric time in units of 2^-32 ns: 48-bit seconds, 32-bit nanoseconds and 32 fractional bits (R33, R34; reset 0,
  no value handed over). -/
  fab : Nat := 0
  /-- The 64-bit addend per 1.6 GHz cycle, ns with 32 fractional bits (R34; reset nominal 0xA000_0000). -/
  addend : Nat := 0xA0000000
  /-- Frequency correction in parts per billion (R34; reset 0, log 6). -/
  corrPpb : Int := 0
  /-- Slew rate in parts per billion, 0 when not slewing (R50; reset 0). -/
  slewPpb : Int := 0
  /-- TIME_STATUS.STATE (R48; reset FREERUN). -/
  servo : Servo := .freerun
  /-- TIME_STATUS.TRACEABLE (R41; reset 0). -/
  traceable : Bool := false
  /-- TIME_STATUS.STEP_PENDING; the dead interval is open while it is 1 (R51; reset 0). -/
  stepPending : Bool := false
  /-- The offset in ns that waits for its step at the next turn boundary (R53; reset none). -/
  stepDue : Option Int := none
  /-- What a measurement made while a step was pending leaves to act on after it, in ns (R53; reset none). -/
  offsetDue : Option Int := none
  /-- TIME_STATUS.GM (R41; reset 0). -/
  gm : Bool := false
  /-- TIME_STATUS.HOPS, 5 bits (R41; reset 0). -/
  hops : Nat := 0
  /-- Device ID of the grandmaster followed (R41; reset 0, log 6). -/
  gmDev : Nat := 0
  /-- The grandmaster's time class (R41; reset 4, log 6). -/
  gmCls : Nat := 4
  /-- Device ID of the neighbour on the path to the grandmaster, its own when it is grandmaster (R41; reset 0, log 6). -/
  upDev : Nat := 0
  /-- TIME_SRC.ACTIVE, 3 bits (R44; reset 4). -/
  active : SourceId := 4
  /-- TIME_SRC.CLASS, 3 bits (R41; reset 4). -/
  cls : Nat := 4
  /-- The controller has been LOCKED in this power cycle (R41, R43; reset 0). -/
  everLocked : Bool := false
  /-- The controller has been LOCKED to a PTP source in this power cycle (R43; reset 0). -/
  ptpLocked : Bool := false
  /-- Scrim PTP as a source (R43; reset none). -/
  scrim : PtpSource := {}
  /-- Host-port PTP as a source (R43; reset none). -/
  host : PtpSource := {}
  /-- PPS_IN is qualified (R43; reset 0). -/
  ppsQualified : Bool := false
  /-- PPS_IN has been lost since it was last taken (R44; reset 0). -/
  ppsLostSince : Bool := false
  /-- Consecutive PPS_IN edges 1 s ± 10 µs apart (R43; reset 0). -/
  ppsEdges : Nat := 0
  /-- Clock cycle of the last accepted PPS_IN edge (R43; reset none). -/
  ppsLast : Option Nat := none
  /-- The second that the last accepted edge was taken as (R46; reset 0). -/
  ppsSec : Nat := 0
  /-- The offset measured at the last accepted edge, ns (R46; reset 0). -/
  ppsOffset : Int := 0
  /-- Consecutive Sync intervals with the offset outside the lock threshold while LOCKED (R53; reset 0). -/
  outside : Nat := 0
  /-- TIME_TOD has been loaded (R43; reset 0). -/
  todKnown : Bool := false
  /-- TIME_CTRL.TOD_LOAD (R46; reset 0). -/
  todLoad : Bool := false
  /-- TIME_CTRL.PPS_FREERUN (R47; reset 0). -/
  ppsFreerun : Bool := false
  /-- TIME_TOD, 48 bits (R46; reset 0). -/
  tod : Nat := 0
  deriving DecidableEq, Repr, Inhabited

/-- TIME registers and schedule bookkeeping (R35, R37, R56). -/
structure TimeRegs where
  /-- TIME_NOW_SEC as latched, 48 bits (R56; reset 0). -/
  latSec : Nat := 0
  /-- TIME_FRAME as latched, 64 bits (R56; reset 0). -/
  latFrame : Nat := 0
  /-- TIME_TURN as latched, 64 bits (R56; reset 0). -/
  latTurn : Nat := 0
  /-- TIME_SLOT as latched, 6 bits (R56; reset 0). -/
  latSlot : Nat := 0
  /-- TIME_OFFSET, 32 bits signed (reset 0). -/
  offset : Int := 0
  /-- TIME_PPS_IN_NS, 32 bits (reset 0). -/
  ppsInNs : Nat := 0
  /-- TIME_PPS_IN_SEC, 32 bits (reset 0). -/
  ppsInSec : Nat := 0
  /-- TIME_EVT, 5 bits: LOCK_LOST, STEPPED, SRC_CHANGED, PPS_LOST, MISMATCH (reset 0). -/
  evt : Nat := 0
  /-- TIME_STEP, 32 bits signed, µs (R51; reset 0). -/
  stepUs : Int := 0
  /-- TIME_HOLDOVER.MS of the last holdover that ended (reset 0). -/
  holdoverMs : Nat := 0
  /-- Clock cycle at which the current HOLDOVER began (reset none). -/
  holdSince : Option Nat := none
  /-- Slot instants (64 × frame + slot) delivered up to (R30, R35; reset 0). -/
  slotSeen : Nat := 0
  /-- The last frame number delivered (R30, R35; reset 0). -/
  frameSeen : Nat := 0
  /-- The last turn number delivered (R30, R35; reset 0). -/
  turnSeen : Nat := 0
  /-- Frame boundaries delivered since reset, what frame-counted timers count (R37; reset 0). -/
  frames : Nat := 0
  /-- Turn boundaries delivered since reset (R37; reset 0). -/
  turns : Nat := 0
  /-- PPS_OUT as driven (R47; reset low, R518). -/
  ppsOut : Bool := false
  /-- The instant in ns at which the current pulse of PPS_OUT ends (R47; reset 0). -/
  ppsEnd : Nat := 0
  /-- Scrim peers' time information (R41; reset none). -/
  peers : List TimePeer := []
  deriving DecidableEq, Repr, Inhabited

/-! ### Parameters (12, R387 to R393) -/

/-- A parameter whose value or GEN differs from the default value with GEN 1 (R390). -/
structure ParamVal where
  num : Nat := 0
  val : Int := 0
  gen : Nat := 1
  deriving DecidableEq, Repr, Inhabited

/-- A value staged by a channel or by a block's RWE fields (R390, R392). -/
structure StageEntry where
  num : Nat := 0
  val : Int := 0
  /-- EXPECT_GEN when CHECK_GEN was set (R391). -/
  gen : Option Nat := none
  deriving DecidableEq, Repr, Inhabited

/-- A commit that waits for its turn boundary (R12, R391). -/
structure Commit where
  entries : List StageEntry := []
  /-- The turn whose boundary applies it: the first after the acknowledgement (R12); 0 after a step or a renumbering, which let
  the first boundary of the new numbers apply it (R51). -/
  due : Nat := 0
  deriving DecidableEq, Repr, Inhabited

/-- A copy of the parameter store in the SPI NOR (R393). -/
structure StoreCopy where
  valid : Bool := false
  seq : Nat := 0
  values : List StageEntry := []
  deriving DecidableEq, Repr, Inhabited

/-- Parameter state (R387 to R393). -/
structure ParamState where
  /-- Values and GENs in effect that are not default with GEN 1, one entry per number (R390; reset none). -/
  vals : List ParamVal := []
  /-- Commits due at a coming turn boundary, in command order (R391; reset none). -/
  commits : List Commit := []
  /-- RWE fields of the NET block staged for the next NET_COMMIT (R9; reset none). -/
  netStage : List StageEntry := []
  /-- The two copies of the parameter store (R393; reset both invalid, DESIGN CHOICE, log 5). -/
  store : List StoreCopy := [{}, {}]
  /-- PARAM_DEFAULTS has marked the store (R393; reset 0). -/
  defaultsMark : Bool := false
  /-- Whether this boot loaded the store from a valid copy (R406; reset 0). -/
  loadedFromStore : Bool := false
  deriving DecidableEq, Repr, Inhabited

/-! ### Mailboxes (12, R372 to R386) -/

/-- MBX_CHSTAT.STATE (R373). -/
inductive ChanSt where
  | idle | busy | done
  deriving DecidableEq, Repr, Inhabited

/-- One mailbox channel (R372 to R386). -/
structure Chan where
  /-- MBX_CHSTAT.STATE (R373; reset IDLE). -/
  state : ChanSt := .idle
  /-- MBX_CHSTAT.OVERRUN (R373; reset 0). -/
  overrun : Bool := false
  /-- MBX_CHSTAT.LAST_STATUS, 16 bits (reset 0). -/
  lastStatus : Nat := 0
  /-- The message taken for execution: header and body (R376; reset empty). -/
  req : List Byte := []
  /-- The AON controller holds the request, which the data die has not taken (R382; reset 0). -/
  aonHeld : Bool := false
  /-- The last SEQ accepted, on MP, SMBus and Scrim channels (R379 to R381; reset none). -/
  lastSeq : Option Nat := none
  /-- The cached response (R379; reset empty). -/
  cached : List Byte := []
  /-- The MP credential, 32 bytes, empty when there is none (R379; reset none). -/
  credential : List Byte := []
  /-- The sender's address and port, or fabric address (R379, R381; reset 0). -/
  fromAddr : Nat := 0
  fromPort : Nat := 0
  /-- Values this channel has staged (R390; reset empty). -/
  stage : List StageEntry := []
  /-- The channel's bit in MBX_DONE (R373; reset 0). -/
  doneBit : Bool := false
  /-- The channel's bit in MBX_IRQ_EN (reset 0). -/
  irqEn : Bool := false
  /-- Clock cycle at which EV_MBX_AUTH_FAIL was last raised for the channel (R379; reset none). -/
  authTold : Option Nat := none
  /-- An EVENT_WAIT holds the channel (R396; reset 0). -/
  waiting : Bool := false
  deriving DecidableEq, Repr, Inhabited

/-- A background job (R383). -/
structure Job where
  num : Nat := 0
  opcode : Nat := 0
  running : Bool := true
  status : Nat := 0
  percent : Nat := 0
  /-- What the job is about: a namespace, a group, a bay or a slot. -/
  subject : Nat := 0
  arg : Nat := 0
  deriving DecidableEq, Repr, Inhabited

/-- A record of the event ring (R395). -/
structure EventRec where
  code : Nat := 0
  kind : Nat := 0
  unlocked : Bool := false
  subject : Nat := 0
  seq : Nat := 0
  ftime : Nat := 0
  detail : List Int := []
  deriving DecidableEq, Repr, Inhabited

/-- State of an image slot in the boot-selection record (R503). -/
inductive SlotSt where
  | invalid | standby | trial | active
  deriving DecidableEq, Repr, Inhabited

/-- One copy of the boot-selection record (R503). -/
structure BootRec where
  valid : Bool := false
  seq : Nat := 0
  stateA : SlotSt := .invalid
  stateB : SlotSt := .invalid
  attA : Nat := 0
  attB : Nat := 0
  deriving DecidableEq, Repr, Inhabited

/-- The open firmware update session (R397). -/
structure FwSession where
  chan : Nat := 0
  len : Nat := 0
  written : Nat := 0
  lastOff : Nat := 0
  lastLen : Nat := 0
  slotB : Bool := false
  deriving DecidableEq, Repr, Inhabited

/-- Firmware images, boot selection and SYS_BOOT (R397, R398, R503 to R507, R511). -/
structure FwState where
  /-- The image bytes in slot A and slot B of the SPI NOR (R504; reset empty, DESIGN CHOICE, log 5). -/
  imageA : List Byte := []
  imageB : List Byte := []
  /-- The two copies of the boot-selection record (R503; reset slot A ACTIVE in copy 0, DESIGN CHOICE, log 5). -/
  recs : List BootRec := [{ valid := true, seq := 1, stateA := .active }, {}]
  /-- The update session (R397; reset none). -/
  session : Option FwSession := none
  /-- SYS_BOOT.SLOT (R511; reset 0). -/
  runB : Bool := false
  /-- SYS_BOOT.RECOVERY (R507; reset 0). -/
  recovery : Bool := false
  /-- SYS_BOOT.FALLBACK (R506; reset 0). -/
  fallback : Bool := false
  /-- SYS_BOOT.REASON, 3 bits (R511; reset 0). -/
  reason : Nat := 0
  /-- An image has been started and the data die's firmware runs (R506; reset 0). -/
  running : Bool := false
  /-- The boot in progress follows a trial that gave up (R398; reset 0). -/
  trialGaveUp : Bool := false
  /-- Primer has halted: RETIRED (R505; reset 0). -/
  halted : Bool := false
  deriving DecidableEq, Repr, Inhabited

/-- Mailbox engine, event ring and firmware (12). -/
structure MbxState where
  /-- The 64 channels (R372; reset each IDLE). -/
  chans : List Chan := List.replicate 64 {}
  /-- The 512 KiB of BAR2: request and response areas (R372; reset content DESIGN CHOICE zero, log 5). -/
  bar2 : Memory := []
  /-- Channels whose requests core 0 has taken and not answered, in command order (R383; reset none). -/
  order : List Nat := []
  /-- Jobs since data-die reset (R383; reset none). -/
  jobs : List Job := []
  /-- The next job number, 16 bits (R383; reset 1, log 5). -/
  nextJob : Nat := 1
  /-- The event ring, oldest first, at most 8,192 records (R395; reset empty). -/
  events : List EventRec := []
  /-- SEQ of the newest event, 64 bits; EVT_HEAD (R395; reset 0). -/
  evtHead : Nat := 0
  /-- EVT_CTRL.IRQ_EN (reset 0). -/
  evtIrqEn : Bool := false
  /-- An event-ring message has been sent since the host last read EVT_HEAD_LO (R416; reset 0). -/
  evtSent : Bool := false
  /-- Counters mbx.area_drops, mbx.auth_fail, mbx.requests, mbx.jobs, 64 bits (R399; reset 0). -/
  areaDrops : Nat := 0
  authFail : Nat := 0
  requests : Nat := 0
  jobsRun : Nat := 0
  deriving DecidableEq, Repr, Inhabited

/-! ### Attached-host endpoint (13) -/

/-- A translation entry of the peer window (R408). -/
structure WinEntry where
  valid : Bool := false
  write : Bool := false
  /-- LENGTH, 9 bits, in 4 KiB pages. -/
  len : Nat := 0
  /-- TARGET, on-chip address bits [26:12] as a page number. -/
  target : Nat := 0
  deriving DecidableEq, Repr, Inhabited

/-- An MSI-X table entry (R416). -/
structure MsixEntry where
  addr : Nat := 0
  data : Nat := 0
  mask : Bool := true
  pending : Bool := false
  deriving DecidableEq, Repr, Inhabited

/-- PCIe power state of the endpoint (R418). -/
inductive DState where
  | d0 | d3hot | d3cold
  deriving DecidableEq, Repr, Inhabited

/-- Configuration space fields that software writes (R403, R405, PCIe). -/
structure EpConfig where
  /-- Command register, 16 bits (PCIe; reset 0). -/
  command : Nat := 0
  /-- BAR0, BAR2 and BAR4 address bits (R405; reset 0). -/
  bar0 : Nat := 0
  bar2 : Nat := 0
  bar4 : Nat := 0
  /-- PMCSR.PME_En and PME_Status (R418, R419; reset 0). -/
  pmeEn : Bool := false
  pmeStatus : Bool := false
  /-- MSI-X Message Control: enable and function mask (R417; reset 0). -/
  msixEn : Bool := false
  funcMask : Bool := false
  /-- PCI Express Device Control, 16 bits (R402, PCIe; reset 0, DESIGN CHOICE, log 135). -/
  devCtl : Nat := 0
  /-- AER Correctable Error Status: an advisory non-fatal error was reported (R409; reset 0). -/
  advisory : Bool := false
  deriving DecidableEq, Repr, Inhabited

/-- Endpoint state (R402 to R424). -/
structure EpState where
  /-- EP_STATUS.LINK_UP (reset 0). -/
  linkUp : Bool := false
  /-- EP_STATUS.SPEED, 3 bits (reset 0). -/
  speed : Nat := 0
  /-- EP_STATUS.WIDTH, 5 bits (reset 0). -/
  width : Nat := 0
  /-- EP_STATUS.CFG_READY (R404; reset 0). -/
  cfgReady : Bool := false
  /-- EP_STATUS.DSTATE (R418; reset D0). -/
  dstate : DState := .d0
  /-- EP_STATUS.BAR4, 3 bits: size code latched (R406; reset 2). -/
  bar4Code : Nat := 2
  /-- BAR4's size has been latched since the last fundamental reset (R406; reset 0). -/
  bar4Held : Bool := false
  /-- EP_PERST_N is asserted (R420; reset asserted, DESIGN CHOICE, log 5). -/
  perst : Bool := true
  /-- Configuration space (R403; reset as PCIe). -/
  cfg : EpConfig := {}
  /-- Shadow bank, 128 entries (R408; reset VALID 0). -/
  shadow : List WinEntry := List.replicate 128 {}
  /-- Active bank, 128 entries (R408; reset VALID 0). -/
  active : List WinEntry := List.replicate 128 {}
  /-- EP_WIN_STATUS.EPOCH, 16 bits (R410; reset 0). -/
  epoch : Nat := 0
  /-- EP_WIN_STATUS.PENDING (R412; reset 0). -/
  winPending : Bool := false
  /-- An access has been translated under the current epoch and may still be in progress (R412; reset 0). -/
  accessed : Bool := false
  /-- EP_WIN_STATUS.REFUSED (R410; reset 0). -/
  refused : Bool := false
  /-- EP_WIN_STATUS.ERR_ENTRY, 7 bits (R410; reset 0). -/
  errEntry : Nat := 0
  /-- EP_WIN_ERR_ADDR, 27 bits, and WRITE (R409; reset 0). -/
  errAddr : Nat := 0
  errWrite : Bool := false
  /-- EP_WIN_ERR_COUNT, 32 bits saturating (R409; reset 0). -/
  errCount : Nat := 0
  /-- EP_EVT, 3 bits: WIN_FAULT, RESET, PME (reset 0). -/
  evt : Nat := 0
  /-- EP_DMAQ_CFG.RO_EN, 8 bits (R415; reset 0). -/
  roEn : Nat := 0
  /-- The vector of each of the 74 sources (R416; reset the default vectors). -/
  irqMap : List Nat := (List.range 64).map (· % 32) ++ [32, 33] ++ (List.range 8).map (40 + ·)
  /-- The MSI-X table, 64 entries (R416; reset masked, as PCIe gives). -/
  msix : List MsixEntry := List.replicate 64 {}
  /-- The eight DMA queues are paused (R415, R418, R420; reset 0). -/
  dmaPaused : Bool := false
  /-- WAKE# is driven low (R419; reset 0). -/
  wakeLow : Bool := false
  /-- PME_En at entry to D3cold (R418; reset 0). -/
  pmeAtCold : Bool := false
  /-- Clock cycle at which EV_EP_WINDOW_FAULT was last raised (R409; reset none). -/
  faultTold : Option Nat := none
  /-- Host exchange area, 1 MiB at on-chip 0x07F0_0000 (R407; reset content DESIGN CHOICE zero, log 5). -/
  exchange : Memory := []
  deriving DecidableEq, Repr, Inhabited

end Sys2Proof.Machine
end

