-- ==== Sys2Proof/Machine/State.lean ====
section
/-! DEFINITION. The state of the block, the reasons a step can stop, and the state right after reset. -/

namespace Sys2Proof.Machine

/-- Why the machine stops. No rule of the spec stops the block, so nothing raises a fault: the type has no
constructor. -/
inductive Fault where
  deriving DecidableEq, Repr

/-- Why a command has no meaning. -/
inductive Refusal where
  /-- Raised by an arm of Dispatch.lean whose command is not modelled yet. Safe: the model stops. -/
  | notModelled (mnemonic : String)
  deriving DecidableEq, Repr

/-- Everything the spec gives the controller, and the model's own queue, output record and counters. -/
structure State where
  /-- Commands waiting, first in, first out (the model's own; reset empty). -/
  pending : List Instr := []
  /-- Everything that has left the block, oldest first (the model's own, log 2; reset empty). -/
  out : List Output := []
  /-- Counter of free values drawn (the model's own, log 3; reset 0, DESIGN CHOICE). -/
  free : Nat := 0
  /-- Cycles of 1.6 GHz since reset, the model's measure of real time (log 1; reset 0). -/
  clock : Nat := 0
  /-- System block and on-package link (01). -/
  sys : SysState := {}
  /-- TIME block: time, servo and sources (02). -/
  time : TimeState := {}
  /-- TIME block: registers and schedule bookkeeping (02). -/
  tregs : TimeRegs := {}
  /-- Parameters (12). -/
  par : ParamState := {}
  /-- Mailboxes and event ring (12). -/
  mbx : MbxState := {}
  /-- Firmware images and boot (12, 16). -/
  fw : FwState := {}
  /-- Attached-host endpoint (13). -/
  ep : EpState := {}
  /-- Bay power and feeds (14). -/
  pwr : PwrState := {}
  /-- Modes, wake, island time, core voltage (15). -/
  mode : ModeState := {}
  /-- Black box (16). -/
  bbx : BbxState := {}
  /-- OTP and fuses (16). -/
  fuse : FuseState := {}
  /-- Power-fail flush (16). -/
  flush : FlushState := {}
  /-- Pins and resets (17). -/
  pins : PinState := {}
  /-- The six stripe groups (08, 10). -/
  groups : List Group := List.replicate 6 {}
  /-- Bay links, flash operations, dies, staging and Hawk (04, 06, 07). -/
  flash : FlashState := {}
  /-- The host service (03). -/
  host : HostState := {}
  /-- Ethernet ports and switch core (09). -/
  net : NetState := {}
  /-- The Scrim fabric (10). -/
  scrim : ScrimState := {}
  /-- The witness table of the AON controller (10). -/
  wit : WitState := {}
  /-- Keying and the cipher engine (11). -/
  ciph : CiphState := {}
  deriving DecidableEq, Repr, Inhabited

/-- The block right after reset: every register at the value its table gives, straps not yet sampled, PWRON_RST_N
still low (log 5). -/
def State.reset : State := {}

end Sys2Proof.Machine
end

