-- ==== Sys2Proof/Machine/Params.lean ====
section
/-! DEFINITION. Parameter values: the value and GEN in effect of a parameter number (R387 to R390). -/

namespace Sys2Proof.Machine

/-- The table row that covers a parameter number, and the index within it (R387). -/
def paramRow (num : Nat) : Option (ParamRow × Nat) :=
  match paramRows.find? fun r => r.base ≤ num && num < r.base + r.count with
  | some r => some (r, num - r.base)
  | none => none

/-- The default of index `i` of a row. -/
def rowDefault (r : ParamRow) (i : Nat) : Int :=
  match r.defaults.find? fun d => i < d.1 with
  | some d => d.2
  | none => 0

/-- The default value of a parameter number, 0 for a number that no table has. -/
def paramDefault (num : Nat) : Int :=
  match paramRow num with
  | some (r, i) => rowDefault r i
  | none => 0

/-- The value in effect of a parameter (R389 PARAM_GET). -/
def State.param (s : State) (num : Nat) : Int :=
  match s.par.vals.find? fun v => v.num == num with
  | some v => v.val
  | none => paramDefault num

/-- The value in effect of an unsigned, enum or bitmask parameter. -/
def State.paramN (s : State) (num : Nat) : Nat := (s.param num).toNat

/-- The GEN of a parameter (R390). -/
def State.paramGen (s : State) (num : Nat) : Nat :=
  match s.par.vals.find? fun v => v.num == num with
  | some v => v.gen
  | none => 1

/-- The override list with one number's entry set. -/
def setParamIn (l : List ParamVal) (v : ParamVal) : List ParamVal :=
  v :: l.filter fun x => x.num != v.num

/-- A value takes effect (the GEN is given apart, since a commit raises it before the value applies, R391). -/
def State.putParam (s : State) (num : Nat) (val : Int) (gen : Nat) : State :=
  { s with par := { s.par with vals := setParamIn s.par.vals { num := num, val := val, gen := gen } } }

/-- An accepted change of a LIVE or QUIESCE parameter: the value takes effect and GEN rises by 1 (R390, R533). -/
def State.changeParam (s : State) (num : Nat) (val : Int) : State :=
  s.putParam num val ((s.paramGen num + 1) % 2 ^ 32)

end Sys2Proof.Machine
end

