-- ==== Sys2Proof/Machine/Ops.lean ====
section
/-! DEFINITION. The shared operations of the block: time as it reads, free values, what leaves the block, interrupts, mailbox messages,
roles. -/

namespace Sys2Proof.Machine

/-! ### Free values and outputs -/

/-- A fresh open number: the spec gives an effect and not this value (log 3). -/
def State.freeNat (s : State) : Nat := Config.freeNat s.free

/-- The state after one free value has been drawn. -/
def State.drew (s : State) : State := { s with free := s.free + 1 }

/-- Something leaves the block. -/
def State.emit (s : State) (o : Output) : State := { s with out := s.out ++ [o] }

/-! ### Time as it reads -/

/-- Fabric time in ns (R33). -/
def State.nowNs (s : State) : Nat := s.time.fab / 2 ^ 32

/-- Real time in µs since reset, at 1,600 cycles each. -/
def State.micros (s : State) : Nat := s.clock / 1600

/-- The 16 MHz tick of the AON controller: 100 cycles each. -/
def State.aonTick (s : State) : Nat := s.clock / 100

/-- The frame period in ns (R35, R54; an enum of 250, 500, 1000, 2000, 4000 µs). -/
def State.period (s : State) : Nat := 250000 * 2 ^ s.paramN 0x1010

/-- Frames per turn (R35, R54). -/
def State.fpt (s : State) : Nat := s.paramN 0x1011

/-- Frame number of a fabric time (R35). -/
def frameOf (p t : Nat) : Nat := t / p

/-- Slot number of a fabric time (R35). -/
def slotOf (p t : Nat) : Nat := t % p * 64 / p

/-- Turn number of a fabric time (R35). -/
def turnOf (p f t : Nat) : Nat := t / p / f

/-- The current frame, slot and turn number. -/
def State.frameNow (s : State) : Nat := frameOf s.period s.nowNs
def State.slotNow (s : State) : Nat := slotOf s.period s.nowNs
def State.turnNow (s : State) : Nat := turnOf s.period s.fpt s.nowNs

/-- The island counter: 48 bits at 32.768 kHz since VAON was last lost (R472). -/
def State.island (s : State) : Nat := (s.clock - s.mode.islZero) * 32768 / 1600000000 % 2 ^ 48

/-- At least `us` µs have passed since clock cycle `last` (true when there was none): "at most once per ...". -/
def State.passed (s : State) (last : Option Nat) (us : Nat) : Bool :=
  match last with
  | none => true
  | some c => decide (c + us * 1600 ≤ s.clock)

/-- The controller's own lifecycle: the highest blown group (R500): 0 BLANK, 1 PROVISIONED, 2 DEPLOYED, 3 RETIRED. A
majority group of 8 fuses counts as blown when 5 or more read 1 (R499). -/
def blown (g : Nat) : Bool := decide (5 ≤ ((List.range 8).filter fun i => g.testBit i).length)

def FuseState.lifecycle (f : FuseState) : Nat :=
  if blown f.retired then 3 else if blown f.deployed then 2 else if blown f.provisioned then 1 else 0

/-- The rollback counter: fuses blown from bit 432 upward (R499). -/
def FuseState.rollbackCount (f : FuseState) : Nat :=
  ((List.range 128).takeWhile fun i => f.rollback.testBit i).length

/-- The data die runs firmware, or Primer in recovery. -/
def State.ddRuns (s : State) : Bool := !s.pins.ddReset && s.fw.running

/-- The data die runs firmware. In recovery it serves its few mailbox commands and nothing else (R507). -/
def State.ddUp (s : State) : Bool := s.ddRuns && !s.fw.recovery

/-! ### MSI-X, PME (R416 to R419) -/

/-- One rise of an interrupt source: a message on its vector, or the vector's pending bit while the vector or the
function is masked or the endpoint is in D3hot (R417, R418); lost in D3cold. -/
def irqRise (src : Nat) (s : State) : State :=
  let v := nth s.ep.irqMap src
  let e := nth s.ep.msix v
  if s.ep.dstate = .d3cold then s
  else if e.mask || s.ep.cfg.funcMask || !s.ep.cfg.msixEn || s.ep.dstate = .d3hot then
    { s with ep := { s.ep with msix := upd s.ep.msix v fun e => { e with pending := true } } }
  else s.emit (.msix v e.addr e.data)

/-- A PME is raised in D3hot or D3cold (R419). -/
def pmeRaise (s : State) : State :=
  match s.ep.dstate with
  | .d0 => s
  | .d3hot =>
    let s := { s with ep := { s.ep with evt := setBit s.ep.evt 2, cfg := { s.ep.cfg with pmeStatus := true } } }
    if s.ep.cfg.pmeEn then s.emit .pme else s
  | .d3cold =>
    { s with ep := { s.ep with evt := setBit s.ep.evt 2, cfg := { s.ep.cfg with pmeStatus := true },
                               wakeLow := s.ep.wakeLow || s.ep.pmeAtCold } }

/-- What a memory write of the attached host to BAR0 or BAR2 does: in D3hot it is dropped, and in D3cold there is none (R418). -/
def State.hostWrite (s t : State) : State := if s.ep.dstate = .d0 then t else s

/-- What a memory read of a BAR0 offset does: in D3hot it completes as Unsupported Request (R418). -/
def State.hostRead (s : State) (off : Nat) (t : State) : State :=
  match s.ep.dstate with
  | .d0 => t
  | .d3hot => s.emit (.bar0Ur off)
  | .d3cold => s

/-! ### Mailbox messages (R376) -/

/-- Transport of a channel: 0 NONE, 1 BAR2, 2 MP, 3 SMBUS, 4 SCRIM (R378). -/
def State.transport (s : State) (c : Nat) : Nat := s.paramN (0x1100 + c)

/-- Privilege of a channel: 0 OBSERVER, 1 OPERATOR, 2 CUSTODIAN (R378). -/
def State.privilege (s : State) (c : Nat) : Nat := s.paramN (0x1140 + c)

/-- Fields of a request header (R376). -/
def reqOpcode (m : List Byte) : Nat := leAt m 0 2
def reqChannel (m : List Byte) : Nat := bits (leAt m 2 1) 0 6
def reqPriv (m : List Byte) : Nat := bits (leAt m 3 1) 0 2
def reqSeq (m : List Byte) : Nat := leAt m 4 4
def reqLength (m : List Byte) : Nat := leAt m 8 2
def reqCookie (m : List Byte) : Nat := leAt m 16 8

/-- The body of a request: LENGTH bytes from byte 32. -/
def reqBody (m : List Byte) : List Byte := slice m 32 (reqLength m)

/-- Reserved header bits are zero and RESP is 0 (R376, R377 check 1). -/
def reqHeaderClean (m : List Byte) : Bool :=
  bits (leAt m 2 1) 6 2 == 0 && bits (leAt m 3 1) 2 6 == 0 && leAt m 10 2 == 0 && leAt m 12 4 == 0 && leAt m 24 8 == 0

/-- A response: header and body (R376). -/
def response (m : List Byte) (c priv status detail : Nat) (body : List Byte) : List Byte :=
  leBytes 2 (reqOpcode m) ++ leBytes 1 c ++ leBytes 1 (priv + 128) ++ leBytes 4 (reqSeq m) ++ leBytes 2 body.length ++
    leBytes 2 status ++ leBytes 4 detail ++ leBytes 8 (reqCookie m) ++ leBytes 8 0 ++ body

/-- The AES-256-CMAC of a message under a channel's credential (R379). -/
def messageMac (cred m : List Byte) : List Byte := Aes.toBytes (Aes.cmac (Aes.ofBytes cred) (Aes.ofBytes m))

/-- A channel changed. -/
def State.modChan (s : State) (c : Nat) (f : Chan → Chan) : State :=
  { s with mbx := { s.mbx with chans := upd s.mbx.chans c f } }

/-- A channel read. -/
def State.chan (s : State) (c : Nat) : Chan := nth s.mbx.chans c

/-- BAR2 with one 4 KiB area replaced by a message and zeros. -/
def writeArea (m : Memory) (off : Nat) (bs : List Byte) : Memory :=
  Memory.writeN (m.filter fun cell => cell.1 < off || off + 4096 ≤ cell.1) off (bs.take 4096)

/-! ### Roles -/

/-- The role for a group (R325). -/
def State.role (s : State) (g : Nat) : Role := (nth s.groups g).role

/-- A role in which the controller counts as the group's owner for its mode (R31, R325). -/
def Role.owns : Role → Bool
  | .owner | .handingOver => true
  | _ => false

/-- The controller holds an owner or partner role for some group. -/
def State.hasRole (s : State) : Bool := s.groups.any fun g => g.role ≠ .none

/-- The controller owns some group. -/
def State.ownsAny (s : State) : Bool := s.groups.any fun g => g.role.owns

/-- The groups the controller owns, in group order. -/
def State.ownedGroups (s : State) : List Nat := (List.range 6).filter fun g => (s.role g).owns

end Sys2Proof.Machine
end

