-- ==== Sys2Proof/Machine/Layout.lean ====
section
/-! DEFINITION. Group unit addresses, stripe layout, bands, substitution, lost extents: where every unit lies (R143 to
R152, R233, R266). -/

namespace Sys2Proof.Machine

/-! ### Groups and bands -/

/-- A group read and changed. -/
def State.group (s : State) (g : Nat) : Group := nth s.groups g

def State.modGroup (s : State) (g : Nat) (f : Group → Group) : State := { s with groups := upd s.groups g f }

/-- The group's width W. -/
def Group.w (g : Group) : Nat := g.members.length

/-- Data units per stripe, 4 × (W - 1); stripes per band, D × P; data units per band (R144). -/
def Group.perStripe (g : Group) : Nat := 4 * (g.w - 1)
def Group.stripesPerBand (g : Group) : Nat := g.dies * g.positions
def Group.bandUnits (g : Group) : Nat := g.perStripe * g.stripesPerBand

/-- The number of band bases, B = min(N, 16,382) - S (R152). -/
def Group.bases (g : Group) : Nat := Nat.min g.blocks 16382 - g.spares

/-- A band record: a band that no record names is FREE and fresh. -/
def Group.band (g : Group) (n : Nat) : Band :=
  match g.bands.find? fun b => b.num == n with
  | some b => b
  | none => { num := n }

/-- A band record changed. -/
def Group.modBand (g : Group) (n : Nat) (f : Band → Band) : Group :=
  { g with bands := f (g.band n) :: g.bands.filter fun b => b.num != n }

/-- Every band number of the group: the bases, and the spare-formed bands on record. -/
def Group.bandNums (g : Group) : List Nat :=
  List.range g.bases ++ (g.bands.filter fun b => g.bases ≤ b.num).map Band.num

/-- FREE bands, F (R165). -/
def Group.freeBands (g : Group) : List Nat := g.bandNums.filter fun n => (g.band n).st == .free

/-- Bay of a member, and the member in a bay. -/
def Group.bayOf (g : Group) (m : Nat) : Nat := (nth g.members m).bay
def Group.memberIn (g : Group) (bay : Nat) : Option Nat := lowest (fun m => g.bayOf m == bay) g.w

def Group.member (g : Group) (m : Nat) : Member := nth g.members m
def Group.modMember (g : Group) (m : Nat) (f : Member → Member) : Group := { g with members := upd g.members m f }

/-- The group and member that a bay serves, if any. -/
def State.bayMember (s : State) (bay : Nat) : Option (Nat × Nat) :=
  (List.range 6).findSome? fun g =>
    if (s.group g).formed then ((s.group g).memberIn bay).map fun m => (g, m) else none

/-! ### Group unit addresses (R143, R144) -/

def guaBand (gua : Nat) : Nat := gua / 2 ^ 26
def guaDu (gua : Nat) : Nat := gua % 2 ^ 26
def mkGua (band du : Nat) : Nat := band * 2 ^ 26 + du

/-- Parity member of stripe q, member of data chunk j, and the role of a member (R233). -/
def Group.parityMember (g : Group) (q : Nat) : Nat := (g.w - 1) - q % g.w
def Group.dataMember (g : Group) (q j : Nat) : Nat := (g.parityMember q + 1 + j) % g.w
def Group.roleOf (g : Group) (q m : Nat) : Nat := (m + q) % g.w

/-- The stripe of a DU and the unit's index within the stripe. -/
def Group.stripeOf (g : Group) (du : Nat) : Nat := du / g.perStripe
def Group.indexOf (g : Group) (du : Nat) : Nat := du % g.perStripe

/-- Where a GUA lies (R144). -/
def Group.placeOf (g : Group) (gi gua : Nat) : Place :=
  let du := guaDu gua
  let q := g.stripeOf du
  { g := gi, band := guaBand gua, q, member := g.dataMember q (g.indexOf du / 4), u := du % 4 }

/-- The GUA of a place; none for a parity unit. -/
def Group.guaOf (g : Group) (p : Place) : Option Nat :=
  let j := g.roleOf p.q p.member
  if j = g.w - 1 then none else some (mkGua p.band (p.q * g.perStripe + 4 * j + p.u))

/-- Die index and chunk position of a stripe (R144). -/
def Group.dieOf (g : Group) (q : Nat) : Nat := q % g.dies
def Group.rowOf (g : Group) (q : Nat) : Nat := q / g.dies

/-- Block and position of chunk position r of a band on (member, die): the DATA entry with the greatest FROM not above
r, else the base block (R152). -/
def Band.blockAt (b : Band) (m k r : Nat) : Nat × Nat :=
  let es := b.subst.filter fun e => !e.parity && e.member == m && e.die == k && e.start ≤ r
  match es.foldl (fun (a : Option Subst) e => match a with
      | none => some e
      | some x => if x.start ≤ e.start then some e else some x) none with
  | some e => (e.block, r - e.start)
  | none => (b.num, r)

/-- Block and page of a place. -/
def Group.blockPage (g : Group) (p : Place) : Nat × Nat :=
  let (blk, r) := (g.band p.band).blockAt p.member (g.dieOf p.q) (g.rowOf p.q)
  (blk, 4 * r + p.u)

/-! ### Spares (R152, R160, R164, R250) -/

/-- The anchor blocks of a member: the highest two spares of die 0. The journal sets: the highest two spares of dies 1
to 64 (R152, R250). -/
def Group.topBlock (g : Group) : Nat := g.blocks - 1

/-- A block of a die that is kept for anchors or journal sets. -/
def Group.kept (g : Group) (die block : Nat) : Bool := die ≤ 64 && (block == g.topBlock || block + 1 == g.topBlock)

/-- The spare blocks of (member, die) that are free: not kept, not in use, not retired; with the good blocks of RETIRED bands (R153). A
dead die has none (R235). -/
def Group.freeSpares (g : Group) (m die : Nat) : List Nat :=
  let mb := g.member m
  let own := (List.range (g.blocks - g.bases)).map (g.bases + ·)
  if mb.dead.contains die then [] else ((mb.joined.filter fun p => p.1 == die).map Prod.snd ++ own).filter fun b =>
    !g.kept die b && !mb.used.contains (die, b) && !mb.retired.contains (die, b)

/-! ### Members and stripes (R234) -/

/-- The group's members count as its owner's: a member has accepted the epoch in use, and so has every current one (R226). -/
def Group.accepted (g : Group) (m : Nat) : Bool :=
  g.epoch != 0 && (g.member m).accepted == g.epoch && g.members.all fun x => x.st != .current || x.accepted == g.epoch

/-- The member is present: not missing. -/
def Group.presentMember (g : Group) (m : Nat) : Bool := (g.member m).st != .missing

/-- A stripe was formed with the target in place, so it is current on it at once (R234). -/
def Group.formedOn (g : Group) (m band q : Nat) : Bool :=
  (g.member m).newFrom.any fun p => p.1 == band && decide (p.2 ≤ q)

/-- A target or returning member has already rebuilt a stripe of a band (R234, R261). -/
def Group.rebuiltAt (g : Group) (m band q : Nat) : Bool :=
  let mb := g.member m
  !mb.todo.contains band || g.formedOn m band q ||
    mb.rows.any fun r => r.1 == band && r.2.1 == g.dieOf q && decide (g.rowOf q < r.2.2)

/-- The member is current for a stripe (R234). -/
def Group.currentAt (g : Group) (m band q : Nat) : Bool :=
  match (g.member m).st with
  | .current => true
  | .missing => false
  | _ => g.rebuiltAt m band q

/-- A member takes its chunk of a stripe being formed (R234). -/
def Group.takes (g : Group) (m band q : Nat) : Bool := g.currentAt m band q

/-- Members not current for every stripe. -/
def Group.notCurrent (g : Group) : List Nat := (List.range g.w).filter fun m => (g.member m).st != .current

/-- Die indices that are dead on some member: bands opened from now on leave them out (R235). -/
def Group.deadDies (g : Group) : List Nat := ((List.range g.w).map fun m => (g.member m).dead).flatten.eraseDups

/-! ### Lost extents (R266) -/

/-- An entry covers a data unit. -/
def LostEntry.covers (g : Group) (e : LostEntry) (gua : Nat) : Bool :=
  guaBand gua == guaBand e.start &&
    if e.striped then
      let q := g.stripeOf (guaDu gua)
      let q0 := guaDu e.start
      decide (q0 ≤ q) && (q - q0) % e.stride == 0 && decide ((q - q0) / e.stride < e.count) &&
        g.dataMember q (g.indexOf (guaDu gua) / 4) == e.member
    else decide (guaDu e.start ≤ guaDu gua) && decide (guaDu gua < guaDu e.start + e.count)

/-- A unit is in the lost-extent list (R267). -/
def Group.isLost (g : Group) (gua : Nat) : Bool := g.lost.any fun e => e.covers g gua

/-- A stripe was declared lost by a second failure (R264). -/
def Group.stripeLost (g : Group) (band q : Nat) : Bool := g.lost.any fun e =>
  let q0 := guaDu e.start
  e.striped && e.cause == 1 && guaBand e.start == band && decide (q0 ≤ q) && (q - q0) % e.stride == 0 &&
    decide ((q - q0) / e.stride < e.count)

/-- Its cause, 0 when it is not lost. -/
def Group.lostCause (g : Group) (gua : Nat) : Nat :=
  match g.lost.find? fun e => e.covers g gua with
  | some e => e.cause
  | none => 0

/-! ### Turns (R182) -/

/-- The member that may program or erase at die index k in turn t (R182). -/
def Group.busyMember (g : Group) (k t : Nat) : Nat := (k + t) % g.w

/-- Turn length in ns (R35), and the end of the current turn in fabric ns. -/
def State.turnLen (s : State) : Nat := s.period * s.fpt
def State.turnEnd (s : State) : Nat := (s.turnNow + 1) * s.turnLen

/-- The effective guard in ns (R184). -/
def State.guardNs (s : State) : Nat :=
  let g := s.paramN 0x4001 * 1000
  if s.time.servo = .slewing then Nat.max g (s.paramN 0x1017 * s.turnLen / 1000000) else g

/-! ### Bays -/

def State.bay (s : State) (n : Nat) : Bay := nth s.flash.bays n
def State.modBay (s : State) (n : Nat) (f : Bay → Bay) : State :=
  { s with flash := { s.flash with bays := upd s.flash.bays n f } }

/-- The descriptor of the module in a bay; every time is 0 when there is none. -/
def State.desc (s : State) (n : Nat) : Descriptor := (s.bay n).desc.getD {}

/-- The bay's module supports erase suspend for its group: FLAGS, and ERASE_HOLD_MS long enough (R212). -/
def State.eraseSuspendOk (s : State) (bay w : Nat) : Bool :=
  let d := s.desc bay
  d.flags.testBit 1 && decide (w * s.turnLen / 1000 + d.tEraseMax ≤ d.eraseHoldMs * 1000)

/-- The descriptor fits the turn length (R187). -/
def State.descFits (s : State) (bay w : Nat) : Bool :=
  let d := s.desc bay
  let l := s.turnLen / 1000
  decide (d.tProgMax + s.paramN 0x4001 ≤ l) && (s.eraseSuspendOk bay w || decide (d.tEraseMax + s.paramN 0x4001 ≤ l))

end Sys2Proof.Machine
end

