-- ==== Sys2Proof/Machine/Keying.lean ====
section
/-! DEFINITION. Keying: key slots, context labels, derivation, the derived-key cache (R346 to R355, R360, R365). -/

namespace Sys2Proof.Machine

def State.modCiph (s : State) (f : CiphState → CiphState) : State := { s with ciph := f s.ciph }

/-! ### Labels (R349, R350) -/

/-- The 32 bytes of a slot's label. -/
def State.label (s : State) (slot : Nat) : List Byte :=
  match s.ciph.labels.find? fun l => l.slot == slot with
  | some l => l.bytes
  | none => List.replicate 32 0

/-- A label from its fields. -/
def mkLabel (purpose valid index gen subject : Nat) (context : List Byte) : List Byte :=
  leBytes 1 purpose ++ leBytes 1 valid ++ leBytes 2 index ++ leBytes 4 gen ++ leBytes 8 subject ++ padTo 16 context

def labelPurpose (b : List Byte) : Nat := leAt b 0 1
def labelValid (b : List Byte) : Bool := bit (leAt b 1 1) 0
def labelIndex (b : List Byte) : Nat := leAt b 2 2
def labelGen (b : List Byte) : Nat := leAt b 4 4
def labelSubject (b : List Byte) : Nat := leAt b 8 8

/-- Purpose of a slot, 0 for a reserved one (R350). -/
def slotPurpose (slot : Nat) : Nat :=
  if slot < 1024 then 1 else if slot < 2048 then 2 else if slot < 3072 then 3 else if slot = 3072 then 4
  else if slot = 3073 then 5 else if slot = 3074 then 6 else if 3076 ≤ slot && slot < 3084 then 7 else 0

/-- Output bits of a purpose (R350). -/
def purposeBits (p : Nat) : Nat := if p = 1 then 512 else if p = 3 then 384 else if p = 7 then 288 else 256

/-- A label is written, and the slot's cache entry goes (R354). -/
def setLabel (slot : Nat) (b : List Byte) (s : State) : State :=
  s.modCiph fun c => { c with labels := { slot, bytes := padTo 32 b } :: c.labels.filter fun l => l.slot != slot,
                              cache := c.cache.filter fun e => e.1 != slot }

/-! ### Derivation (R352, R353) -/

/-- The lifecycle lets keys be used: PROVISIONED or DEPLOYED (R346). -/
def State.keyed (s : State) : Bool := s.fuse.lifecycle == 1 || s.fuse.lifecycle == 2

/-- Keying derives: ROOT_OK, self-test passed, lifecycle PROVISIONED or DEPLOYED (R346, R348, R368). -/
def State.derives (s : State) : Bool := s.ciph.keying && s.ciph.rootOk && s.keyed

/-- Block i of the KDF in counter mode (R352). -/
def kdfBlock (root : List Nat) (label : List Byte) (bits_ i : Nat) : List Nat :=
  Aes.cmac root (Aes.ofBe 4 i ++ Aes.ofBytes (asciiBytes "DWKY") ++ [0] ++ Aes.ofBytes label ++ Aes.ofBe 4 bits_)

/-- The working key of a label: its leftmost L bits. -/
def deriveKey (root : Nat) (label : List Byte) (bits_ : Nat) : List Nat :=
  (((List.range (ceilDiv bits_ 128)).map fun i => kdfBlock (Aes.ofLe 32 root) label bits_ (i + 1)).flatten).take (bits_ / 8)

/-- The working key of a slot for a purpose: none when the slot is empty, of another purpose, or its key is not in the cache and
cannot be derived (R346, R348, R350, R353, R369). -/
def State.workingKey (s : State) (slot purpose : Nat) : Option (List Nat) :=
  let l := s.label slot
  if !(s.derives || (s.keyed && s.ciph.cache.contains (slot, labelGen l))) || slotPurpose slot ≠ purpose || !labelValid l || labelPurpose l ≠ purpose then none
  else
    let k := deriveKey s.fuse.root l (purposeBits purpose)
    if purpose = 1 && k.take 32 == k.drop 32 then none else some k

/-- Status of a request for a slot's key, in the codes of R369, with the GEN that it carries: 2 EMPTY_SLOT, 3 PURPOSE, 1 RETIRED,
5 KEY_FAULT, 0 OK (R350, R353, R361). Which one counts when several apply the spec leaves open: the first in this order
(DESIGN CHOICE, log 45). -/
def State.keyStatus (s : State) (slot purpose gen : Nat) : Nat :=
  let l := s.label slot
  if slotPurpose slot = 0 || !labelValid l then 2
  else if slotPurpose slot ≠ purpose || labelPurpose l ≠ purpose then 3
  else if labelGen l ≠ gen then 1
  else if (s.workingKey slot purpose).isNone then 5 else 0

/-- The XTS key (64 bytes) and the GMAC key of a namespace; none when it has none in force. -/
def State.nsKeys (s : State) (nsx : Nat) : Option (List Nat × List Nat) :=
  match s.workingKey nsx 1, s.workingKey (1024 + nsx) 2 with
  | some x, some g => some (x, g)
  | _, _ => none

/-! ### The derived-key cache (R354) -/

/-- A slot whose entry stays resident: PAD and WITNESS. -/
def residentSlot (slot : Nat) : Bool := slot == 3072 || slot == 3073

/-- The least recently used entry that may be replaced leaves. -/
def evictKey (c : List (Nat × Nat)) : List (Nat × Nat) :=
  match (c.reverse.find? fun e => !residentSlot e.1) with
  | some v => c.filter (· != v)
  | none => c

/-- A request uses a slot's key: a hit moves its entry to the front, a miss derives it (R354). -/
def useKey (slot : Nat) (s : State) : State :=
  let e := (slot, labelGen (s.label slot))
  if s.ciph.cache.contains e then
    s.modCiph fun c => { c with cache := e :: c.cache.filter (· != e), ctrs := { c.ctrs with hits := c.ctrs.hits + 1 } }
  else if !s.derives then s.modCiph fun c => { c with ctrs := { c.ctrs with misses := c.ctrs.misses + 1 } }
  else
    s.modCiph fun c =>
      { c with cache := e :: (if c.cache.length < 256 then c.cache else evictKey c.cache)
               ctrs := { c.ctrs with misses := c.ctrs.misses + 1, derivations := c.ctrs.derivations + 1 } }

/-! ### The DRBG (R365, R367) -/

/-- A number of `w` bits from the DRBG: open (log 3). It is reseeded at least every 2^20 requests while the entropy source
passes. -/
def State.random (s : State) (w : Nat) : Nat := s.freeNat % 2 ^ w
def drawRandom (s : State) : State :=
  s.drew.modCiph fun c => { c with drbg := if c.entropyOk && 2 ^ 20 ≤ c.drbg + 1 then 0 else c.drbg + 1 }

/-- New KEYX exchanges and TLS handshakes are refused (R367). -/
def State.drbgStale (s : State) : Bool := !s.ciph.entropyOk && decide (2 ^ 24 < s.ciph.drbg)

/-! ### Blocks (R363, R365, R370) -/

/-- The most dummy rounds of a block, in effect (R365, R366). -/
def State.dummyMax (s : State) : Nat := if s.fuse.lifecycle < 2 then s.paramN 0x8001 else 3

/-- How many of `n` blocks take 0, 1, 2 and 3 dummy rounds: random (R365), so free (log 3), but for their sum and the most in effect. -/
def dummySplit (n most free : Nat) : List Nat :=
  let a := if most = 0 then n else Config.freeNat free % (n + 1)
  let b := if most ≤ 1 then n - a else Config.freeNat (free + 1) % (n - a + 1)
  let c := if most ≤ 2 then n - a - b else Config.freeNat (free + 2) % (n - a - b + 1)
  [a, b, c, n - a - b - c]

/-- A request of `n` AES blocks on a queue is counted (R363, R370). -/
def cipherWork (q n : Nat) (s : State) : State :=
  let split := dummySplit n s.dummyMax s.free
  State.modCiph { s with free := s.free + 3 } fun c => { c with ctrs := { c.ctrs with
    blocks := c.ctrs.blocks + n, dummy := (c.ctrs.dummy.zip split).map fun p => p.1 + p.2,
    queued := upd c.ctrs.queued q fun k => k + n } }

/-- AES blocks of a GCM message: its blocks, and one for the tag; the hash subkey is in the cache (R354; DEDUCED, log 134). -/
def gcmBlocks (len : Nat) : Nat := ceilDiv len 16 + 1

end Sys2Proof.Machine
end

