-- ==== Sys2Proof/Machine/ScrimOps.lean ====
section
/-! DEFINITION. What every Scrim message shares: addresses, routes, sending, flooding (R306, R312 to R317). -/

namespace Sys2Proof.Machine

def State.modScrim (s : State) (f : ScrimState → ScrimState) : State := { s with scrim := f s.scrim }
def State.adj (s : State) (p : Nat) : Adj := nth s.scrim.adjs p
def State.modAdj (s : State) (p : Nat) (f : Adj → Adj) : State :=
  s.modScrim fun x => { x with adjs := upd x.adjs p f }

/-- A counter of R343: 0 addr_changes, 1 loops, 2 icv_fail, 3 no_route, 4 bad_type, 5 fault_evicted, 6 takeovers,
7 handovers. -/
def countScrim (i : Nat) (s : State) : State := s.modScrim fun x => { x with ctrs := upd x.ctrs i fun n => n + 1 }

def setScrimEvt (i : Nat) (s : State) : State := s.modScrim fun x => { x with evt := setBit x.evt i }

/-- The CLAIMED address of a device, from the LSA database (R308). -/
def State.addrOf (s : State) (dev : Nat) : Option Nat :=
  (s.scrim.lsdb.find? fun l => l.dev == dev && l.claimed).map Lsa.addr

/-- The device at an address, from the LSA database. -/
def State.devAt (s : State) (addr : Nat) : Option Nat := (s.scrim.lsdb.find? fun l => l.addr == addr && l.claimed).map Lsa.dev

/-- An address is in the routing table. -/
def ScrimState.reaches (x : ScrimState) (addr : Nat) : Bool := x.routes.any fun r => r.addr == addr

/-- The SP port that a frame takes: next hop CRC-16 of SRC, DST and FLOW, plus the attempt, modulo the hops (R317). -/
def State.nextHop (s : State) (src dst flow attempt : Nat) : Option Nat :=
  match s.scrim.routes.find? fun r => r.addr == dst with
  | some r =>
    if r.ports.isEmpty then none
    else some (nth r.ports ((crc16 (leBytes 2 src ++ leBytes 2 dst ++ leBytes 2 flow) + attempt) % r.ports.length))
  | none => none

/-! ### Frames (R312) -/

/-- The fields of a route header, and the body (R312). -/
structure RouteHead where
  dst : Nat := 0
  flood : Bool := false
  src : Nat := 0
  ttl : Nat := 0
  cls : Nat := 0
  ty : Nat := 0
  flow : Nat := 0
  body : List Byte := []
  deriving DecidableEq, Repr, Inhabited

/-- The route header and the body, as they stand from offset 26 of the frame on. -/
def RouteHead.bytes (h : RouteHead) : List Byte :=
  leBytes 2 (h.dst % 4096 + flag h.flood 12) ++ leBytes 2 h.src ++ leBytes 1 h.ttl ++ leBytes 1 h.cls ++ leBytes 2 h.ty ++
    leBytes 2 h.body.length ++ leBytes 2 h.flow ++ leBytes 4 0 ++ h.body

/-- The class of a message type (R314). -/
def scrimClass (ty : Nat) : Nat :=
  if ty = 0x40 then 7
  else if ty = 0x21 || ty = 0x22 then 5
  else if ty = 0x31 || ty = 0x32 then 4
  else if ty = 0x23 || ty = 0x24 || ty = 0x25 then 3
  else if ty = 0x60 then 2
  else 6

/-- The link header, from the destination address to PN: HELLO and KEYX go to 01-80-C2-00-00-0E with PN 0, every other type to the
neighbour under the transmit key's AN and PN (R311, R312). -/
def State.linkHead (s : State) (port : Nat) (prot : Bool) : List Byte :=
  let a := s.adj port
  (if prot then leBytes 6 a.nbrMac else [0x01, 0x80, 0xC2, 0x00, 0x00, 0x0E]) ++ leBytes 6 (Config.spMac port) ++
    [0x88, 0xB5] ++ leBytes 1 (if prot then 17 + a.txAn * 32 else 1) ++ leBytes 3 0 ++ leBytes 8 (if prot then a.txPn else 0)

/-- A protected frame: the route header and the body encrypted, the link header authenticated, and the ICV (R311, R312). The IV is the
salt, then PN as the frame carries it (DEDUCED, log 25). -/
def sealedFrame (key head plain : List Byte) : List Byte :=
  let k := Aes.ofBytes (key.take 32)
  let iv := Aes.ofBytes (key.drop 32 ++ slice head 18 8)
  let ct := Aes.gcmCrypt k iv (Aes.ofBytes plain)
  head ++ Aes.toBytes ct ++ Aes.toBytes (Aes.gcmTag k iv (Aes.ofBytes head) ct)

/-- A frame is sealed for a protected link: the next PN, under the link's transmit key (R311, R354). -/
def sealOn (port : Nat) (s : State) : State :=
  useKey (3076 + 2 * port) (s.modAdj port fun a => { a with txPn := a.txPn + 1 })

/-- A protected frame is one request of the cipher engine: Q0 for classes 5 to 7, Q3 for the others (R363). -/
def frameCipher (h : RouteHead) (s : State) : State := cipherWork (if 5 ≤ h.cls then 0 else 3) (gcmBlocks h.bytes.length) s

/-- A protected frame leaves on a port; only a FULL adjacency carries one (R310). -/
def sendOn (port : Nat) (h : RouteHead) (s : State) : State :=
  if (s.adj port).st != .full then s
  else
    let s1 := frameCipher h (sealOn port s)
    s1.emit (.scrim port (sealedFrame (s1.adj port).txKey (s1.linkHead port true) h.bytes))

/-- HELLO and KEYX leave unprotected, for the neighbour only (R311, R312). -/
def sendPlain (port ty : Nat) (body : List Byte) (s : State) : State :=
  s.emit (.scrim port (s.linkHead port false ++ { src := s.scrim.addr, ttl := 1, cls := 6, ty, body : RouteHead }.bytes))

/-- A message of this controller. -/
def State.message (s : State) (dst ty flow : Nat) (body : List Byte) : RouteHead :=
  { dst, src := s.scrim.addr, ttl := 16, cls := scrimClass ty, ty, flow, body }

/-- A message to an address; without a route it is dropped and counted (R313). A TENTATIVE controller sends none (R307). -/
def scrimSend (dst ty flow attempt : Nat) (body : List Byte) (s : State) : State :=
  if !s.scrim.claimed then s else match s.nextHop s.scrim.addr dst flow attempt with
  | some p => sendOn p (s.message dst ty flow body) s
  | none => countScrim 3 s

/-- A message to a device; dropped while no CLAIMED address is known for it. -/
def sendDev (dev ty flow : Nat) (body : List Byte) (s : State) : State :=
  match s.addrOf dev with
  | some a => scrimSend a ty flow 0 body s
  | none => countScrim 3 s

/-- The ports of FULL adjacencies. -/
def State.fullPorts (s : State) : List Nat := (List.range 4).filter fun p => (s.adj p).st == .full

/-- A message with FLOOD set. -/
def State.flooded (s : State) (ty : Nat) (body : List Byte) : RouteHead := { s.message 0 ty 0 body with flood := true }

/-- A message leaves on every FULL link but one (R316, R322). A TENTATIVE controller floods LSAs only (R307). -/
def flood (except : Option Nat) (ty : Nat) (body : List Byte) (s : State) : State :=
  if !s.scrim.claimed && ty != 0x10 then s
  else (s.fullPorts.filter fun p => some p != except).foldl (fun s p => sendOn p (s.flooded ty body) s) s

/-- The other controller of a group's pair (R323). -/
def State.otherDev (s : State) (gi : Nat) : Nat :=
  if (s.group gi).devA = s.fuse.deviceId then (s.group gi).devB else (s.group gi).devA

/-- A message to a group's other controller, in the group's flow (R317). -/
def toPartner (gi ty : Nat) (body : List Byte) (s : State) : State := sendDev (s.otherDev gi) ty gi body s

/-- The other controller of the group is in the routing table. -/
def State.partnerReached (s : State) (gi : Nat) : Bool :=
  match s.addrOf (s.otherDev gi) with
  | some a => s.scrim.reaches a
  | none => false

end Sys2Proof.Machine
end

