-- ==== Sys2Proof/Machine/Events.lean ====
section
/-! DEFINITION. Mailbox answers, events and black-box records (R373, R379 to R383, R395, R396, R480 to R483, R486). -/

namespace Sys2Proof.Machine

/-! ### Answers (R373, R379 to R381) -/

/-- A channel's request has run to its response, or holds its channel: it is no longer first in the command order (R383). -/
def State.unqueue (s : State) (c : Nat) : State := { s with mbx := { s.mbx with order := s.mbx.order.filter (· != c) } }

/-- A response already formed goes out on a channel's transport: into the response area with DONE (R373), or as a
datagram, an MCTP message or a Scrim frame (R379 to R381). Core 0 takes the next request (R383). -/
def deliver (c : Nat) (rsp : List Byte) (s0 : State) : State :=
  let s := s0.unqueue c
  let ch := s.chan c
  let st := leAt rsp 10 2
  if s.transport c = 1 then
    let s1 := { s with mbx := { s.mbx with bar2 := writeArea s.mbx.bar2 (c * 0x2000 + 0x1000) rsp } }
    let s2 := s1.modChan c fun h => { h with state := .done, lastStatus := st, doneBit := true, waiting := false }
    pmeRaise (if ch.irqEn && !ch.doneBit then irqRise c s2 else s2)
  else
    let s1 := s.modChan c fun h => { h with state := .idle, lastStatus := st, cached := rsp, waiting := false, aonHeld := false }
    if s.transport c = 2 then s1.emit (.mpResponse ch.fromAddr ch.fromPort (rsp ++ messageMac ch.credential rsp))
    else if s.transport c = 3 then s1.emit (.smbusResponse (leBytes 4 (s.paramN 0x11C2) ++ rsp))
    else if s.transport c = 4 then scrimSend ch.fromAddr 0x60 0 0 rsp s1
    else s1

/-- The answer to the request that a channel carries. -/
def answer (c status detail : Nat) (body : List Byte) (s : State) : State :=
  deliver c (response (s.chan c).req c (s.privilege c) status detail body) s

/-! ### Events (R395, R396) -/

/-- A record matches a reader's GROUP_MASK (R396). The 128-bit mask has one bit per high byte of the code. -/
def eventMatches (mask : Nat) (e : EventRec) : Bool := mask == 0 || mask.testBit (e.code / 256)

/-- The 64 bytes of an event record (R395). -/
def eventBytes (e : EventRec) : List Byte :=
  leBytes 2 e.code ++ leBytes 1 e.kind ++ leBytes 1 (flag e.unlocked 0) ++ leBytes 4 e.subject ++ leBytes 8 e.seq ++
    leBytes 8 e.ftime ++ padTo 40 ((e.detail.map fun d => leBytes 8 (twos 64 d)).flatten)

/-- SEQ of the oldest record held (R396): the newest SEQ plus 1 when the ring is empty. -/
def MbxState.oldestSeq (m : MbxState) : Nat :=
  match m.events with
  | [] => m.evtHead + 1
  | e :: _ => e.seq

/-- The body and DETAIL of an EVENT_READ answer (R396). NEXT_SEQ is the SEQ to go on from: after the last record returned when
MAX cut the answer short, after the newest otherwise (DEDUCED, log 31). SEQ starts at 1, so none below it is lost. -/
def eventReadBody (m : MbxState) (fromSeq max mask : Nat) : List Byte × Nat :=
  let all := m.events.filter fun e => fromSeq ≤ e.seq && eventMatches mask e
  let got := all.take max
  let next := if max ≤ all.length then (got.getLast?.map EventRec.seq).getD m.evtHead + 1 else m.evtHead + 1
  let body := leBytes 8 m.oldestSeq ++ leBytes 8 next ++ leBytes 2 got.length ++ leBytes 6 0 ++
    (got.map eventBytes).flatten
  (body, Nat.min 0xFFFFFFFF (m.oldestSeq - Nat.max 1 fromSeq))

/-- Arguments of an EVENT_READ or EVENT_WAIT request: FROM_SEQ, MAX, GROUP_MASK (R394). -/
def eventArgs (m : List Byte) : Nat × Nat × Nat := (leAt (reqBody m) 0 8, leAt (reqBody m) 8 2, leAt (reqBody m) 12 16)

/-- An EVENT_WAIT that holds a channel answers as soon as a matching record exists (R396). -/
def serveWait (c : Nat) (s : State) : State :=
  let (f, mx, mask) := eventArgs (s.chan c).req
  if (s.chan c).waiting && s.mbx.events.any (fun e => f ≤ e.seq && eventMatches mask e) then
    let (b, d) := eventReadBody s.mbx f mx mask
    answer c Code.stOk d b s
  else s

/-- Every held EVENT_WAIT looked at once, in channel order. -/
def serveWaits (s : State) : State := (List.range 64).foldl (fun s c => serveWait c s) s

/-- The record of an event as the ring takes it now: the next SEQ, the time, at most five words of detail (R395). -/
def State.eventRec (s : State) (code kind subj : Nat) (detail : List Int) : EventRec :=
  { code, kind, unlocked := decide (s.time.servo ≠ .locked), subject := subj, seq := s.mbx.evtHead + 1, ftime := s.nowNs,
    detail := detail.take 5 }

/-- The ring with one more record; a full ring loses its oldest (R395). -/
def MbxState.push (m : MbxState) (e : EventRec) : MbxState :=
  { m with events := (m.events ++ [e]).drop ((m.events ++ [e]).length - 8192), evtHead := e.seq }

/-- The event interrupt: one message until the host reads EVT_HEAD_LO (R416). -/
def evtIrq (s : State) : State :=
  if s.mbx.evtIrqEn && !s.mbx.evtSent then irqRise 64 { s with mbx := { s.mbx with evtSent := true } } else s

/-- A record is appended to the event ring: the event interrupt, the PME and the held EVENT_WAITs follow (R395, R396,
R416, R419). Nothing is appended while the data die is in reset, since the ring is in its SRAM. -/
def raiseOnly (code kind subj : Nat) (detail : List Int) (s : State) : State :=
  if s.pins.ddReset then s
  else
    let s1 := { s with mbx := s.mbx.push (s.eventRec code kind subj detail) }
    let s2 := evtIrq s1
    let s3 := if (s2.paramN 0x1202).testBit (code / 256) then pmeRaise s2 else s2
    if s3.mbx.chans.any Chan.waiting then serveWaits s3 else s3

/-! ### Black-box records (R480 to R483, R486) -/

/-- Firmware's bucket of 256 now, at one record per second (R483). -/
def State.bbxTokens (s : State) : Nat := Nat.min 256 (s.bbx.bucket + (s.clock - s.bbx.bucketAt) / 1600000000)

/-- Fabric time as the AON controller tells it: the last one received, plus the island counter's advance since then when that is
more than 10 ms ago; 0 when none has ever been received (R480, R482). -/
def State.aonStamp (s : State) : Nat :=
  let then' := (s.bbx.ftimeAt - s.mode.islZero) * 32768 / 1600000000 % 2 ^ 48
  if s.bbx.ftime = 0 || s.clock ≤ s.bbx.ftimeAt + 16000000 then s.bbx.ftime
  else s.bbx.ftime + (s.island - then') * 1000000000 / 32768

/-- A record as the AON controller accepts it: its stamps and its SEQ (R480 to R482). `origin` is 0 for the AON
controller, 1 for firmware, 2 for Primer. -/
def bbxStamp (origin code kind subj : Nat) (detail : List Int) (s : State) : BbxRec :=
  { code, origin, kind, subject := subj, seq := s.bbx.seq,
    unlocked := decide (s.time.servo ≠ .locked),
    estimated := origin == 0 && s.bbx.ftime != 0 && decide (s.bbx.ftimeAt + 16000000 < s.clock),
    ftime := if origin == 0 then s.aonStamp else s.nowNs,
    island := s.island, ddResets := s.bbx.ddResets, detail := detail.take 26 }

/-- The record joins the queue and takes the next SEQ (R481). -/
def bbxAccept (r : BbxRec) (s : State) : State :=
  { s with bbx := { s.bbx with queue := s.bbx.queue ++ [r], seq := (s.bbx.seq + 1) % 2 ^ 32 } }

/-- A record reaches the AON queue. A firmware record that finds the bucket empty, or no free unreserved entry (eight
of 64 are kept), is dropped and counted; EV_BBX_DROPPED at most once per minute (R483). -/
def bbx (origin code kind subj : Nat) (detail : List Int) (s : State) : State :=
  let r := bbxStamp origin code kind subj detail s
  if origin = 1 then
    if s.bbxTokens = 0 || 56 ≤ s.bbx.queue.length then
      let s1 := { s with bbx := { s.bbx with dropped := satAdd 0xFFFF s.bbx.dropped 1 } }
      if s1.passed s1.bbx.dropTold 60000000 then
        raiseOnly Code.evBbxDropped 0 0 [] { s1 with bbx := { s1.bbx with dropTold := some s1.clock } }
      else s1
    else
      bbxAccept r { s with bbx := { s.bbx with
        bucket := s.bbxTokens - 1,
        bucketAt := if s.bbxTokens = 256 then s.clock else s.bbx.bucketAt + (s.bbxTokens - s.bbx.bucket) * 1600000000 } }
  else bbxAccept r s

/-- The events that firmware copies into the black box (R486). -/
def copiedEvents : List Nat :=
  [Code.evTimeStepped, Code.evBayFenced, Code.evBayModuleFatal, Code.evGroupState, Code.evGroupLostExtents,
   Code.evGroupJournalLost, Code.evScrimLeaseLost, Code.evScrimTakeover, Code.evScrimHandover, Code.evCiphRootFault,
   Code.evCiphGenRetired, Code.evCiphPskExported, Code.evMbxBindingChanged, Code.evFwTrialFailed, Code.evModeChanged]

/-- An event is raised: a ring record, and a black-box copy when R486 names it. `kind` codes the subject (R395). -/
def raise (code kind subj : Nat) (detail : List Int) (s : State) : State :=
  let s1 := raiseOnly code kind subj detail s
  if copiedEvents.contains code && !s.pins.ddReset then bbx 1 code kind subj detail s1 else s1

/-- Subject kinds of event and black-box records (R395). -/
abbrev Kind.none : Nat := 0
abbrev Kind.group : Nat := 1
abbrev Kind.bay : Nat := 2
abbrev Kind.port : Nat := 3
abbrev Kind.ns : Nat := 4
abbrev Kind.assoc : Nat := 5
abbrev Kind.addr : Nat := 6
abbrev Kind.chan : Nat := 7

end Sys2Proof.Machine
end

