-- ==== Sys2Proof/Machine/Faults.lean ====
section
/-! DEFINITION. Fault reports and the fault table (R318 to R322). -/

namespace Sys2Proof.Machine

/-- A FAULT_REPORT body (R321). -/
def faultBody (subject cls origin detail dev seen : Nat) : List Byte :=
  leBytes 2 subject ++ leBytes 1 cls ++ leBytes 1 0 ++ leBytes 2 origin ++ leBytes 2 detail ++ leBytes 8 dev ++
    leBytes 8 seen ++ leBytes 8 0

/-- The entry of a key. -/
def State.fault? (s : State) (subject cls : Nat) : Option Fault_ :=
  s.scrim.faults.find? fun f => f.subject == subject && f.cls == cls

/-- An entry's window ends: its event is written, and the entry is free (R319). -/
def closeFault (f : Fault_) (s : State) : State :=
  raise Code.evScrimFault Kind.addr f.subject [f.cls, f.count, f.firstOrigin, f.firstSeen, flag f.here 0]
    (s.modScrim fun x => { x with faults := x.faults.filter fun y => !(y.subject == f.subject && y.cls == f.cls) })

/-- A full table gives up the entry with the oldest window start (R320). -/
def evictFault (s : State) : State :=
  if s.scrim.faults.length < 4096 then s
  else
    let oldest := s.scrim.faults.foldl (fun (a : Option Fault_) f => match a with
      | none => some f
      | some x => if f.start < x.start then some f else some x) none
    match oldest with
    | some f => countScrim 5 (closeFault f s)
    | none => s

/-- A report arrives or is originated: a key without an entry gets one and is relayed, one with an open window is only
counted (R319, R322). -/
def faultSeen (here : Bool) (except : Option Nat) (body : List Byte) (s : State) : State :=
  let subject := leAt body 0 2 % 4096
  let cls := leAt body 2 1
  match s.fault? subject cls with
  | some _ =>
    let hit (f : Fault_) : Bool := f.subject == subject && f.cls == cls
    s.modScrim fun x => { x with
      faults := updWhere hit (fun f => { f with count := f.count + 1, here := f.here || here }) x.faults }
  | none =>
    let e : Fault_ := { subject, cls, start := s.clock, count := 1, firstOrigin := leAt body 4 2 % 4096,
                        firstSeen := leAt body 16 8, here }
    let s1 := evictFault s
    flood except 0x12 body (s1.modScrim fun x => { x with faults := x.faults ++ [e] })

/-- This controller originates a report (R318, R321). -/
def originate (subject cls detail : Nat) (s : State) : State :=
  faultSeen true none (faultBody subject cls s.scrim.addr detail ((s.devAt subject).getD 0) s.nowNs) s

/-- A condition is detected: reported once, until it has cleared (R318). -/
def reportFault (subject cls : Nat) (s : State) : State :=
  if s.scrim.standing.contains (subject, cls) then s
  else originate subject cls 0 (s.modScrim fun x => { x with standing := (subject, cls) :: x.standing })

/-- A condition at a device, whose address is known. -/
def reportDev (dev cls : Nat) (s : State) : State :=
  match s.addrOf dev with
  | some a => reportFault a cls s
  | none => s

/-- A condition has cleared (R318). -/
def clearFault (subject cls : Nat) (s : State) : State :=
  s.modScrim fun x => { x with standing := x.standing.filter (· != (subject, cls)) }
def clearDev (dev cls : Nat) (s : State) : State :=
  match s.addrOf dev with
  | some a => clearFault a cls s
  | none => s

/-- FAULT_REPORT_RX: a flooded report arrives on a port. -/
def faultReportRx (port : Nat) (body : List Byte) (s : State) : State :=
  if s.ddUp && (s.adj port).st == .full && body.length == 32 then faultSeen false (some port) body s else s

def execFaultReportRx (port : Nat) (body : List Byte) (s : State) : Host.Outcome State Fault Refusal :=
  .next (faultReportRx port body s)

/-- FAULT_WINDOW_EXPIRY: `scrim.fault.window_ms` has passed since an entry's window start (R319). -/
def faultWindowExpiry (subject cls : Nat) (s : State) : State :=
  match s.fault? subject cls with
  | some f => closeFault f s
  | none => s

def execFaultWindowExpiry (subject cls : Nat) (s : State) : Host.Outcome State Fault Refusal :=
  .next (faultWindowExpiry subject cls s)

/-- FAULT_REPEAT: `scrim.fault.repeat_s` has passed while a condition persists (R318). -/
def faultRepeat (subject cls : Nat) (s : State) : State :=
  if s.scrim.standing.contains (subject, cls) then originate subject cls 0 s else s

def execFaultRepeat (subject cls : Nat) (s : State) : Host.Outcome State Fault Refusal := .next (faultRepeat subject cls s)

end Sys2Proof.Machine
end

