-- ==== Sys2Proof/Machine/Units.lean ====
section
/-! DEFINITION. The 16 KiB unit: its integrity tag, its encryption, filler, and XOR (R236 to R239). -/

namespace Sys2Proof.Machine

/-- A unit's 16,384 stored bytes, first byte first. -/
def unitBytes (d : Nat) : List Byte := leBytes 16384 d

/-- Filler: zero bytes, WSEQ all ones, CHECK zero (R239). -/
def Unit16.filler : Unit16 := { data := 0, wseq := 0xFFFFFFFFFFFFFFFF, check := 0 }

/-- Units XORed, tags with data (R115, R239). -/
def Unit16.xor (a b : Unit16) : Unit16 :=
  { data := a.data ^^^ b.data, wseq := a.wseq ^^^ b.wseq, check := a.check ^^^ b.check }

/-- The header H of a unit (R237). -/
def tagHeader (nsx unitNo wseq : Nat) : List Byte := leBytes 2 nsx ++ leBytes 6 unitNo ++ leBytes 8 wseq

/-- CHECK of a unit's stored bytes: AES-GMAC cut to 64 bits under the namespace's integrity key, else CRC-64 (R237). -/
def unitCheck (gmac : Option (List Nat)) (nsx unitNo wseq data : Nat) : Nat :=
  let msg := tagHeader nsx unitNo wseq ++ unitBytes data
  match gmac with
  | some k =>
    leNat (Aes.toBytes ((Aes.gcmTag k (Aes.ofBytes (leBytes 12 wseq)) (Aes.ofBytes msg) []).take 8))
  | none => crc64 msg

/-- A namespace by index, when it exists. -/
def State.ns? (s : State) (nsx : Nat) : Option Ns := s.host.nss.find? fun n => n.nsx == nsx

def State.modNs (s : State) (nsx : Nat) (f : Ns → Ns) : State :=
  { s with host := { s.host with nss := updWhere (fun n => n.nsx == nsx) f s.host.nss } }

/-- A namespace is encrypted at rest. -/
def State.encrypted (s : State) (nsx : Nat) : Bool :=
  match s.ns? nsx with
  | some n => n.encrypted
  | none => false

/-- The generations of the encrypted namespaces among some, as a request formed now carries them (R361). -/
def State.gensOf (s : State) (nsxs : List Nat) : List (Nat × Nat × Nat) :=
  ((nsxs.filter s.encrypted).eraseDups).map fun n => (n, labelGen (s.label n), labelGen (s.label (1024 + n)))

/-- Status of a command's request for a unit of a namespace (R369): XTS, and with `tag` the integrity tag too. A plain namespace needs
neither key. -/
def State.unitStatus (s : State) (gens : List (Nat × Nat × Nat)) (nsx : Nat) (tag : Bool) : Nat :=
  if !s.encrypted nsx then 0
  else
    let g := ((gens.find? fun e => e.1 == nsx).map Prod.snd).getD (0, 0)
    let x := s.keyStatus nsx 1 g.1
    if x ≠ 0 then x else if tag then s.keyStatus (1024 + nsx) 2 g.2 else 0

/-- A request of a queue for a unit of an encrypted namespace uses its keys (R354, R363): XTS takes 1,024 blocks and one for the tweak, a
tag one more (R361; DEDUCED, log 134). -/
def useNsKeys (q nsx : Nat) (tag : Bool) (s : State) : State :=
  if !s.encrypted nsx then s
  else cipherWork q (1025 + flag tag 0) (useKey nsx (if tag then useKey (1024 + nsx) s else s))

/-- The integrity key of a namespace, for an encrypted one. A metadata unit (0xFFFF) has none. -/
def State.gmacKey (s : State) (nsx : Nat) : Option (List Nat) :=
  if s.encrypted nsx then some (match s.nsKeys nsx with | some k => k.2 | none => []) else none

/-- The tag check of a unit that should be (nsx, unitNo) (R112, R237, R239). An encrypted unit whose key is not in force
fails. -/
def State.tagPasses (s : State) (nsx unitNo : Nat) (u : Unit16) : Bool :=
  if u.wseq = 0xFFFFFFFFFFFFFFFF then u == Unit16.filler
  else if s.encrypted nsx && (s.nsKeys nsx).isNone then false
  else unitCheck (s.gmacKey nsx) nsx unitNo u.wseq u.data == u.check

/-- Stored bytes of plaintext, and the other way round: AES-256-XTS with the unit number as tweak for an encrypted
namespace. -/
def State.cipherUnit (s : State) (dec : Bool) (nsx unitNo data : Nat) : Nat :=
  if s.encrypted nsx then
    match s.nsKeys nsx with
    | some k => leNat (Aes.toBytes (Aes.xts dec k.1 unitNo (Aes.ofBytes (unitBytes data))))
    | none => data
  else data

/-- A host unit as it enters staging: encrypted, stamped, tagged (R237, R238). -/
def State.makeUnit (s : State) (nsx unitNo wseq plain : Nat) : Unit16 :=
  let d := s.cipherUnit false nsx unitNo plain
  { data := d, wseq, check := unitCheck (s.gmacKey nsx) nsx unitNo wseq d }

/-- A metadata unit of stream 9 (R237). -/
def metaUnit (wseq : Nat) (content : List Byte) : Unit16 :=
  let d := leNat (content.take 16384)
  { data := d, wseq, check := unitCheck none 0xFFFF 0 wseq d }

end Sys2Proof.Machine
end

