-- ==== Sys2Proof/Machine/FlashOps.lean ====
section
/-! DEFINITION. Flash operations: contexts, submission entries, dies and their queues, landing slots (R116 to R121, R191
to R197, R213 to R223). -/

namespace Sys2Proof.Machine

/-! ### Operation contexts (R116, R221) -/

def State.modFlash (s : State) (f : FlashState → FlashState) : State := { s with flash := f s.flash }

/-- The context that a tag names. -/
def State.op? (s : State) (tag : Nat) : Option FlashOp := s.flash.ops.find? fun o => o.tag == tag

def State.modOp (s : State) (tag : Nat) (f : FlashOp → FlashOp) : State :=
  s.modFlash fun x => { x with ops := updWhere (fun o => o.tag == tag) f x.ops }

/-- The context is free again (R120). -/
def State.freeOp (s : State) (tag : Nat) : State :=
  s.modFlash fun x => { x with ops := x.ops.filter fun o => o.tag != tag }

/-- GEN last used with a tag. -/
def FlashState.genOf (f : FlashState) (tag : Nat) : Nat :=
  match f.gens.find? fun p => p.1 == tag with
  | some p => p.2
  | none => 0

/-- An operation takes a free tag, with GEN one higher modulo 64 (R116, R120). Which free tag it takes the spec leaves
open (log 3). It joins its die's queue. -/
def enqueue (o : FlashOp) (s : State) : State :=
  match anyFrom (fun t => (s.op? t).isNone) s.freeNat 262144 with
  | none => s
  | some t =>
    let gen := (s.flash.genOf t + 1) % 64
    s.drew.modFlash fun f => { f with
      ops := f.ops ++ [{ o with tag := t, gen }], gens := (t, gen) :: f.gens.filter fun p => p.1 != t }

/-- Tag of the operation queued last. -/
def State.lastTag (s : State) : Nat :=
  match s.flash.ops.getLast? with
  | some o => o.tag
  | none => 0

/-- Operations outstanding on a bay (BAYLNK_STATUS.OUTST). -/
def State.outstanding (s : State) (bay : Nat) : Nat :=
  (s.flash.ops.filter fun o => o.bay == bay && o.st == .outstanding).length

/-! ### Submission entries (R117, R215 to R217) -/

/-- The window addresses of a landing slot (R117). -/
def dataAddr (tag gen : Nat) : Nat := 0x0000010000000000 + gen * 2 ^ 32 + tag * 2 ^ 14
def tagAddr (tag gen : Nat) : Nat := 0x0000020000000000 + gen * 2 ^ 22 + tag * 2 ^ 4

/-- Address of source region S (R217). -/
def sourceAddr (src : Nat) : Nat := 0x0000030000000000 + src * 2 ^ 15

/-- The operands of an operation, 32 bytes (R216). -/
def opOperands (o : FlashOp) : List Byte :=
  padTo 32 (match o.use with
    | .epochSet e => leBytes 4 e
    | .abort t gen => leBytes 4 (t + gen * 2 ^ 18)
    | _ => if o.opc = 0x01 then leBytes 8 (dataAddr o.tag o.gen) ++ leBytes 8 (tagAddr o.tag o.gen)
           else if o.opc = 0x10 then (o.src.map fun x => leBytes 8 (sourceAddr x)).flatten else [])

/-- DIE, BLOCK and PAGE are 0 where the operation does not use them (R216). -/
def entryBytes (epoch : Nat) (o : FlashOp) : List Byte :=
  let die := if o.opc = 0x40 || o.opc = 0x60 then 0 else o.die
  let blk := if o.opc ≤ 0x20 then o.block else 0
  let page := if o.opc ≤ 0x10 then o.page else 0
  leBytes 4 (o.opc + flag o.noRetry 8) ++ leBytes 4 (o.tag + o.gen * 2 ^ 18) ++ leBytes 4 epoch ++
    leBytes 4 (die + blk * 2 ^ 16) ++ leBytes 4 page ++ leBytes 12 0 ++ opOperands o

/-- The epoch that this controller presents on a bay: its group's, or on a spare bay the one that its module has taken (R225, R226). -/
def State.epochOn (s : State) (bay : Nat) : Nat :=
  match s.bayMember bay with
  | some (g, _) => (s.group g).epoch
  | none => (s.bay bay).epoch

/-- A dispatched operation ends the abort window of the command it reads for, or whose data it programs (R79). -/
def markBegun (o : FlashOp) (s : State) : State :=
  match o.use with
  | .chunk _ _ _ _ =>
    let mine := (s.flash.slots.filter fun w => o.src.contains w.slot).map WSlot.cmd
    { s with host := { s.host with cmds := updWhere (fun x => mine.contains x.num) (fun x => { x with begun := true }) s.host.cmds } }
  | .landing blk =>
    match s.flash.bufs.find? fun b => b.blk == blk with
    | some b =>
      match b.use with
      | .host c _ => { s with host := { s.host with cmds := updWhere (fun x => x.num == c) (fun x => { x with begun := true }) s.host.cmds } }
      | .rmw c _ => { s with host := { s.host with cmds := updWhere (fun x => x.num == c) (fun x => { x with begun := true }) s.host.cmds } }
      | _ => s
    | none => s
  | _ => s

/-- An operation's entry is written, and its doorbell rung: it is OUTSTANDING from now (R213, R222). -/
def submit (tag : Nat) (s : State) : State :=
  match s.op? tag with
  | none => s
  | some o =>
    let tail := ((s.bay o.bay).sqTail + 1) % 4096
    let s1 := (s.modOp tag fun o => { o with st := .outstanding, stamp := s.micros }).modBay o.bay fun b => { b with sqTail := tail }
    markBegun o ((s1.emit (.bayEntry o.bay (entryBytes (s.epochOn o.bay) o))).emit (.bayReg o.bay 0x1020 tail))

/-- Another operation fits under the 4,032 outstanding operations and unacknowledged entries of a bay (R214). -/
def State.ringRoom (s : State) (bay : Nat) : Bool := decide (s.outstanding bay + (s.bay bay).consumed < 4032)

/-- An operation is queued and submitted at once when the ring has room: the controls of a die or a module. One that found no room
goes with the next dispatch on its bay (R214). -/
def submitNow (o : FlashOp) (s : State) : State :=
  let s1 := enqueue o s
  if s1.flash.ops.length = s.flash.ops.length || !s.ringRoom o.bay then s1 else submit s1.lastTag s1

/-! ### Dies (R183, R194) -/

/-- A die: idle unless it is on record. -/
def State.die (s : State) (bay die : Nat) : Die :=
  match s.flash.dies.find? fun d => d.bay == bay && d.die == die with
  | some d => d
  | none => { bay, die }

def State.modDie (s : State) (bay die : Nat) (f : Die → Die) : State :=
  s.modFlash fun x => { x with
    dies := f (s.die bay die) :: x.dies.filter fun d => !(d.bay == bay && d.die == die) }

/-- The die is busy (R183): a program or erase executes on it or is suspended for a read, or its operation is unknown. -/
def Die.busy (d : Die) : Bool := (d.op.isSome && !d.held) || d.unknown

/-- µs to the turn's end less the effective guard. -/
def State.usToGuard (s : State) : Nat := (s.turnEnd - s.guardNs - s.nowNs) / 1000

/-- Time in µs that a program in progress still needs (R184, R194). -/
def State.programLeft (s : State) (d : Die) : Nat :=
  let susp := d.suspTotal + match d.suspAt with | some t => s.micros - t | none => 0
  d.start + (s.desc d.bay).tProgMax + susp - s.micros

/-- Remaining busy time in µs (R194): none when it is unbounded. `ahead` reads of classes 0 and 1 are queued before. An erase
segment is suspended so that it ends, its suspend latency included, at its turn's end less the guard. -/
def State.busyRemaining (s : State) (bay die ahead : Nat) : Option Nat :=
  let d := s.die bay die
  if d.unknown then none
  else some ((if d.erase then (d.segEnd - s.nowNs) / 1000 else s.programLeft d) + ahead * (s.desc bay).tSense999)

/-- Reads of classes 0 and 1 queued for a die. -/
def State.readsQueued (s : State) (bay die : Nat) : Nat :=
  (s.flash.ops.filter fun o => o.bay == bay && o.die == die && o.st == .queued && decide (o.qcls ≤ 1)).length

/-- A suspend is allowed now (R197): the module supports it, and the row of R197 that applies allows it. -/
def State.suspendAllowed (s : State) (bay die : Nat) : Bool :=
  let d := s.die bay die
  let ds := s.desc bay
  if d.unknown || d.op.isNone || d.suspAt.isSome then false
  else if d.erase then
    (match s.bayMember bay with | some (g, _) => s.eraseSuspendOk bay (s.group g).w | none => false) &&
      decide (3 * ds.tSuspErase ≤ (d.segEnd - s.nowNs) / 1000) && decide (d.suspends < s.paramN 0x4006)
  else
    ds.flags.testBit 0 && decide (d.suspends < s.paramN 0x4005) &&
      decide (s.programLeft d + ds.tSuspProg + Nat.min (s.paramN 0x4003) (s.readsQueued bay die + 1) * ds.tSense999 ≤ s.usToGuard)

/-- A SUSPEND of the die goes out, and counts (R197, R207). -/
def suspendDie (gi bay die : Nat) (s : State) : State :=
  let er := (s.die bay die).erase
  let s1 := submitNow { bay, die, opc := 0x30, use := .suspend false } s
  let s2 := s1.modDie bay die fun d => { d with suspends := d.suspends + 1, reads := 0 }
  s2.modGroup gi fun g => { g with ctrs :=
    if er then { g.ctrs with suspErase := g.ctrs.suspErase + 1 } else { g.ctrs with suspProg := g.ctrs.suspProg + 1 } }

/-- A RESUME of the die goes out: the operation's timer runs again from its submission, and an erase runs a new segment (R185, R194,
R222). -/
def resumeDie (bay die : Nat) (s : State) : State :=
  let d := s.die bay die
  let gone := match d.suspAt with | some t => s.micros - t | none => 0
  let s1 := submitNow { bay, die, opc := 0x31, use := .control } s
  let s2 := s1.modDie bay die fun d =>
    { d with suspAt := none, held := false, suspTotal := d.suspTotal + gone, segEnd := s.turnEnd - s.guardNs,
             unknown := d.unknown || d.op.isNone }
  match d.op with
  | some t => s2.modOp t fun o => { o with suspended := false, stamp := o.stamp + gone }
  | none => s2

/-! ### Which operation a die takes next (R182 to R193) -/

/-- No program or erase may start at die index k while another member still runs one there, or has not said whether it does (R186,
R188). -/
def State.othersIdle (s : State) (gi k m : Nat) : Bool :=
  let g := s.group gi
  (List.range g.w).all fun x =>
    let d := s.die (g.bayOf x) k
    !d.asked && (x == m || !d.busy)

/-- An operation is a program or an erase. -/
def FlashOp.writes (o : FlashOp) : Bool := o.opc == 0x10 || o.opc == 0x20

/-- A read of class 2 that relocates a unit of a lost stripe, and is no rebuild operation (R264). -/
def State.relocRead (s : State) (o : FlashOp) : Bool :=
  match o.use with
  | .landing blk => s.flash.bufs.any fun b => b.blk == blk && match b.use with | .reloc _ _ _ => true | _ => false
  | _ => false

/-- A rebuild operation (R190, R262). -/
def State.rebuilds (s : State) (o : FlashOp) : Bool := o.qcls == 2 && !s.relocRead o

/-- The write turn at die index k belongs to a member that is being rebuilt (R190). -/
def State.targetTurn (s : State) (g : Group) (k : Nat) : Bool :=
  let x := (g.member (g.busyMember k s.turnNow)).st
  x == .target || x == .returning

/-- Die slots open to a group's rebuild in this frame (R262). -/
def State.rebuildOpen (s : State) (g : Group) : Nat :=
  64 * (((List.range g.dies).filter (s.targetTurn g)).length * ((List.range g.w).filter g.presentMember).length)

/-- The rebuild has been charged its floor in this frame (R262). -/
def State.floorMet (s : State) (g : Group) : Bool :=
  decide (s.paramN 0x5104 * s.rebuildOpen g ≤ 100 * g.rebuildCharged)

/-- Die slots that a rebuild operation is charged: its typical time over the slot length, rounded up (R262). -/
def State.rebuildCharge (s : State) (o : FlashOp) : Nat :=
  let ds := s.desc o.bay
  let t := if o.opc = 0x10 then ds.tProgTyp else if o.opc = 0x20 then ds.tEraseTyp else ds.tSenseTyp
  ceilDiv (t * 1000 * 64) s.period

/-- The class an operation dispatches in: further rebuild operations go in class 4 (R191, R262). -/
def State.classNow (s : State) (g : Group) (o : FlashOp) : FlashOp :=
  if s.rebuilds o && s.floorMet g then { o with qcls := 4 } else o

/-- A stripe below a program in its block's page order has still to be formed, or a die-parity row below it to be completed (R191,
R534). -/
def Group.earlierPage (g : Group) (o : FlashOp) : Bool :=
  match o.use with
  | .chunk _ band q m =>
    let b := g.band band
    g.stripes.any fun x => x.band == band && !x.formed && decide (x.q < q) && g.dieOf x.q == g.dieOf q &&
      (b.blockAt m (g.dieOf q) (g.rowOf x.q)).1 == o.block
  | .dieParity _ band m row => g.dieAccs.any fun a => a.band == band && a.member == m && decide (a.row < row)
  | _ => false

/-- A program waits for the erase of its block and for the programs of lower pages of it (R191, R534), and for their verifies: a substitute
takes every position from the failed one on (R162; DEDUCED, log 63). -/
def State.blockReady (s : State) (gi : Nat) (o : FlashOp) : Bool :=
  !(s.group gi).earlierPage o &&
  !(s.flash.ops.any fun x => x.bay == o.bay && x.die == o.die && x.block == o.block && x.st != .quarantine && !x.dropped &&
    (x.opc == 0x20 || (x.opc == 0x10 && x.st == .queued || x.opc == 0x02) && decide (x.page < o.page)))

/-- An erase segment may start or resume on a bay's die in this turn (R185); a module without erase suspend erases only where its
maximum erase time fits (R187, R212). -/
def State.eraseFits (s : State) (gi bay : Nat) : Bool :=
  let ds := s.desc bay
  if s.eraseSuspendOk bay (s.group gi).w then decide (2 * ds.tSuspErase ≤ s.usToGuard) else decide (ds.tEraseMax ≤ s.usToGuard)

/-- An operation of the queue may go to the die now, given whether it is the die's write turn, and whether a rebuild
target has the turn at this die index (R184, R185, R190, R192, R202). -/
def State.mayStart (s : State) (gi bay die m : Nat) (writeTurn targetTurn : Bool) (o : FlashOp) : Bool :=
  if o.opc = 0x10 then
    writeTurn && s.othersIdle gi die m && s.blockReady gi o && decide ((s.desc bay).tProgMax ≤ s.usToGuard)
  else if o.opc = 0x20 then writeTurn && s.othersIdle gi die m && s.eraseFits gi bay
  else match o.qcls with
    | 2 => targetTurn || s.relocRead o
    | 4 => writeTurn
    | 5 => !writeTurn
    | _ => true

/-- Class order: class 4 goes ahead of class 3 while collection is urgent (R192). -/
def classRank (urgent : Bool) (c : Nat) : Nat := if urgent && c = 4 then 3 else if urgent && c = 3 then 4 else c

/-- The first operation of the lowest class among those that may start: within a class the one that came first (R191). Programs of
one block wait for one another in page order (`State.blockReady`). -/
def pickOp (urgent : Bool) (ops : List FlashOp) : Option FlashOp :=
  ops.foldl (fun (a : Option FlashOp) o => match a with
    | none => some o
    | some x => if classRank urgent o.qcls < classRank urgent x.qcls then some o else some x) none

/-- A flash read behind a peer read waits for the peer hold (R134). -/
def peerFree (o : FlashOp) (s : State) : Bool :=
  match o.use with
  | .landing blk => (s.flash.bufs.find? fun b => b.blk == blk).all fun b => b.peerTag.isNone
  | _ => true

/-- The opcode this model gives a context that a peer read holds; no operation of R216 has it. -/
abbrev opcPeer : Nat := 0

/-- A slot revoked for good: V is cleared and its tag is quarantined (R120, R121). -/
def quarantine (tag : Nat) (s : State) : State := s.modOp tag fun o => { o with live := false, st := .quarantine }

/-- The peer slot of a staging block is revoked, and the buffer is rebound to its flash read (R116, R121, R134): the flash read has been
dispatched, or the answer is not a hit. -/
def revokePeer (blk : Nat) (s : State) : State :=
  let peer (o : FlashOp) : Bool := o.opc == opcPeer && o.buf == blk && o.live
  if !(s.flash.ops.any peer) then s
  else
    let mine (o : FlashOp) : Bool := match o.use with | .landing b => b == blk && o.opc != opcPeer | _ => false
    let one (o : FlashOp) : FlashOp :=
      if peer o then { o with live := false, st := .quarantine } else if mine o then { o with cls := 0 } else o
    s.modFlash fun f => { f with
      ops := f.ops.map one
      bufs := updWhere (fun b => b.blk == blk) (fun b => { b with cls := 0, peerTag := none, frags := [], unit := b.clear }) f.bufs }

/-- A rebuild operation is charged to its group's frame (R262). -/
def chargeRebuild (gi : Nat) (o : FlashOp) (s : State) : State :=
  match s.op? o.tag with
  | some x => if s.rebuilds x then s.modGroup gi fun g => { g with rebuildCharged := g.rebuildCharged + s.rebuildCharge x } else s
  | none => s

/-- A queued operation goes to its die. A flash read that goes takes its buffer from a peer read (R134). -/
def startOn (o : FlashOp) (s : State) : State :=
  let s0 := match o.use with | .landing blk => revokePeer blk s | _ => s
  let s1 := submit o.tag s0
  if o.writes then
    s1.modDie o.bay o.die fun d => { d with op := some o.tag, erase := o.opc == 0x20, start := s.micros, suspTotal := 0,
                                            suspAt := none, suspends := 0, held := false, overrun := false,
                                            segEnd := s.turnEnd - s.guardNs }
  else s1.modDie o.bay o.die fun d => { d with reading := some o.tag, reads := d.reads + 1 }

/-- A queued operation goes to its die, and is charged when it rebuilds (R262). -/
def startCharged (gi : Nat) (o : FlashOp) (s : State) : State := startOn o (chargeRebuild gi o s)

/-- A die with a program or erase suspended for reads (R197): the next read while the limit and the program's remaining time allow, then
the resume, in its write turn only and where it fits (R184, R185). An erase that no longer fits is held until the next write turn
(R200). -/
def suspendedDispatch (gi bay die m : Nat) (wt : Bool) (q : List FlashOp) (s : State) : State :=
  let d := s.die bay die
  let ds := s.desc bay
  let fits (more : Nat) : Bool := wt && s.othersIdle gi die m && if d.erase then s.eraseFits gi bay
    else decide (s.programLeft d + more ≤ s.usToGuard)
  match (if d.reads < s.paramN 0x4003 && (d.erase || fits ds.tSense999) then
      pickOp false (q.filter fun o => o.qcls == 0 && !o.writes) else none) with
  | some o => startCharged gi o s
  | none =>
    if fits 0 then resumeDie bay die s
    else if d.erase then s.modDie bay die fun d => { d with held := true, reads := 0 }
    else s

/-- A die takes what comes next (R191 to R193, R197, R200, R214). In the dead interval after a step no program and no erase
starts (R51). -/
def dieDispatch (bay die : Nat) (s : State) : State :=
  match s.bayMember bay with
  | none => s
  | some (gi, m) =>
    let g := s.group gi
    let d := s.die bay die
    if !(g.role.owns || (g.role == .takingOver && g.won)) || g.hand.any Handover.final || (s.bay bay).st != .ready ||
        !s.ringRoom bay then s
    else match s.flash.ops.find? fun o => o.bay == bay && o.st == .queued && decide (0x30 ≤ o.opc) with
      | some o => submit o.tag s
      | none =>
        if d.reading.isSome || !g.accepted m || d.unknown then s
        else
          let wt := g.busyMember die s.turnNow == m && !s.time.stepPending
          let tt := s.targetTurn g die
          let q := s.flash.ops.filter fun o => o.bay == bay && o.die == die && o.st == .queued && peerFree o s
          let lim := s.paramN 0x4003
          if d.op.isSome && !d.held then if d.suspAt.isNone then s else suspendedDispatch gi bay die m wt q s
          else
            let may := (q.filter (s.mayStart gi bay die m wt tt)).map (s.classNow g)
            let urgent := decide (g.freeBands.length ≤ s.paramN 0x3005 ∧ g.freeBands.length ≤ s.paramN 0x3006)
            if wt then
              let fast := may.filter fun o => decide (o.qcls ≤ 1)
              let resume := d.held && s.othersIdle gi die m && s.eraseFits gi bay
              let slow := may.filter fun o => decide (1 < o.qcls) && !(o.writes && d.held)
              if !fast.isEmpty && (d.reads < lim || (slow.isEmpty && !resume)) then
                match pickOp urgent fast with | some o => startCharged gi o s | none => s
              else if resume then resumeDie bay die (s.modDie bay die fun d => { d with reads := 0, start := s.micros })
              else
                match pickOp urgent slow with
                | some o => startCharged gi o (if o.writes then s.modDie bay die fun d => { d with reads := 0 } else s)
                | none => s
            else
              match pickOp urgent may with | some o => startCharged gi o s | none => s

end Sys2Proof.Machine
end

