-- ==== Sys2Proof/Machine/Stripes.lean ====
section
/-! DEFINITION. Write-staging slots and stripes: which DUs take a unit, how a stripe is filled, formed and programmed, and die
parity (R28, R145, R158 to R160, R233, R234, R239). -/

namespace Sys2Proof.Machine

/-! ### Write-staging slots (R28, R145) -/

def State.slot? (s : State) (n : Nat) : Option WSlot := s.flash.slots.find? fun x => x.slot == n

def State.modSlot (s : State) (n : Nat) (f : WSlot → WSlot) : State :=
  s.modFlash fun x => { x with slots := updWhere (fun y => y.slot == n) f x.slots }

def State.freeSlot (s : State) (n : Nat) : State :=
  s.modFlash fun x => { x with slots := x.slots.filter fun y => y.slot != n }

/-- The first of `n` consecutive free slots, modulo 131,072 (R242). Which run it is the spec leaves open (log 3). -/
def State.slotRun (s : State) (n : Nat) : Option Nat :=
  anyFrom (fun a => (List.range n).all fun i => (s.slot? ((a + i) % 131072)).isNone) s.freeNat 131072

/-- One free slot takes a unit. -/
def putSlot (w : WSlot) (s : State) : Nat × State :=
  let n := (s.slotRun 1).getD 0
  (n, s.drew.modFlash fun x => { x with slots := x.slots ++ [{ w with slot := n }] })

/-- Units of dirty staging, and of the parity, die-parity and metadata chunks that admitted data will still produce
(R28). -/
def State.dirtyUnits (s : State) : Nat := (s.flash.slots.filter WSlot.dirty).length
/-- What admitted data of a group will still put into staging (R28): parity of the stripes not yet formed and filler if they are
closed early, die parity of the rows begun, and delta-log pages, each of which closes a stripe. -/
def Group.owed (g : Group) : Nat :=
  let open' := g.stripes.filter fun x => !x.formed
  let rows := (open'.map fun x => (x.band, g.rowOf x.q)).eraseDups.filter fun r =>
    !(g.dieAccs.any fun a => a.band == r.1 && a.row == r.2)
  let logs := ceilDiv (g.journal.filter fun r => g.logged ≤ r.jseq).length 256
  (open'.map fun x => 4 * g.w - x.units.length).sum + 4 * g.dieAccs.length + 4 * g.w * rows.length +
    (if logs = 0 && open'.isEmpty then 0 else 4 * g.w * (logs + 1))

def State.owedUnits (s : State) : Nat := (s.groups.map Group.owed).sum

/-- The unit at a source index: a staging slot or a staging block (R217). -/
def State.sourceUnit (s : State) (src : Nat) : Unit16 :=
  if src < 131072 then ((s.slot? src).map WSlot.unit).getD Unit16.filler
  else ((s.flash.bufs.find? fun b => b.blk + 131072 == src).map Buf.unit).getD Unit16.filler

/-! ### Which DUs take a unit (R234, R235, R268) -/

/-- An ERASE of a member's block joins its die's queue. -/
def queueErase (gi m k blk qcls : Nat) (why : EraseFor) (s : State) : State :=
  enqueue { bay := (s.group gi).bayOf m, die := k, opc := 0x20, qcls, block := blk, use := .erase gi m why } s

/-- A DU takes data: its die index is in use, its member stands, and no lost entry covers it. -/
def Group.placeable (g : Group) (b : Band) (du : Nat) : Bool :=
  let q := g.stripeOf du
  !b.skip.contains (g.dieOf q) && g.presentMember (g.dataMember q (g.indexOf du / 4)) && !g.isLost (mkGua b.num du)

/-- The first placeable DU from one upward, within a fuel; the end of the band when there is none. -/
def Group.nextDu (g : Group) (b : Band) : Nat → Nat → Nat
  | 0, du => du
  | n + 1, du => if g.placeable b du then du else Group.nextDu g b n (du + 1)

/-- The next DU that a band can place. -/
def Group.nextIn (g : Group) (band : Nat) : Nat :=
  let b := g.band band
  g.nextDu b (g.bandUnits - b.wp) b.wp

/-- Units that a band can still place in one run from its next DU, at most `n` (R148). -/
def Group.runLeft (g : Group) (band n : Nat) : Nat :=
  let d := g.nextIn band
  ((List.range n).takeWhile fun i => decide (d + i < g.bandUnits) && g.placeable (g.band band) (d + i)).length

/-! ### Stripes -/

def Group.stripe? (g : Group) (band q : Nat) : Option Stripe := g.stripes.find? fun x => x.band == band && x.q == q

def Group.modStripe (g : Group) (band q : Nat) (f : Stripe → Stripe) : Group :=
  { g with stripes := updWhere (fun x => x.band == band && x.q == q) f g.stripes }

/-- A unit at index i XORed into a stripe's parity (R233). -/
def Stripe.fold (x : Stripe) (i : Nat) (u : Unit16) : Stripe :=
  { x with parity := upd x.parity (i % 4) fun p => p.xor u }

/-- A unit is placed at a DU of a band: its source joins the stripe, its owner record the band summary, and WP moves
past it (R158, R159). A source still to come (`ready` false) folds into parity when it is there. -/
def placeAt (gi band du src : Nat) (nsx unitNo : Nat) (ready : Bool) (s : State) : State :=
  let g := s.group gi
  let q := g.stripeOf du
  let i := g.indexOf du
  let b := g.band band
  let fresh := (g.stripe? band q).isNone
  let g1 := if fresh then { g with stripes := g.stripes ++ [{ band, q, stream := b.stream }] } else g
  let add (x : Stripe) : Stripe :=
    let y := { x with units := x.units ++ [(i, src)] }
    if ready then y.fold i (s.sourceUnit src) else { y with waiting := i :: y.waiting }
  let g2 := (g1.modStripe band q add).modBand band fun b => { b with wp := du + 1 }
  let own : Owner := { gua := mkGua band du, nsx, unit := unitNo }
  s.modGroup gi fun _ => { g2 with owners := own :: g2.owners }

/-- Every DU of a stripe is placed or passed over. -/
def Group.stripeClosed (g : Group) (band q : Nat) : Bool :=
  decide ((q + 1) * g.perStripe ≤ g.nextIn band) || (g.band band).st != .opened

/-! ### Forming a stripe and programming its chunks (R160, R191, R234) -/

/-- Source indices of a member's chunk of a stripe: filler goes into fresh slots (R239). -/
def chunkSources (gi : Nat) (units : List (Nat × Nat)) (role : Nat) (s : State) : List Nat × State :=
  (List.range 4).foldl (fun (a : List Nat × State) u =>
    match units.find? fun p => p.1 == 4 * role + u with
    | some p => (a.1 ++ [p.2], a.2)
    | none =>
      let (n, s') := putSlot { unit := Unit16.filler, g := gi } a.2
      (a.1 ++ [n], s')) ([], s)

/-- A PROGRAM of a chunk joins its die's queue, behind the erase of its block when this group has not erased it yet
(R534). -/
def queueProgram (gi band q m qcls : Nat) (src : List Nat) (s : State) : State :=
  let g := s.group gi
  let k := g.dieOf q
  let b := g.band band
  let (blk, pos) := b.blockAt m k (g.rowOf q)
  let s1 := if b.clean.contains (m, k) then s
    else queueErase gi m k blk qcls (.fresh band) (s.modGroup gi fun g => g.modBand band fun b => { b with clean := (m, k) :: b.clean })
  enqueue { bay := g.bayOf m, die := k, opc := 0x10, qcls, block := blk, page := 4 * pos, src, use := .chunk gi band q m } s1

/-- Die parity: a chunk's units fold into its member's accumulator for the row; a complete row is programmed in the
parity-area block (R160). -/
def foldDieParity (gi band q m : Nat) (us : List Unit16) (s : State) : State :=
  let g := s.group gi
  let row := g.rowOf q
  let isIt (a : DieAcc) : Bool := a.band == band && a.member == m && a.row == row
  let old := (g.dieAccs.find? isIt).getD { band, member := m, row }
  let a := { old with folded := old.folded + 1, dies := g.dieOf q :: old.dies, units := List.zipWith Unit16.xor old.units us }
  let rest := g.dieAccs.filter fun x => !isIt x
  if a.folded < g.dies - (g.band band).skip.eraseDups.length then s.modGroup gi fun g => { g with dieAccs := a :: rest }
  else
    let s1 := s.modGroup gi fun g => { g with dieAccs := rest }
    match (g.band band).subst.find? fun e => e.parity && e.member == m with
    | none => s1
    | some e =>
      let (src, s2) := a.units.foldl (fun (p : List Nat × State) u =>
        let (n, s') := putSlot { unit := u, g := gi } p.2
        (p.1 ++ [n], s')) ([], s1)
      enqueue { bay := g.bayOf m, die := e.die, opc := 0x10, qcls := 3, block := e.block, page := 4 * row, src,
                use := .dieParity gi band m row } s2

/-- Queue class of a stripe's programs (R191): a stripe of stream 8 goes in class 4, and with owed rebuild work when it holds a copy
off a dead die (R235). -/
def Group.stripeClass (g : Group) (x : Stripe) : Nat :=
  let here (r : RelocUnit) : Bool := guaBand r.new == x.band && g.stripeOf (guaDu r.new) == x.q
  if x.stream = 8 then if g.collects.any fun c => c.owed && c.batch.any here then 2 else 4 else 3

/-- One member's chunk of a stripe being formed. -/
def formChunk (gi : Nat) (x : Stripe) (paritySlots : List Nat) (s : State) (m : Nat) : State :=
  let g := s.group gi
  let role := g.roleOf x.q m
  let present := g.takes m x.band x.q
  let units := x.units.filter fun p => p.1 / 4 == role
  if !present then
    let hole := units = [] || role = g.w - 1
    s.modGroup gi fun g =>
      (g.modStripe x.band x.q fun y => { y with chunks := y.chunks ++ [.skipped] }).modBand x.band fun b =>
        if hole then { b with holes := (x.q, m) :: b.holes } else b
  else
    let (src, s1) := if role = g.w - 1 then (paritySlots, s) else chunkSources gi units role s
    let s2 := s1.modGroup gi fun g => g.modStripe x.band x.q fun y => { y with chunks := y.chunks ++ [.queued] }
    let s3 := foldDieParity gi x.band x.q m (src.map s2.sourceUnit) s2
    queueProgram gi x.band x.q m (g.stripeClass x) src s3

/-- A stripe whose data is all there is formed: parity takes filler for every unit not placed, goes into staging, and
each chunk's program is queued (R27, R160, R234, R239). -/
def formStripe (gi band q : Nat) (s : State) : State :=
  let g := s.group gi
  match g.stripe? band q with
  | none => s
  | some x =>
    if x.formed || !x.waiting.isEmpty || !g.stripeClosed band q then s
    else
      let miss := (List.range g.perStripe).filter fun i => !(x.units.any fun p => p.1 == i)
      let y := miss.foldl (fun y i => y.fold i Unit16.filler) x
      let (slots, s1) := if g.takes (g.parityMember q) band q then
          y.parity.foldl (fun (p : List Nat × State) u =>
            let (n, s') := putSlot { unit := u, g := gi } p.2
            (p.1 ++ [n], s')) ([], s)
        else ([], s)
      let s2 := s1.modGroup gi fun g => g.modStripe band q fun _ => { y with formed := true, chunks := [] }
      (List.range g.w).foldl (formChunk gi y slots) s2

/-- A stripe is closed early: its remaining DUs become filler (R27, R82, R162). -/
def closeStripe (gi band q : Nat) (s : State) : State :=
  let g := s.group gi
  let past := (q + 1) * g.perStripe
  let s1 := s.modGroup gi fun g => g.modBand band fun b => { b with wp := Nat.max b.wp past }
  formStripe gi band q s1

/-- Stripes that hold some units are closed at once (R27, R82). -/
def closeFor (gi : Nat) (guas : List Nat) (s : State) : State :=
  guas.foldl (fun s a =>
    let g := s.group gi
    let q := g.stripeOf (guaDu a)
    match g.stripe? (guaBand a) q with
    | some x => if x.formed then s else closeStripe gi (guaBand a) q s
    | none => s) s

/-- The source of a placed unit becomes known: it folds into the stripe's parity (R114, R148, R233). -/
def landCopy (gi gua src : Nat) (s : State) : State :=
  let g := s.group gi
  let band := guaBand gua
  let q := g.stripeOf (guaDu gua)
  let i := g.indexOf (guaDu gua)
  let fill (x : Stripe) : Stripe :=
    if x.waiting.contains i then
      { x.fold i (s.sourceUnit src) with units := updWhere (fun p => p.1 == i) (fun p => (p.1, src)) x.units,
                                         waiting := x.waiting.filter (· != i) }
    else x
  formStripe gi band q (s.modGroup gi fun g => g.modStripe band q fill)

/-- A unit placed whose source will not come: its DU takes filler (R239). -/
def dropPlaces (gi : Nat) (guas : List Nat) (s : State) : State :=
  guas.foldl (fun s gua =>
    let g := s.group gi
    let band := guaBand gua
    let q := g.stripeOf (guaDu gua)
    let i := g.indexOf (guaDu gua)
    let out (x : Stripe) : Stripe :=
      if x.waiting.contains i then { x with units := x.units.filter fun p => p.1 != i, waiting := x.waiting.filter (· != i) } else x
    formStripe gi band q (s.modGroup gi fun g => g.modStripe band q out)) s

/-! ### Chunks that await their program (R492) -/

/-- Chunks, data or parity, that await their program on a die; one that executes does not count (R492). -/
def State.progsWaiting (s : State) (bay die : Nat) : Nat :=
  (s.flash.ops.filter fun o => o.bay == bay && o.die == die && o.st == .queued && o.opc == 0x10 &&
    match o.use with | .chunk _ _ _ _ | .dieParity _ _ _ _ | .rebuilt _ _ _ _ => true | _ => false).length

/-- Every unit of a stripe is still a place that a zoned write was given at its arrival and has not filled (R148): nothing of it can
await its program. -/
def Stripe.reserved (x : Stripe) : Bool := decide (x.stream ≤ 7) && x.units.all fun p => x.waiting.contains p.1

/-- Placing units at some GUAs keeps every die at 12 chunks awaiting program, with the stripes that fill counted as theirs (R492). -/
def State.programRoom (s : State) (gi : Nat) (guas : List Nat) : Bool :=
  let g := s.group gi
  let open' := (g.stripes.filter fun x => !x.formed && !x.reserved).map fun x => (x.band, x.q)
  let new := (guas.map fun a => (guaBand a, g.stripeOf (guaDu a))).eraseDups
  let all := open' ++ new.filter fun x => !open'.contains x
  (new.map fun x => g.dieOf x.2).eraseDups.all fun k =>
    let n := (all.filter fun x => g.dieOf x.2 == k).length
    g.members.all fun m => decide (s.progsWaiting m.bay k + n ≤ 12)

/-! ### Maps and zones (R145 to R148, R151) -/

/-- 16 KiB units of a zone. -/
def Ns.zoneUnits (n : Ns) : Nat := 16384 * 2 ^ n.zoneCode

/-- VALID of a band changes. -/
def addValid (gi gua : Nat) (up : Bool) (s : State) : State :=
  s.modGroup gi fun g => g.modBand (guaBand gua) fun b => { b with valid := if up then b.valid + 1 else b.valid - 1 }

/-- A map value of a conventional unit. -/
def Ns.lookup (n : Ns) (u : Nat) : Option MapVal := (n.map.find? fun p => p.1 == u).map Prod.snd

/-- A map entry set, or cleared. -/
def Ns.setMap (n : Ns) (u : Nat) (v : Option MapVal) : Ns :=
  let rest := n.map.filter fun p => p.1 != u
  { n with map := match v with | some x => (u, x) :: rest | none => rest }

/-- A zone of a namespace: Empty unless it is on record. -/
def Ns.zone (n : Ns) (z : Nat) : Zone :=
  match n.zones.find? fun x => x.num == z with
  | some x => x
  | none => { num := z, cls := n.cls }

def Ns.modZone (n : Ns) (z : Nat) (f : Zone → Zone) : Ns :=
  { n with zones := f (n.zone z) :: n.zones.filter fun x => x.num != z }

/-- The GUA of a zone's unit (R148): the extent with the greatest ZOFF not above it, for units below WRITTEN. -/
def Zone.gua? (z : Zone) (off : Nat) : Option Nat :=
  if z.written ≤ off then none
  else (z.extents.filter fun e => e.1 ≤ off).foldl (fun (a : Option (Nat × Nat)) e => match a with
    | none => some e
    | some x => if x.1 ≤ e.1 then some e else some x) none |>.map fun e => e.2 + (off - e.1)

/-- Extents that follow one another, in the zone and on flash, are one (R148). -/
def joinExtents (l : List (Nat × Nat)) : List (Nat × Nat) :=
  l.foldl (fun (a : List (Nat × Nat)) e => match a.getLast? with
    | some p => if p.2 + (e.1 - p.1) = e.2 then a else a ++ [e]
    | none => [e]) []

/-- One unit of a zone comes to lie at another GUA: its extent is split or joined where needed (R148). -/
def Zone.setUnit (z : Zone) (off gua : Nat) : Zone :=
  let cover := (z.extents.filter fun e => e.1 ≤ off).foldl (fun (a : Option (Nat × Nat)) e => match a with
    | none => some e
    | some x => if x.1 ≤ e.1 then some e else some x) none
  match cover with
  | none => z
  | some e =>
    let next := z.extents.foldl (fun a x => if off < x.1 then Nat.min a x.1 else a) z.written
    let rest := z.extents.filter (· != e)
    let parts := (if e.1 < off then [e] else []) ++ [(off, gua)] ++
      (if off + 1 < next then [(off + 1, e.2 + (off + 1 - e.1))] else [])
    { z with extents := joinExtents ((rest ++ parts).mergeSort fun a b => decide (a.1 ≤ b.1)) }

def Ns.setZoneUnit (n : Ns) (u gua : Nat) : Ns :=
  n.modZone (u / n.zoneUnits) fun z => z.setUnit (u % n.zoneUnits) gua

/-- The map value of any unit: what a lookup finds (R145, R148). -/
def State.mapOf (s : State) (nsx u : Nat) : Option MapVal :=
  match s.ns? nsx with
  | none => none
  | some n =>
    if n.zoned then
      match (n.zone (u / n.zoneUnits)).gua? (u % n.zoneUnits) with
      | none => none
      | some g =>
        match s.flash.slots.find? fun w => w.gua == some g && w.g == n.group with
        | some w => some (.staged w.slot)
        | none => some (.gua g)
    else n.lookup u

/-- The map still names a GUA for its owner (R159, R167). A page of stream 9 (namespace index 0xFFFF) counts while it is needed. -/
def State.mapNames (s : State) (gi : Nat) (o : Owner) : Bool :=
  if o.nsx = 0xFFFF then (s.group gi).pages.any fun p => p.gua == o.gua
  else match s.ns? o.nsx with
    | none => false
    | some n =>
      n.group == gi &&
        if n.zoned then (n.zone (o.unit / n.zoneUnits)).gua? (o.unit % n.zoneUnits) == some o.gua
        else n.lookup o.unit == some (.gua o.gua)

/-- The owner record of a GUA in the band summary. -/
def Group.ownerOf (g : Group) (gua : Nat) : Option Owner := g.owners.find? fun o => o.gua == gua

/-- A unit is valid: placed, and the map names it (R151 VALID). -/
def State.validAt (s : State) (gi gua : Nat) : Bool :=
  match (s.group gi).ownerOf gua with
  | some o => s.mapNames gi o
  | none => false

/-- A zone ends at a unit: later units are placed no more (R72). -/
def Zone.cutAt (z : Zone) (u : Nat) : Zone :=
  { z with wp := u, written := Nat.min z.written u, extents := z.extents.filter fun e => decide (e.1 < u) }

end Sys2Proof.Machine
end

