-- ==== Sys2Proof/Machine/HostCore.lean ====
section
/-! DEFINITION. What every host command shares: contexts, completions, notices, ANA states, and what becomes of flash
operations whose command has gone (R62, R66, R72, R74, R94 to R102, R122). -/

namespace Sys2Proof.Machine

/-! ### Status codes (R100, R101): status code type in the high byte -/

abbrev Sc.ok : Nat := 0x000
abbrev Sc.opcode : Nat := 0x001
abbrev Sc.field : Nat := 0x002
abbrev Sc.transfer : Nat := 0x004
abbrev Sc.internal : Nat := 0x006
abbrev Sc.aborted : Nat := 0x007
abbrev Sc.badNs : Nat := 0x00B
abbrev Sc.sequence : Nat := 0x00C
abbrev Sc.protected : Nat := 0x020
abbrev Sc.interrupted : Nat := 0x021
abbrev Sc.lbaRange : Nat := 0x080
abbrev Sc.capacity : Nat := 0x081
abbrev Sc.logPage : Nat := 0x109
abbrev Sc.notSaveable : Nat := 0x10D
abbrev Sc.connectParams : Nat := 0x182
abbrev Sc.connectHost : Nat := 0x184
abbrev Sc.zoneBoundary : Nat := 0x1B8
abbrev Sc.zoneFull : Nat := 0x1B9
abbrev Sc.zoneInvalidWrite : Nat := 0x1BC
abbrev Sc.zoneTooManyActive : Nat := 0x1BD
abbrev Sc.zoneTooManyOpen : Nat := 0x1BE
abbrev Sc.zoneTransition : Nat := 0x1BF
abbrev Sc.unrecovered : Nat := 0x281
abbrev Sc.anaLoss : Nat := 0x301
abbrev Sc.anaInaccessible : Nat := 0x302
abbrev Sc.anaTransition : Nat := 0x303
abbrev Sc.extentList : Nat := 0x780
abbrev Sc.gatherTooLarge : Nat := 0x781
abbrev Sc.extentNotLocal : Nat := 0x782
abbrev Sc.pacingNotConfigured : Nat := 0x783
abbrev Sc.pacingBacklog : Nat := 0x784
abbrev Sc.genRetired : Nat := 0x785
abbrev Sc.misaligned : Nat := 0x786
abbrev Sc.groupSpent : Nat := 0x787

/-! ### Contexts -/

def State.modHost (s : State) (f : HostState → HostState) : State := { s with host := f s.host }

def State.assoc? (s : State) (n : Nat) : Option Assoc := s.host.assocs.find? fun a => a.num == n
def State.modAssoc (s : State) (n : Nat) (f : Assoc → Assoc) : State :=
  s.modHost fun h => { h with assocs := updWhere (fun a => a.num == n) f h.assocs }

def State.sess? (s : State) (n : Nat) : Option Session := s.host.sessions.find? fun a => a.num == n
def State.modSess (s : State) (n : Nat) (f : Session → Session) : State :=
  s.modHost fun h => { h with sessions := updWhere (fun a => a.num == n) f h.sessions }

def State.cmd? (s : State) (n : Nat) : Option Cmd := s.host.cmds.find? fun a => a.num == n
def State.modCmd (s : State) (n : Nat) (f : Cmd → Cmd) : State :=
  s.modHost fun h => { h with cmds := updWhere (fun a => a.num == n) f h.cmds }

/-- The host NQN's access to a namespace (R61, R394). -/
def State.granted (s : State) (nqn : List Byte) (nsx : Nat) : Bool :=
  s.host.grants.any fun g => g.nqn == nqn && g.bitmap.testBit nsx

/-- LBA size of a namespace in bytes, and its size in LBAs. -/
def Ns.lba (n : Ns) : Nat := if n.lba512 then 512 else 4096
def Ns.lbas (n : Ns) : Nat := n.size / n.lba

/-! ### Flash operations whose command has gone (R122) -/

/-- A staging buffer serves a command. -/
def Buf.ofCmd (b : Buf) (c : Nat) : Bool :=
  match b.use with
  | .host n _ => n == c
  | .rmw n _ => n == c
  | _ => false

/-- A command's buffers and queued operations go (R111, R122): an operation not dispatched is cancelled, a buffer that is still
landing with a dispatched one becomes ORPHAN, every other buffer is free at once. R122 speaks of flash operations only: a peer
read's slot is revoked and its buffer free at once (DESIGN CHOICE, log 128). -/
def dropFlash (c : Nat) (s : State) : State :=
  let mine := (s.flash.bufs.filter fun b => b.ofCmd c).map Buf.blk
  let isMine (o : FlashOp) : Bool := match o.use with | .landing blk => mine.contains blk | _ => false
  let open' := (s.flash.ops.filter fun o => isMine o && o.st == .outstanding && o.opc != opcPeer && !o.dropped).map FlashOp.buf
  let orphan (b : Buf) : Bool := b.ofCmd c && (b.st == .bound || b.st == .landed) && open'.contains b.blk
  let orphans := (s.flash.bufs.filter orphan).length
  s.modFlash fun f => { f with
    ops := (f.ops.filter fun o => !(isMine o && o.st == .queued)).map fun o =>
      if isMine o && o.opc == opcPeer && o.live then { o with live := false, st := .quarantine }
      else if isMine o then { o with dropped := true } else o
    bufs := (f.bufs.filter fun b => !b.ofCmd c || orphan b).map fun b => if orphan b then { b with st := .orphan } else b
    waits := f.waits.filter fun w => !({ use := w.use : Buf }.ofCmd c)
    ctrs := { f.ctrs with orphans := f.ctrs.orphans + orphans } }

/-! ### Completions -/

/-- CNTLID of an association, and CNTLID and QID of a session. -/
def State.cntlidOf (s : State) (a : Nat) : Nat := match s.assoc? a with | some x => x.cntlid | none => 0
def State.queueOf (s : State) (sess : Nat) : Nat × Nat :=
  match s.sess? sess with
  | some q => (s.cntlidOf q.assoc, q.qid)
  | none => (0, 0)

/-- A command context is freed. -/
def freeCmd (c : Nat) (s : State) : State :=
  s.modHost fun h => { h with cmds := h.cmds.filter fun x => x.num != c }

/-- The DUs that a zoned write was given and did not fill take filler (R148, R239). -/
def dropRun (x : Cmd) (s : State) : State :=
  match s.ns? x.nsx with
  | some n => if x.wst = .staged then s else dropPlaces n.group x.run s
  | none => s

def State.assocAt (s : State) (cntlid : Nat) : Option Assoc := s.host.assocs.find? fun a => a.cntlid == cntlid

def State.sessAt (s : State) (cntlid qid : Nat) : Option Session :=
  match s.assocAt cntlid with
  | some a => s.host.sessions.find? fun q => q.assoc == a.num && q.qid == qid
  | none => none

/-- The record-table key of a queue: its session's number, or its association's for the admin queue (R356). -/
def State.tlsKey (s : State) (cntlid qid : Nat) : Option Nat :=
  if qid = 0 then (s.assocAt cntlid).map Assoc.num else (s.sessAt cntlid qid).map Session.num

/-- Bytes leave for a host. On a TLS session they take records of up to 16,384 bytes, each with the next sequence number and a mask of two
blocks, sealed on Q1 (R356, R358, R363; DEDUCED, log 134). -/
def toHost (cntlid qid len : Nat) (o : Output) (s : State) : State :=
  match (s.tlsKey cntlid qid).bind fun k => s.ciph.recs.find? fun r => r.sess == k with
  | none => s.emit o
  | some r =>
    let n := Nat.max 1 (ceilDiv len 16384)
    let s1 := (cipherWork 1 (ceilDiv len 16 + 3 * n) (useKey 3072 s)).modCiph fun c =>
      { c with recs := updWhere (fun x => x.sess == r.sess) (fun x => { x with txSeq := x.txSeq + n }) c.recs }
    s1.emit o

/-- A completion leaves, in a PDU of 24 bytes. -/
def postCpl (cntlid qid cid status : Nat) (dnr : Bool) (dw0 dw1 sqhd : Nat) (s : State) : State :=
  toHost cntlid qid 24 (.completion cntlid qid cid status dnr dw0 dw1 sqhd) s

/-- Bytes of a command's transfer leave. -/
def sendData (cntlid qid cid off : Nat) (data : List Byte) (s : State) : State :=
  toHost cntlid qid data.length (.hostData cntlid qid cid off data) s

/-- A command ends: its completion is posted unless its queue has gone, and its context is freed (R62, R74). -/
def complete (c : Nat) (status : Nat) (dnr : Bool) (dw0 dw1 : Nat) (s : State) : State :=
  match s.cmd? c with
  | none => s
  | some x =>
    let s1 := freeCmd c (dropFlash c (dropRun x s))
    match s.sess? x.sess with
    | some q => if x.silent || s.flush.active then s1 else postCpl (s.cntlidOf q.assoc) q.qid x.cid status dnr dw0 dw1 q.sqhd s1
    | none => s1

/-- An admin command of an association, or a command that never had a context, is answered. -/
def answerAdmin (a cid status : Nat) (dnr : Bool) (dw0 dw1 : Nat) (s : State) : State :=
  if s.flush.active then s
  else postCpl (s.cntlidOf a) 0 cid status dnr dw0 dw1 (match s.assoc? a with | some x => x.sqhd | none => 0) s

/-- A command is a write. -/
def CmdKind.writes : CmdKind → Bool
  | .write | .zappend | .zeroes | .dealloc | .zone => true
  | _ => false

/-- Arrival order at the target engines: the cycle, then the lower-numbered engine (R73); one engine takes capsules in turn. -/
def Cmd.before (a b : Cmd) : Bool :=
  decide (a.stamp < b.stamp) || a.stamp == b.stamp && (decide (a.engine < b.engine) || a.engine == b.engine && decide (a.num < b.num))

/-- A Write or Zone Append to a zoned namespace's zone. -/
def Cmd.zoned (x : Cmd) (n : Ns) : Bool := n.zoned && (x.kind == .write || x.kind == .zappend)

/-- DW0 of a failure (R88): the failing extent's index for the vendor reads, and the detail code. -/
def Cmd.failDw0 (x : Cmd) (ext detail : Nat) : Nat := detail + if x.kind = .gathered || x.kind = .paced then ext * 65536 else 0

/-- The extent of the first unit of a read that meets a condition. -/
def Cmd.extentOf (x : Cmd) (p : ReadUnit → Bool) : Nat := ((x.units.find? p).map ReadUnit.ext).getD 0

/-! ### Writes that can post their completions (R27, R72, R74, R82) -/

/-- A write's records let it complete: acknowledged by the partner, or without a mirror durable; for Force Unit Access retired as
well, which is step 9 of the write table (R27, R247). -/
def State.writeReady (s : State) (c : Cmd) : Bool :=
  match s.ns? c.nsx with
  | none => true
  | some n =>
    let g := s.group n.group
    let ackOk (j : Nat) : Bool :=
      if g.mirror = .service then decide (j < g.acked) else decide (j < g.durable)
    c.recs.all fun j => ackOk j && !(c.fua && g.journal.any fun r => r.jseq == j)

/-- A zoned write waits for the earlier ones of its zone: write-pointer order is the order in which they were decoded (R72). -/
def State.zoneTurn (s : State) (c : Cmd) : Bool :=
  match s.ns? c.nsx with
  | none => true
  | some n => !c.zoned n || !(s.host.cmds.any fun y => y.nsx == c.nsx && y.zone == c.zone && y.num != c.num && y.zoned n && decide (y.num < c.num))

/-- A flush waits until every record it named is retired (R82). -/
def State.flushReady (s : State) (c : Cmd) : Bool :=
  c.waitFor.all fun p => !((s.group p.1).journal.any fun r => r.jseq == p.2)

/-- A write that has filled its zone makes it Full as it completes (R71); with more extents than `ftl.zone.compact_extents` the zone is
to be compacted (R149). -/
def zoneFilled (x : Cmd) (s : State) : State :=
  match s.ns? x.nsx with
  | none => s
  | some n =>
    if x.zoned n && (n.zone x.zone).written = n.zoneUnits && x.zoneUnit + x.len / 16384 = n.zoneUnits then
      s.modNs x.nsx fun n => n.modZone x.zone fun z =>
        { z with st := .full, compact := z.compact || decide (s.paramN 0x300C < z.extents.length) }
    else s

/-- The completion of a finished write or flush, or of a failed write of a zone. A Zone Append returns its LBA (R72, R81). -/
def postOne (s : State) (c : Cmd) : State :=
  match s.cmd? c.num with
  | none => s
  | some c =>
    if c.kind = .flush then if s.flushReady c then complete c.num Sc.ok false 0 0 s else s
    else match c.fail with
      | some f => if s.zoneTurn c then complete c.num f.1 f.2.1 f.2.2 0 s else s
      | none =>
        if c.kind.writes && c.wst == .staged && s.writeReady c && s.zoneTurn c then
          let lba := if c.kind = .zappend then c.first / 4096 else 0
          zoneFilled c (complete c.num Sc.ok false (lba % 2 ^ 32) (lba / 2 ^ 32) s)
        else s

/-- Every write and flush that can post its completion does, in arrival order. -/
def postWrites (s : State) : State := s.host.cmds.foldl postOne s

/-- A command has failed and waits to be posted in its zone's order (R72). -/
def markFailed (status : Nat) (dnr : Bool) (dw0 : Nat) (s : State) (x : Cmd) : State :=
  let s1 := dropFlash x.num (dropRun x s)
  s1.modCmd x.num fun x => { x with wst := .failed, fail := some (status, dnr, dw0), run := [], data := [], rmwLeft := [] }

/-- The write pointer goes back to where a failed write began; a zone that Finish made Full stays so (R71, R72). The units that it
had placed are valid no more. -/
def zoneBack (x : Cmd) (s : State) : State :=
  match s.ns? x.nsx with
  | none => s
  | some n =>
    let z := n.zone x.zone
    if !x.zoned n || z.finished then s
    else
      let gone := ((List.range z.written).drop x.zoneUnit).filterMap z.gua?
      let s1 := gone.foldl (fun s g => addValid n.group g false s) s
      s1.modNs x.nsx fun n => n.modZone x.zone fun z => { z.cutAt x.zoneUnit with wp := Nat.min z.wp x.zoneUnit }

/-- A write of a zone fails after the pointer was advanced: the later ones of the zone that have not completed fail with Command
Interrupted, and the write pointer goes back (R72). -/
def zoneFailed (x : Cmd) (s : State) : State :=
  match s.ns? x.nsx with
  | none => s
  | some n =>
    if !x.zoned n then s
    else
      let later := s.host.cmds.filter fun y => y.nsx == x.nsx && y.zone == x.zone && y.num != x.num && y.zoned n && decide (x.num < y.num) &&
        y.fail.isNone
      zoneBack x (later.foldl (markFailed Sc.interrupted false 0) s)

/-- A command fails (R72, R88): at once, or for a write of a zone in the order of its zone. -/
def failCmd (c status : Nat) (dnr : Bool) (dw0 : Nat) (s : State) : State :=
  match s.cmd? c with
  | none => s
  | some x =>
    match s.ns? x.nsx with
    | some n =>
      if x.zoned n then postWrites (zoneFailed x (markFailed status dnr dw0 s x)) else complete c status dnr dw0 0 s
    | none => complete c status dnr dw0 0 s

/-- A command whose request to the cipher engine for a unit of an extent failed ends with the status of R369: RETIRED with Key
Generation Retired, any other with Internal Error, for which the black box takes FC_INTERNAL with a location that is free (R484;
log 3). -/
def keyFail (c status ext : Nat) (s : State) : State :=
  let dw0 := match s.cmd? c with | some x => x.failDw0 ext 0 | none => 0
  if status = 1 then
    failCmd c Sc.genRetired true dw0
      (s.modCiph fun x => { x with evt := setBit x.evt 4, ctrs := { x.ctrs with retired := x.ctrs.retired + 1 } })
  else failCmd c Sc.internal false dw0 (bbx 1 Code.fcInternal Kind.none 0 [s.freeNat % 2 ^ 32] s.drew)

/-! ### Notices (R102) -/

/-- A notice for one association: an outstanding request carries it, else it is held, once per type and information. -/
def notice (a ty info page : Nat) (s : State) : State :=
  match s.assoc? a with
  | none => s
  | some x =>
    match x.aers with
    | cid :: rest =>
      answerAdmin a cid 0 false (ty + info * 256 + page * 65536) 0 (s.modAssoc a fun x => { x with aers := rest })
    | [] =>
      if x.notices.any fun n => n.1 == ty && n.2.1 == info then s
      else s.modAssoc a fun x => { x with notices := x.notices ++ [(ty, info, page)] }

/-- The bit of Asynchronous Event Configuration that enables a notice (NVMe); the vendor notices have none of their own
there and follow bit 8, Namespace Attribute (log 8). -/
def noticeBit (ty info : Nat) : Nat :=
  if ty = 1 then 3 else if ty = 7 then 8
  else if info = 0x00 then 8 else if info = 0x03 then 11 else if info = 0xEF then 27 else 31

/-- The association has enabled a notice. -/
def Assoc.enabled (a : Assoc) (ty info : Nat) : Bool := a.aec.testBit (noticeBit ty info)

/-- A notice to every association that has enabled it and meets a condition. -/
def noticeAll (p : Assoc → Bool) (ty info page : Nat) (s : State) : State :=
  (s.host.assocs.filter fun a => a.enabled ty info && p a).foldl (fun s a => notice a.num ty info page s) s

/-- An entry of the Discovery Log Page changes (R58, R102). -/
def discoveryChanged (s : State) : State :=
  noticeAll Assoc.discovery 2 0xF0 0x70 (s.modHost fun h => { h with discGen := (h.discGen + 1) % 2 ^ 64 })

/-- An association's host has a namespace of a group. -/
def State.seesGroup (s : State) (gi : Nat) (a : Assoc) : Bool :=
  !a.discovery && s.host.nss.any fun n => n.group == gi && s.granted a.nqn n.nsx

def noticeGroup (gi ty info page : Nat) (s : State) : State := noticeAll (s.seesGroup gi) ty info page s

/-- Namespaces changed, for the associations that meet `p`: the Changed Namespace List, and the notice (R78, R102). -/
def nsChangedFor (p : Assoc → Bool) (nsxs : List Nat) (s : State) : State :=
  let hit (a : Assoc) : Bool := !a.discovery && p a
  let add (a : Assoc) : Assoc := { a with changedNs := a.changedNs ++ (nsxs.filter fun n => !a.changedNs.contains n) }
  let s1 := s.modHost fun h => { h with assocs := updWhere hit add h.assocs }
  noticeAll hit 2 0 4 s1

/-- Namespaces changed: the hosts that they are granted to are told. -/
def nsChanged (nsxs : List Nat) (s : State) : State := nsChangedFor (fun a => nsxs.any (s.granted a.nqn)) nsxs s

/-! ### ANA (R66, R95) -/

/-- The ANA state of a group on this controller: NVMe codes 1 Optimized, 3 Inaccessible, 4 Persistent Loss, 15 Change. A group in
HANDING_OVER is in Change, so a CONTAINED controller serves its reads until the partner's acknowledgement: R340 says until the
commit, R341 stops accepting commands at the acknowledgement (DESIGN CHOICE, log 127). -/
def State.anaState (s : State) (gi : Nat) : Nat :=
  let g := s.group gi
  if g.unfit then 4
  else if !g.formed then 3
  else match g.role with
    | .owner =>
      match g.health with
      | .forming => 3
      | .mounting => 15
      | .failed => 4
      | _ => 1
    | .handingOver => 15
    | .leaseLost => 15
    | .takingOver => if g.won then (if g.health = .failed then 4 else 15) else 3
    | _ => 3

/-- The status of a command that a group's ANA state refuses (R100). -/
def anaStatus (st : Nat) : Nat := if st = 4 then Sc.anaLoss else if st = 15 then Sc.anaTransition else Sc.anaInaccessible

/-- The status that stops a command to a group at arrival, if any: CONTAINED serves reads and fails writes (R66, R95). -/
def State.anaRefusal (s : State) (gi : Nat) (write : Bool) : Option Nat :=
  let a := s.anaState gi
  if a ≠ 1 then some (anaStatus a)
  else if write && s.mode.mode = .contained then some Sc.anaTransition
  else none

/-- A command touches a group's namespaces. -/
def State.touches (s : State) (gi : Nat) (c : Cmd) : Bool :=
  let of (n : Nat) : Bool := match s.ns? n with | some x => x.group == gi | none => false
  of c.nsx || c.units.any fun u => of u.nsx

/-- Open commands of a group end with Asymmetric Access Transition, the writes of each zone in its order, with the pointer set back
(R72, R88, R95, R226). -/
def endGroupCmds (gi : Nat) (onlyWrites : Bool) (s : State) : State :=
  let hit := s.host.cmds.filter fun c => s.touches gi c && c.kind != .flush && (!onlyWrites || c.kind.writes)
  let inGroup (s : State) (u : ReadUnit) : Bool := match s.ns? u.nsx with | some n => n.group == gi | none => false
  let s1 := (hit.mergeSort fun a b => a.before b).foldl (fun s c =>
    let st := match c.fail with | some f => f | none => (Sc.anaTransition, false, c.failDw0 (c.extentOf (inGroup s)) 0)
    complete c.num st.1 st.2.1 st.2.2 0 s) s
  hit.foldl (fun s c => zoneBack c s) s1

/-- Tickets of keys that meet a condition are cancelled (R128). -/
def Cmd.cancelTickets (p : Nat → Nat → Bool) (c : Cmd) : Cmd :=
  { c with units := c.units.map fun u => if p u.nsx u.unitNo then { u with ticket := false } else u }

/-- Hawk entries that meet a condition are purged, and the tickets of their keys cancelled: a pinned one stays until its last pin is released (R130, R131). -/
def purgeHawk (p : Nat → Nat → Bool) (s : State) : State :=
  let kept := s.flash.hawk.filter fun e => !(p e.nsx e.unitNo && e.pins == 0)
  let hawk := kept.map fun e => if p e.nsx e.unitNo then { e with removed := true } else e
  let s1 := s.modFlash fun f => { f with hawk }
  s1.modHost fun h => { h with cmds := h.cmds.map (Cmd.cancelTickets p) }

/-- A namespace belongs to a group. -/
def State.nsIn (s : State) (gi nsx : Nat) : Bool := match s.ns? nsx with | some n => n.group == gi | none => false

/-- SMART Critical Warning bit 3, with its notice (R99, R102). -/
def smartSpent (s : State) : State :=
  let own := s.ownedGroups
  let w := own ≠ [] && own.all fun g => (s.group g).space = .spent
  let s1 := s.modHost fun h => { h with warnSpent := w }
  if w && !s.host.warnSpent then noticeAll (fun a => !a.discovery) 1 0 2 s1 else s1

/-- The ANA states are worked out again. A change sends ANA Change; a group that leaves Optimized ends its commands, but for a handover,
which ends them at its turn (R66, R95, R341). -/
def anaRefresh (s : State) : State :=
  (List.range 6).foldl (fun s gi =>
    let old := nth s.host.ana gi
    let new := s.anaState gi
    if old = new then s
    else
      let s1 := s.modHost fun h => { h with ana := upd h.ana gi fun _ => new, anaCount := h.anaCount + 1 }
      let s2 := noticeAll (fun a => !a.discovery) 2 3 0x0C s1
      if old = 1 && (s.group gi).role != .handingOver then endGroupCmds gi false s2 else s2) s

/-- The turn length has been changed: groups that it did not fit are no longer in Persistent Loss for it (R40, R187). -/
def turnChanged (s : State) : State := anaRefresh { s with groups := s.groups.map fun g => { g with unfit := false } }

end Sys2Proof.Machine
end

