-- ==== Sys2Proof/Machine/Journal.lean ====
section
/-! DEFINITION. The stripe journal: its records, its pool, mirroring them and retiring them (R240 to R248). -/

namespace Sys2Proof.Machine

/-! ### Records (R241, R242) -/

/-- A body padded to 44 bytes. -/
def recBody (bs : List Byte) : List Byte := padTo 44 bs

/-- WRITE (0x01). -/
def bodyWrite (nsx : Nat) (zoned : Bool) (count unit gua slot wseq : Nat) : List Byte :=
  recBody (leBytes 2 (nsx + flag zoned 15) ++ leBytes 1 count ++ leBytes 1 0 ++ leBytes 6 unit ++ leBytes 5 gua ++
    leBytes 3 slot ++ leBytes 8 wseq)

/-- STRIPE_DONE (0x02), BAND_OPEN (0x03), SUBST (0x04). -/
def bodyStripeDone (band q count : Nat) : List Byte := recBody (leBytes 2 band ++ leBytes 4 q ++ leBytes 2 count)
def bodyBandOpen (band stream seq : Nat) : List Byte :=
  recBody (leBytes 2 band ++ leBytes 1 stream ++ leBytes 1 0 ++ leBytes 4 seq)
def substWord (e : Subst) (next : Nat) : Nat :=
  next + e.block * 2 ^ 22 + flag e.parity 38 + e.start * 2 ^ 40 + e.die * 2 ^ 50 + e.member * 2 ^ 59
def bodySubst (band : Nat) (e : Subst) : List Byte := recBody (leBytes 2 band ++ leBytes 8 (substWord e 0x3FFFFF))

/-- RELOC_DELTA (0x05). -/
def bodyReloc (old new count mask : Nat) : List Byte :=
  recBody (leBytes 5 old ++ leBytes 5 new ++ leBytes 1 count ++ leBytes 1 0 ++ leBytes 8 mask)

/-- VICTIM_COMMIT (0x06) and ERASE_DONE (0x07). -/
def bodyBand (band : Nat) : List Byte := recBody (leBytes 2 band)

/-- RETIRE (0x08). -/
def bodyRetire (member die block : Nat) : List Byte :=
  recBody (leBytes 1 member ++ leBytes 2 die ++ leBytes 2 block)

/-- The 16 bytes of a lost-extent entry (R266). -/
def lostBytes (e : LostEntry) : List Byte :=
  leBytes 1 (flag e.striped 0 + field e.cause 2 2) ++ leBytes 1 e.member ++ leBytes 2 e.stride ++ leBytes 5 e.start ++
    leBytes 3 0 ++ leBytes 4 e.count

/-- A lost-extent entry from its 16 bytes. -/
def lostOf (b : List Byte) : LostEntry :=
  { striped := bit (leAt b 0 1) 0, cause := bits (leAt b 0 1) 2 2, member := bits (leAt b 1 1) 0 5,
    stride := leAt b 2 2, start := leAt b 4 5, count := leAt b 12 4 }

/-- LOST (0x09) and UNLOST (0x0A). -/
def bodyLost (e : LostEntry) : List Byte := recBody (lostBytes e)
def bodyUnlost (e : LostEntry) (r : Option LostEntry) : List Byte :=
  recBody (lostBytes e ++ match r with | some x => lostBytes x | none => [])

/-- DEALLOC (0x0B) and ZONE (0x0C). -/
def bodyDealloc (nsx unit count : Nat) : List Byte := recBody (leBytes 2 nsx ++ leBytes 6 unit ++ leBytes 4 count)
def bodyZone (nsx zone act : Nat) : List Byte := recBody (leBytes 2 nsx ++ leBytes 4 zone ++ leBytes 1 act)

/-- MEMBER (0x0D) and REBUILD_BAND (0x0E). -/
def bodyMember (m : Nat) (x : Member) : List Byte :=
  recBody (leBytes 1 m ++ leBytes 1 x.st.ctorIdx ++ leBytes 8 x.moduleId ++ leBytes 8 x.mark)
def bodyRebuilt (band m : Nat) : List Byte := recBody (leBytes 2 band ++ leBytes 1 m)

/-- The 64 bytes of a record (R241). -/
def recBytes (g : Nat) (r : JRec) : List Byte :=
  let b := leBytes 1 r.ty ++ leBytes 1 g ++ leBytes 2 0 ++ leBytes 4 r.epoch ++ leBytes 8 r.jseq ++ padTo 44 r.body
  b ++ leBytes 4 (crc32 b)

/-- A record from its 64 bytes; none when its CRC is wrong. -/
def recOf (b : List Byte) : Option (Nat × JRec) :=
  if b.length = 64 && leAt b 60 4 == crc32 (b.take 60) then
    some (bits (leAt b 1 1) 0 3, { ty := leAt b 0 1, epoch := leAt b 4 4, jseq := leAt b 8 8, body := slice b 16 44 })
  else none

/-- Fields of a WRITE record. -/
def JRec.wNsx (r : JRec) : Nat := bits (leAt r.body 0 2) 0 10
def JRec.wZoned (r : JRec) : Bool := bit (leAt r.body 0 2) 15
def JRec.wCount (r : JRec) : Nat := leAt r.body 2 1
def JRec.wUnit (r : JRec) : Nat := leAt r.body 4 6
def JRec.wGua (r : JRec) : Nat := leAt r.body 10 5
def JRec.wSlot (r : JRec) : Nat := leAt r.body 15 3
def JRec.wWseq (r : JRec) : Nat := leAt r.body 18 8

/-! ### The pool (R240, R243) -/

/-- Free records of the pool of 65,536. -/
def State.freeRecs (s : State) : Nat := 65536 - s.groups.foldl (fun n g => n + g.journal.length) 0

/-- Records that complete work already admitted may use the last 1,024 (R243). -/
def reservedType (ty : Nat) : Bool := [2, 3, 4, 6, 7, 8, 9, 10, 13, 14].contains ty

/-! ### Mirroring (R244) -/

/-- A JMIRROR of up to 16 records from a JSEQ upward (R244). -/
def jmirrorBody (gi : Nat) (g : Group) (first : Nat) : List Byte :=
  let rs := ((g.journal.filter fun r => first ≤ r.jseq)).take 16
  leBytes 1 gi ++ leBytes 1 rs.length ++ leBytes 2 0 ++ leBytes 4 g.epoch ++ leBytes 8 first ++ leBytes 8 g.retired ++
    leBytes 8 0 ++ (rs.map (recBytes gi)).flatten

/-- The owner writes a record: it takes the next JSEQ and the group's epoch, and goes to the partner unless the group
runs solo (R240, R244). -/
def journal (gi ty : Nat) (body : List Byte) (s : State) : State :=
  let g := s.group gi
  let r : JRec := { ty, epoch := g.epoch, jseq := g.jseq, body, turn := s.turnNow }
  let s1 := s.modGroup gi fun g => { g with journal := g.journal ++ [r], jseq := g.jseq + 1 }
  if g.mirror = .solo then s1
  else
    toPartner gi 0x21 (jmirrorBody gi (s1.group gi) g.jseq) s1

/-- The configuration of a namespace and its two labels, as they go to the partner (R351; layout: DESIGN CHOICE, log 88). -/
def nsConfigBytes (n : Ns) (gone : Bool) (s : State) : List Byte :=
  leBytes 2 n.nsx ++ leBytes 1 n.group ++
    leBytes 1 (flag gone 0 + flag n.zoned 1 + flag n.lba512 2 + flag n.encrypted 3 + flag n.peerServe 4 + flag n.protect 5) ++
    leBytes 1 n.zoneCode ++ leBytes 1 n.hawk ++ leBytes 1 n.cls ++ leBytes 1 n.sources.length ++ leBytes 4 n.maxActive ++
    leBytes 4 n.maxOpen ++ leBytes 8 n.size ++ padTo 16 n.nguid ++ leBytes 8 n.content ++
    (n.sources.map fun p => leBytes 4 p.1 ++ leBytes 4 p.2).flatten ++ s.label n.nsx ++ s.label (1024 + n.nsx)

/-- The owner mirrors a namespace's configuration and labels to the partner, in a RESYNC message of their own (R351, R362; DESIGN CHOICE,
log 88). -/
def mirrorNs (nsx : Nat) (gone : Bool) (s : State) : State :=
  match s.ns? nsx with
  | none => s
  | some n =>
    let g := s.group n.group
    if !g.role.owns || g.mirror = .solo then s
    else toPartner n.group 0x23 (leBytes 1 n.group ++ leBytes 1 4 ++ leBytes 2 0 ++ leBytes 4 g.epoch ++ leBytes 8 g.jseq ++
      leBytes 8 g.uid ++ nsConfigBytes n gone s) s

/-- A record of a JSEQ is durable: acknowledged by the partner, or durable in the delta log (R169). -/
def Group.isDurable (g : Group) (j : Nat) : Bool :=
  decide (j < g.durable) || (g.mirror == .service && decide (j < g.acked))

/-- A record lets its write complete: acknowledged by the partner, or in solo durable in the delta log (R27, R247). -/
def Group.letsComplete (g : Group) (j : Nat) : Bool :=
  if g.mirror = .service then decide (j < g.acked) else decide (j < g.durable)

/-! ### Events of groups -/

/-- The group's health changes (R258). -/
def setHealth (gi : Nat) (h : Health) (cause : Nat) (s : State) : State :=
  if (s.group gi).health = h && (s.group gi).cause = cause then s
  else anaRefresh (raise Code.evGroupState Kind.group gi [h.ctorIdx, cause]
    (s.modGroup gi fun g => { g with health := h, cause }))

/-- Bays of a group's current members, lowest first. -/
def Group.currentBays (g : Group) : List Nat :=
  ((g.members.filter fun m => m.st == .current).map Member.bay).mergeSort fun a b => decide (a ≤ b)

/-- The bays of the two copies of the journal image (R251): primary, secondary, and whether the third case chose the
secondary. -/
def State.imageBays (s : State) : Option Nat × Option Nat × Bool :=
  match s.ownedGroups with
  | [] => (none, none, false)
  | g0 :: rest =>
    let mine := (s.group g0).currentBays
    let others := rest.filterMap fun g => (s.group g).currentBays.head?
    let spare := lowest (fun b => (s.bay b).spare && (s.bay b).st == .ready) 24
    match others.head?, spare with
    | some b, _ => (mine.head?, some b, false)
    | none, some b => (mine.head?, some b, false)
    | none, none => (mine.head?, (mine.drop 1).head?, true)

/-- The choice of R251 is made again. EV_GROUP_JOURNAL_EXPOSED is raised when the third case leaves a group with no copy
outside it: the partner mirrors it not, or has no group of its own to write an image to. -/
def chooseImageBays (s : State) : State :=
  match s.ownedGroups, s.imageBays with
  | g0 :: _, (some _, some _, true) =>
    let elsewhere := (s.group g0).mirror == .service && s.groups.any fun g => g.role == .partner
    if elsewhere then s else raise Code.evGroupJournalExposed Kind.group g0 [] s
  | _, _ => s

/-- A MEMBER record is written for a member as it now stands, and the image's members are chosen again (R242, R251). -/
def journalMember (gi m : Nat) (s : State) : State :=
  chooseImageBays (journal gi 0x0D (bodyMember m ((s.group gi).member m)) s)

/-- The lost list has a change: the generation of log C0h rises (R98). -/
def lostChanged (gi : Nat) (s : State) : State := s.modGroup gi fun g => { g with lostGen := g.lostGen + 1 }

/-- An entry joins the lost-extent list with its LOST record; a full list fails the group (R266, R270). The units it covers leave Hawk
(R96), and the hosts that one of their namespaces is granted to are told, once per reading of log C0h (R102, R103). -/
def addLost (gi : Nat) (e : LostEntry) (s : State) : State :=
  let g := s.group gi
  if 1048576 ≤ g.lost.length then setHealth gi .failed 3 s
  else
    let hit := (g.owners.filter fun o => e.covers g o.gua).filter (s.mapNames gi)
    let nsxs := (hit.map Owner.nsx).eraseDups
    let mine (a : Assoc) : List Nat := nsxs.filter (s.granted a.nqn)
    let sees (a : Assoc) : Bool := !a.discovery && mine a ≠ []
    let s1 := purgeHawk (fun n u => hit.any fun o => o.nsx == n && o.unit == u) (s.modGroup gi fun g => { g with lost := g.lost ++ [e] })
    let s2 := s1.modHost fun h => { h with assocs := updWhere sees (fun a => { a with lostLeft := (a.lostLeft ++ mine a).eraseDups }) h.assocs }
    let s3 := journal gi 0x09 (bodyLost e) (lostChanged gi (noticeAll sees 7 0 0xC0 s2))
    if 786432 < (s3.group gi).lost.length && !(s3.group gi).listHighTold then
      raise Code.evGroupListHigh Kind.group gi []
        (s3.modGroup gi fun g => { g with listHighTold := true })
    else s3

/-- EV_GROUP_LOST_EXTENTS, at most once per minute per group (R273). -/
def tellLost (gi : Nat) (s : State) : State :=
  if s.passed (s.group gi).lostTold 60000000 then
    raise Code.evGroupLostExtents Kind.group gi [] (s.modGroup gi fun g => { g with lostTold := some s.clock })
  else s

/-- One data unit is lost with a cause, unless it is already (R265, R266). -/
def loseUnit (gi gua cause : Nat) (s : State) : State :=
  if (s.group gi).isLost gua then s
  else addLost gi { cause, start := gua, count := 1 } s

/-- What remains of an entry when one unit leaves it (R269). -/
def splitLost (g : Group) (e : LostEntry) (gua : Nat) : List LostEntry :=
  let du := guaDu gua
  if e.striped then
    let q := g.stripeOf du
    let q0 := guaDu e.start
    let i := (q - q0) / e.stride
    let before := if i = 0 then [] else [{ e with count := i }]
    let after := if i + 1 < e.count then
        [{ e with start := mkGua (guaBand gua) (q + e.stride), count := e.count - i - 1 }] else []
    let base := du - du % 4
    let runs := (List.range 4).filterMap fun u =>
      if base + u = du then none
      else some { e with striped := false, member := 0, stride := 0, start := mkGua (guaBand gua) (base + u), count := 1 }
    before ++ runs ++ after
  else
    let first := guaDu e.start
    let before := if first = du then [] else [{ e with count := du - first }]
    let after := if du + 1 < first + e.count then
        [{ e with start := gua + 1, count := first + e.count - du - 1 }] else []
    before ++ after

/-- A unit stops being lost: it leaves its entry, with an UNLOST record (R97, R269). -/
def unlose (gi gua : Nat) (s : State) : State :=
  let g := s.group gi
  match g.lost.find? fun e => e.covers g gua with
  | none => s
  | some e =>
    let rest := splitLost g e gua
    let s1 := s.modGroup gi fun g => { g with lost := (g.lost.filter (· != e)) ++ rest }
    let s2 := journal gi 0x0A (bodyUnlost e rest.head?) (lostChanged gi s1)
    (rest.drop 1).foldl (fun s r => journal gi 0x09 (bodyLost r) s) s2

end Sys2Proof.Machine
end

