-- ==== Sys2Proof/Machine/WitnessOps.lean ====
section
/-! DEFINITION. Witness and handover messages, and how they leave over Scrim and MP (R326, R330, R332, R333). -/

namespace Sys2Proof.Machine

/-- A message of types 0x0050 to 0x0056: its 64-byte body as fields (R332). -/
structure WitMsg where
  uid : Nat := 0
  sender : Nat := 0
  epoch : Nat := 0
  flags : Nat := 0
  answer : Nat := 0
  reason : Nat := 0
  step : Nat := 0
  other : Nat := 0
  promised : Nat := 0
  entryEpoch : Nat := 0
  lease : Nat := 0
  period : Nat := 0
  tag : Nat := 0
  turn : Nat := 0
  final : Nat := 0
  deriving DecidableEq, Repr, Inhabited

/-- The 64 bytes of a body. -/
def WitMsg.bytes (m : WitMsg) : List Byte :=
  leBytes 8 m.uid ++ leBytes 8 m.sender ++ leBytes 4 m.epoch ++ leBytes 1 m.flags ++ leBytes 1 m.answer ++
    leBytes 1 m.reason ++ leBytes 1 m.step ++ leBytes 8 m.other ++ leBytes 4 m.promised ++ leBytes 4 m.entryEpoch ++
    leBytes 2 m.lease ++ leBytes 2 m.period ++ leBytes 4 m.tag ++ leBytes 8 m.turn ++ leBytes 8 m.final

/-- A body read from its bytes. -/
def WitMsg.ofBytes (b : List Byte) : WitMsg :=
  { uid := leAt b 0 8, sender := leAt b 8 8, epoch := leAt b 16 4, flags := leAt b 20 1, answer := leAt b 21 1,
    reason := leAt b 22 1, step := leAt b 23 1, other := leAt b 24 8, promised := leAt b 32 4, entryEpoch := leAt b 36 4,
    lease := leAt b 40 2, period := leAt b 42 2, tag := leAt b 44 4, turn := leAt b 48 8, final := leAt b 56 8 }

/-- Bytes 0 to 79 of a datagram. -/
def datagramHead (ty seq : Nat) (m : WitMsg) : List Byte :=
  asciiBytes "DWWT" ++ leBytes 2 ty ++ leBytes 2 64 ++ leBytes 8 seq ++ m.bytes

/-- A message leaves as a datagram on MP: the AON controller stamps SEQ and the CMAC. While it holds no copy of the
WITNESS key it forms none (R333, R355). -/
def sendMp (addr : List Byte) (port ty : Nat) (m : WitMsg) (s : State) : State :=
  match s.wit.key with
  | none => s
  | some k =>
    let seq := Nat.max (s.wit.lastSeq + 1) s.aonStamp
    let head := datagramHead ty seq m
    ({ s with wit := { s.wit with lastSeq := seq } }).emit (.witnessMp addr port (head ++ messageMac k head))

/-- The next TAG. -/
def nextTag (s : State) : State := s.modScrim fun x => { x with tag := (x.tag + 1) % 2 ^ 32 }

/-- A message to each witness of a group, over Scrim and over MP (R326, R334). -/
def toWitnesses (gi ty : Nat) (m : WitMsg) (s : State) : State :=
  ((s.group gi).wits.filter fun w => w.dev != 0).foldl (fun s w =>
    sendMp w.mp (s.paramN 0x7006) ty m (sendDev w.dev ty gi m.bytes s)) s

/-- L, G and R (R326), and the frame period in µs. -/
def State.leaseL (s : State) : Nat := s.paramN 0x7020
def State.leaseR (s : State) : Nat := s.paramN 0x7021
def State.leaseG (s : State) : Nat := s.paramN 0x7022
def State.periodUs (s : State) : Nat := s.period / 1000

/-- What every message of this controller for a group carries. -/
def State.witMsg (s : State) (gi : Nat) : WitMsg :=
  { uid := (s.group gi).uid, sender := s.fuse.deviceId, epoch := (s.group gi).epoch, tag := s.scrim.tag }

/-- The renewals of a group: to each witness over both paths, a copy to the partner over Scrim (R326). -/
def renewLease (gi : Nat) (s : State) : State :=
  let s1 := nextTag s
  let m := { s1.witMsg gi with other := s1.otherDev gi, lease := s1.leaseL, period := s1.periodUs }
  let now := s1.tregs.frames
  let sent (w : Witness) : Witness := { w with sent := (m.tag, now) :: w.sent.take 63 }
  let s2 := s1.modGroup gi fun g => { g with wits := g.wits.map sent }
  toPartner gi 0x51 m.bytes (toWitnesses gi 0x51 m s2)

/-- Witnesses whose grants count now: a renewal sent within the last L - G frame boundaries (R326). -/
def State.grants (s : State) (gi : Nat) : Nat :=
  ((s.group gi).wits.filter fun w => match w.granted with
    | some f => decide (s.tregs.frames < f + (s.leaseL - s.leaseG))
    | none => false).length

/-- A witness has answered within L frame boundaries (R337). A controller that sends a group's witnesses nothing counts one
that it can route to (DESIGN CHOICE, log 15). -/
def State.witnessOk (s : State) (gi : Nat) (w : Witness) : Bool :=
  let asks := (s.group gi).role.owns || (s.group gi).role == .leaseLost || (s.group gi).role == .takingOver
  let heard := match w.answered with
    | some f => decide (s.tregs.frames < f + s.leaseL)
    | none => false
  heard || (!asks && w.dev != 0 && match s.addrOf w.dev with | some a => s.scrim.reaches a | none => false)

/-- How many witnesses of a group have answered within L frame boundaries (R337). -/
def State.witnessesSeen (s : State) (gi : Nat) : Nat := ((s.group gi).wits.filter (s.witnessOk gi)).length

/-! ### HANDOVER messages (R332, R341) -/

/-- A HANDOVER message to the other controller of the pair. STEP: 1 OFFER, 2 ACK, 3 COMMIT, 4 CANCEL, 5 REQUEST. -/
def sendHand (gi step turn final tag : Nat) (s : State) : State :=
  toPartner gi 0x56 { s.witMsg gi with step, turn, final, tag }.bytes s

/-- The OFFER goes once the checkpoint is on flash: T is the fourth turn boundary after it, the first in CONTAINED (R341
step 1). -/
def sendOffer (gi : Nat) (s : State) : State :=
  match (s.group gi).hand with
  | none => s
  | some h =>
    if h.offered then s
    else
      let turn := s.turnNow + (if h.why = .contained then 1 else 4)
      let s1 := nextTag (s.modGroup gi fun g => { g with hand := some { h with offered := true, turn } })
      sendHand gi 1 turn 0 s1.scrim.tag s1

end Sys2Proof.Machine
end

