-- ==== Sys2Proof/Machine/Roles.lean ====
section
/-! DEFINITION. Roles and the mode that follows from them (R31, R325, R456, R459). -/

namespace Sys2Proof.Machine

/-- WAKE_INn inputs at their active level (R463). -/
def State.wakeActive (s : State) : Nat := (s.mode.wakeIn ^^^ s.paramN 0x9202 ^^^ 0xF) % 16

/-- The latch is acted on, and its bits go to PWR_WAKE_LAST. In ISLAND the wake stays pending until the exit starts; in any other
mode it has no effect (R463, R464). A replay tells the data die once it can receive it, and a level source that is still
active then has to be released first. -/
def actOnWake (replay : Bool) (s : State) : State :=
  let b := s.mode.latch
  if b = 0 then s
  else
    let keep := s.mode.mode = .island
    let held := b &&& s.wakeActive &&& s.paramN 0x9203
    let s1 := { s with mode := { s.mode with
      latch := if keep then b else 0, last := b, replayed := replay,
      levelHeld := if replay then s.mode.levelHeld ||| held else s.mode.levelHeld,
      replayTell := if replay && !s.ddUp then some b else s.mode.replayTell } }
    if replay && s.ddUp then raise Code.evModeWakeReplayed Kind.none 0 [b] s1 else s1

/-- A mode entry is complete: EV_MODE_CHANGED carries the old mode, the new mode and the cause (R459, R477), Hawk is emptied but in OWNER,
PARTNER and CONTAINED (R131), and the wakes latched during it are replayed (R464). -/
def modeEntered (m : Mode) (cause : Nat) (s : State) : State :=
  let old := s.mode.mode
  let s0 := if m = .owner || m = .partner || m = .contained then s else purgeHawk (fun _ _ => true) s
  let s1 := { s0 with mode := { s0.mode with mode := m, entering := none, lastEntry := if s.pins.ddReset then s.aonStamp else s.nowNs } }
  actOnWake true (raise Code.evModeChanged Kind.none 0 [old.ctorIdx, m.ctorIdx, cause] s1)

/-- The mode that the roles give (R31). An owner without a lease counts as owner, as does a controller that mounts a group no
vote led to; a partner that takes over counts as partner until it is OWNER (DEDUCED, log 19). -/
def State.modeByRoles (s : State) : Mode :=
  if s.groups.any fun g => g.role.owns || g.role == .leaseLost || (g.role == .takingOver && g.attempt.isNone) then .owner
  else if s.groups.any fun g => g.role == .partner || g.role == .takingOver then .partner
  else .standby

/-- R31 applies: in service, in none of CONTAINED, PROVISION, ISLAND or a mode entry (R456). -/
def State.followsRoles (s : State) : Bool :=
  !s.mode.hold && s.mode.entering.isNone &&
    (s.mode.mode == .standby || s.mode.mode == .owner || s.mode.mode == .partner)

/-- The mode follows the roles in the cycle in which they change (R459). -/
def modeFollow (s : State) : State :=
  if s.followsRoles && s.mode.mode != s.modeByRoles then modeEntered s.modeByRoles 0 s else s

/-- The role for a group changes: ANA states and the mode follow (R31, R66), a group that is owned no more, or newly, has no Hawk entries
(R131), and SMART bit 3 is worked out over the groups owned now (R99). -/
def setRole (gi : Nat) (r : Role) (s : State) : State :=
  let s1 := anaRefresh (s.modGroup gi fun g => { g with role := r })
  let s2 := if (s.role gi).owns = r.owns then s1 else purgeHawk (fun n _ => s.nsIn gi n) s1
  modeFollow (smartSpent s2)

/-- The self-test lets the controller leave STANDBY: 40 pipelines and Keying pass (R368). -/
def CiphState.fit (c : CiphState) : Bool := decide (40 ≤ c.pipes) && c.keying

/-- The controller may gain a role: in service, and neither CONTAINED, PROVISION, ISLAND nor on the way elsewhere
(R456), with the self-test passed (R368). -/
def State.takesRoles (s : State) : Bool := s.followsRoles && s.ddUp && s.mode.resetAfter.isNone && s.ciph.fit

/-- This controller is the preferred owner of a group (R338, R394). -/
def State.prefers (s : State) (gi : Nat) : Bool := (s.group gi).preferB == s.sys.slotB

/-- The group that a message names by its UID. -/
def State.groupOf (s : State) (uid : Nat) : Option Nat :=
  lowest (fun gi => (s.group gi).formed && (s.group gi).uid == uid) 6

end Sys2Proof.Machine
end

