-- ==== Sys2Proof/Machine/Placement.lean ====
section
/-! DEFINITION. Placing units: write-staging slots, opening bands, filling stripes, programming and verifying chunks,
die parity, closing bands (R28, R154 to R163, R172, R234, R239). -/

namespace Sys2Proof.Machine

/-! ### Opening a band (R158, R160) -/

/-- Streams that take the lowest, the highest, or the median erase count (R158). -/
def bandFor (g : Group) (stream : Nat) : Option Nat :=
  let fr := g.freeBands
  let counts := (fr.map fun n => (g.band n).erases).mergeSort (· ≤ ·)
  if counts = [] then none
  else
    let want := if stream ≤ 2 || stream = 9 then nth counts 0
      else if stream = 3 || stream = 4 then nth counts ((counts.length - 1) / 2)
      else nth counts (counts.length - 1)
    (fr.filter fun n => (g.band n).erases == want).foldl (fun (a : Option Nat) n => match a with
      | none => some n
      | some x => some (Nat.min x n)) none

/-- The parity-area die of a member: die b mod D or the next one upward with a spare above the reserve (R160). -/
def parityDie (reserve : Nat) (g : Group) (m band : Nat) : Option Nat :=
  anyFrom (fun k => decide (reserve < (g.freeSpares m k).length)) (band % Nat.max 1 g.dies) g.dies

/-- The erase count that a spare carries (R173). -/
def Member.spareCount (x : Member) (k blk : Nat) : Nat :=
  ((x.spareErases.find? fun e => e.1 == k && e.2.1 == blk).map fun e => e.2.2).getD 0

def Member.setSpareCount (x : Member) (k blk n : Nat) : Member :=
  { x with spareErases := (k, blk, n) :: x.spareErases.filter fun e => !(e.1 == k && e.2.1 == blk) }

/-- A block of a die is a spare again, with its erase count: one of the original spares, or a good block of a RETIRED band (R153, R161,
R173). -/
def joinSpare (gi m k blk n : Nat) (s : State) : State :=
  s.modGroup gi fun g => g.modMember m fun x =>
    let y := x.setSpareCount k blk n
    if g.bases ≤ blk || x.joined.contains (k, blk) then { y with used := y.used.filter (· != (k, blk)) }
    else { y with joined := (k, blk) :: y.joined }

/-- A free spare of a die is taken into a band, with the erase count it carries, under a SUBST record (R152, R162, R173). Which one the
spec leaves open: the last of the die's list (DESIGN CHOICE, log 129). -/
def takeSpare (gi band m k start : Nat) (parity : Bool) (s : State) : Option Nat × State :=
  let g := s.group gi
  match (g.freeSpares m k).getLast? with
  | none => (none, s)
  | some blk =>
    let e : Subst := { member := m, die := k, start, parity, block := blk, erases := (g.member m).spareCount k blk }
    let s1 := s.modGroup gi fun g =>
      (g.modBand band fun b => { b with subst := b.subst ++ [e] }).modMember m fun x => { x with used := (k, blk) :: x.used }
    (some blk, journal gi 0x04 (bodySubst band e) s1)

/-- A member takes its parity-area block for a band, and the block is erased before its first program (R160, R534). -/
def takeParityArea (gi band : Nat) (s : State) (m : Nat) : State :=
  let g := s.group gi
  match if g.presentMember m then parityDie (s.paramN 0x3002) g m band else none with
  | none => s
  | some k =>
    match takeSpare gi band m k 0 true s with
    | (some blk, s1) => queueErase gi m k blk 3 (.area band) s1
    | (none, s1) => s1

/-- A stream's next band, when it may have one: streams 0 to 7 not at the free floor (R165, R176). -/
def State.mayOpen (s : State) (gi stream : Nat) : Bool :=
  let f := (s.group gi).freeBands.length
  if stream ≤ 7 then decide (s.paramN 0x3003 < f) else decide (0 < f)

/-! ### Space (R67, R99, R164, R176) -/

/-- VALID's share of a band in percent (R166). -/
def Group.fullPct (g : Group) (b : Band) : Nat := b.valid * 100 / Nat.max 1 g.bandUnits

/-- The spare pool is exhausted: no spare band can be formed (R164). -/
def State.sparesOut (s : State) (gi : Nat) : Bool :=
  let g := s.group gi
  let low := (List.range g.w).any fun m => (List.range g.dies).any fun k =>
    decide ((g.freeSpares m k).length ≤ s.paramN 0x3002)
  let numbers := (List.range (16382 - g.bases)).all fun i =>
    (g.bands.any fun b => b.num == 16381 - i && b.st != .retired)
  low || numbers

/-- Namespaces of a group. -/
def State.nsOf (s : State) (gi : Nat) : List Nat := (s.host.nss.filter fun n => n.group == gi).map Ns.nsx

/-- Writes to a group that are held for a band, in arrival order (R176). -/
def State.bandWaiters (s : State) (gi : Nat) : List Cmd :=
  (s.host.cmds.filter fun c => (c.wst == .band || c.wst == .merged) && c.kind.writes && s.nsIn gi c.nsx).mergeSort fun a b => a.before b

/-- A group in LOW is spent: every CLOSED band is as full as `ftl.gc.spent_valid_pct`, and no spare band can be formed. Its held writes
fail (R99, R176). -/
def spendGroup (gi : Nat) (s : State) : State :=
  let g := s.group gi
  if ((g.bands.filter fun b => b.st == .closed).all fun b => decide (s.paramN 0x3008 ≤ g.fullPct b)) && s.sparesOut gi then
    let s1 := raise Code.evFtlGroupSpent Kind.group gi [] (s.modGroup gi fun g => { g with space := .spent })
    let s2 := (s.nsOf gi).foldl (fun s n => raise Code.evHostNsWriteProtected Kind.ns (n + 1) [] s) s1
    let s3 := smartSpent (nsChanged (s.nsOf gi) s2)
    (s3.bandWaiters gi).foldl (fun s c => failCmd c.num Sc.capacity true 0 s) s3
  else s

/-- The group's space state follows its FREE bands (R176). The writes that a return to NORMAL releases are looked at by
`spaceCheck`. -/
def spaceMove (gi : Nat) (s : State) : State :=
  let g := s.group gi
  let f := g.freeBands.length
  let floor := s.paramN 0x3003
  let above := decide (floor + s.paramN 0x3004 < f)
  if !g.role.owns || g.health = .forming || g.health = .mounting || g.health = .failed then s
  else match g.space with
    | .normal =>
      if f ≤ floor then spendGroup gi (raise Code.evFtlLowSpace Kind.group gi [] (s.modGroup gi fun g => { g with space := .low })) else s
    | .low => if above then s.modGroup gi fun g => { g with space := .normal } else spendGroup gi s
    | .spent =>
      if above then
        let s1 := raise Code.evFtlGroupUnspent Kind.group gi [] (s.modGroup gi fun g => { g with space := .normal })
        smartSpent (nsChanged (s.nsOf gi) s1)
      else s

/-- A stream opens a band: state, WP, SEQ, the parity areas, the BAND_OPEN record (R158); the group's space follows (R176). A target that
has still to rebuild the band is current for all its stripes (R234). VALID and the owner records go on counting the lost units that the
map still names (R267). -/
def openBand (gi stream : Nat) (s : State) : State :=
  let g := s.group gi
  match (if s.mayOpen gi stream then bandFor g stream else none) with
  | none => s
  | some n =>
    let open' (b : Band) : Band :=
      { b with st := .opened, stream, wp := 0, seq := g.seq, openTurn := s.turnNow, repaired := false, cut := false,
               skip := g.deadDies, holes := [], sweepOn := false, areasOn := false, parityRows := [], tops := [], summed := 0 }
    let onTarget (x : Member) : Member :=
      if x.todo.contains n then
        { x with newFrom := (n, 0) :: x.newFrom.filter fun p => p.1 != n,
                 rows := (List.range g.dies).map (fun k => (n, k, 0)) ++ x.rows.filter fun r => r.1 != n }
      else x
    let stale (o : FlashOp) : Bool := match o.use with
      | .erase g' _ (.rebuild b) => g' == gi && b == n && o.st == .queued
      | _ => false
    let s0 := s.modFlash fun f => { f with ops := f.ops.filter fun o => !stale o }
    let s1 := s0.modGroup gi fun g => { g.modBand n open' with
      members := g.members.map onTarget, seq := g.seq + 1, openBand := upd g.openBand stream fun _ => some n,
      owners := g.owners.filter fun o => guaBand o.gua != n || g.isLost o.gua }
    let s2 := (List.range g.w).foldl (takeParityArea gi n) s1
    spaceMove gi (journal gi 0x03 (bodyBandOpen n stream g.seq) s2)

/-! ### Placing a unit (R154, R158, R162) -/

/-- WP has reached the end of a band: it is CLOSING, and its stream places in it no more (R153, R154). -/
def bandFilled (gi band : Nat) (s : State) : State :=
  let g := s.group gi
  if (g.band band).st = .opened && decide (g.bandUnits ≤ g.nextIn band) then
    s.modGroup gi fun g => { g.modBand band fun b => { b with st := .closing } with
      openBand := g.openBand.map fun o => if o = some band then none else o }
  else s

/-- The band a stream places in: its OPEN band, or the one it opens now. -/
def streamBand (gi stream : Nat) (s : State) : Option Nat × State :=
  let s0 := match nth (s.group gi).openBand stream with | some n => bandFilled gi n s | none => s
  match nth (s0.group gi).openBand stream with
  | some n => (some n, s0)
  | none => let s1 := openBand gi stream s0; (nth (s1.group gi).openBand stream, s1)

/-- A stripe that has just taken its last unit is formed, and a full band leaves its stream. -/
def afterPlace (gi band du : Nat) (s : State) : State :=
  bandFilled gi band (formStripe gi band ((s.group gi).stripeOf du) s)

/-- A unit takes the next DU of a stream: its GUA, none when the stream has no band to place in. -/
def putUnit (gi stream src nsx unitNo : Nat) (ready : Bool) (s : State) : Option Nat × State :=
  match streamBand gi stream s with
  | (none, s1) => (none, s1)
  | (some band, s1) =>
    let du := (s1.group gi).nextIn band
    (some (mkGua band du), afterPlace gi band du (placeAt gi band du src nsx unitNo ready s1))

/-! ### Pages of stream 9 (R154, R159, R169, R170) -/

/-- A page of stream 9 is needed from now on: it counts as valid in its band (R151). -/
def needPage (gi gua : Nat) (use : MetaFor) (s : State) : State :=
  addValid gi gua true (s.modGroup gi fun g => { g with pages := g.pages ++ [{ gua, use }] })

/-- Pages of stream 9 are needed no more. -/
def dropPages (gi : Nat) (gone : MetaFor → Bool) (s : State) : State :=
  let out := (s.group gi).pages.filter fun p => gone p.use
  out.foldl (fun s p => addValid gi p.gua false s) (s.modGroup gi fun g => { g with pages := g.pages.filter fun p => !gone p.use })

/-- A page is placed in stream 9; its GUA, none when the stream has no band. -/
def putPage (gi : Nat) (content : List Byte) (use : MetaFor) (s : State) : Option Nat × State :=
  let g := s.group gi
  let u := metaUnit g.wseq content
  let (slot, s1) := putSlot { unit := u, g := gi, metadata := true, nsx := 0xFFFF }
    (s.modGroup gi fun g => { g with wseq := g.wseq + 1 })
  match putUnit gi 9 slot 0xFFFF 0 true s1 with
  | (none, s2) => (none, s2.freeSlot slot)
  | (some gua, s2) => (some gua, needPage gi gua use s2)

/-- Pages are placed in stream 9 and their stripes closed, so that they are programmed in their members' next write turns (R154, R170,
R247). -/
def placePages (gi : Nat) (pages : List (MetaFor × List Byte)) (s : State) : List Nat × State :=
  let (guas, s1) := pages.foldl (fun (a : List Nat × State) p =>
    match putPage gi p.2 p.1 a.2 with
    | (some gua, s1) => (a.1 ++ [gua], s1)
    | (none, s1) => (a.1, s1)) ([], s)
  (guas, closeFor gi guas s1)

/-! ### The band summary (R159) -/

/-- An owner record: the namespace index in [61:52], and the unit number, or the zone number above its 20-bit offset (R159; where the
two parts of the latter lie is DEDUCED, log 9). A DU that nothing was placed at has all ones. -/
def State.ownerBytes (s : State) (o : Option Owner) : List Byte :=
  match o with
  | none => leBytes 8 (2 ^ 64 - 1)
  | some o =>
    let at_ := match s.ns? o.nsx with
      | some n => if n.zoned then o.unit / n.zoneUnits * 2 ^ 20 + o.unit % n.zoneUnits else o.unit
      | none => o.unit
    leBytes 8 (o.nsx % 1024 * 2 ^ 52 + at_)

/-- The owner records of a band go to the metadata stream, 2,048 to a page, as its DUs are placed; metadata has none of its own (log
9). -/
def summarize (gi band : Nat) : Nat → State → State
  | 0, s => s
  | n + 1, s =>
    let g := s.group gi
    let b := g.band band
    let last := Nat.min b.wp g.bandUnits
    if b.stream = 9 || !(b.summed + 2048 ≤ last || b.st != .opened && b.summed < last) then s
    else
      let recs := (List.range 2048).map fun i => s.ownerBytes (g.ownerOf (mkGua band (b.summed + i)))
      match placePages gi [(.summary band, recs.flatten)] s with
      | ([], s1) => s1
      | (_, s1) => summarize gi band n (s1.modGroup gi fun g => g.modBand band fun b => { b with summed := b.summed + 2048 })

/-- A unit is placed in a stream: its GUA, none when the stream has no band to place in. -/
def placeUnit (gi stream src nsx unitNo : Nat) (ready : Bool) (s : State) : Option Nat × State :=
  match putUnit gi stream src nsx unitNo ready s with
  | (some gua, s1) => (some gua, summarize gi (guaBand gua) 3 s1)
  | r => r

/-! ### Committed records (R146, R169, R243) -/

/-- A committed WRITE record's unit: compare-and-set of the map from its slot to its GUA, and the slot is free (R145,
R146). A commit that loses the comparison leaves an orphan. -/
def commitUnit (gi nsx : Nat) (zoned : Bool) (u gua slot : Nat) (s : State) : State :=
  let here := match s.slot? slot with | some w => w.gua == some gua && w.g == gi | none => false
  let s1 :=
    if zoned || !here then s
    else match s.ns? nsx with
      | none => s
      | some n =>
        if n.lookup u = some (.staged slot) then
          addValid gi gua true (s.modNs nsx fun n => n.setMap u (some (.gua gua)))
        else s
  if here then s1.freeSlot slot else s1

/-- A unit has been programmed and verified: no unfinished stripe holds it (R161). -/
def Group.unitDone (g : Group) (gua : Nat) : Bool := (g.stripe? (guaBand gua) (g.stripeOf (guaDu gua))).isNone

/-- A record may be retired: durable in the delta log, and for a WRITE every unit of its run on flash (R243). -/
def Group.retirable (g : Group) (r : JRec) : Bool :=
  decide (r.jseq < g.durable) &&
    (r.ty != 1 || (List.range r.wCount).all fun i => g.unitDone (r.wGua + i))

/-- A retired record takes its effect on the map (R145, R243). -/
def retireRec (gi : Nat) (s : State) (r : JRec) : State :=
  let s1 := if r.ty = 1 then
      (List.range r.wCount).foldl (fun s i =>
        commitUnit gi r.wNsx r.wZoned (r.wUnit + i) (r.wGua + i) ((r.wSlot + i) % 131072) s) s
    else s
  s1.modGroup gi fun g => { g with journal := g.journal.filter fun x => x.jseq != r.jseq }

/-- Records that can retire do, RETIRE_BELOW follows, and writes that waited for it complete (R169, R243, R244). -/
def retireAll (gi : Nat) (s : State) : State :=
  let g := s.group gi
  let s1 := (g.journal.filter g.retirable).foldl (retireRec gi) s
  let s2 := s1.modGroup gi fun g => { g with retired := match g.journal with
    | [] => g.jseq
    | r :: rs => rs.foldl (fun a x => Nat.min a x.jseq) r.jseq }
  postWrites s2

/-- Delta-log pages that are verified, in order, make their records durable (R169). -/
def logVerified (gi : Nat) (s : State) : State :=
  let g := s.group gi
  let ok := g.logPages.takeWhile LogPage.verified
  match ok.getLast? with
  | none => s
  | some p => retireAll gi (s.modGroup gi fun g => { g with durable := p.below, logPages := g.logPages.drop ok.length })

/-! ### Verified chunks (R161) -/

/-- The close sweep begins: a second VERIFY of every chunk that the band holds, at a mount of those that the scan found programmed (R161,
R171). -/
def startSweep (gi band : Nat) (s : State) : State :=
  let g := s.group gi
  let b := g.band band
  let qs := (List.range (ceilDiv b.wp (Nat.max 1 g.perStripe))).filter fun q => !b.skip.contains (g.dieOf q)
  let top (m q : Nat) : Bool := b.tops.all fun t => !(t.1 == m && t.2.1 == g.dieOf q) || decide (g.rowOf q < t.2.2)
  let todo := (qs.map fun q => (List.range g.w).filterMap fun m =>
    if b.holes.contains (q, m) || !g.currentAt m band q || !top m q then none else some (q, m)).flatten
  let s1 := s.modGroup gi fun g => { g.modBand band fun b => { b with st := .closing, sweepOn := true, sweepLeft := todo } with
    openBand := g.openBand.map fun o => if o = some band then none else o }
  todo.foldl (fun s p =>
    let k := g.dieOf p.1
    let (blk, pos) := b.blockAt p.2 k (g.rowOf p.1)
    enqueue { bay := g.bayOf p.2, die := k, opc := 0x02, qcls := 1, block := blk, page := 4 * pos,
              use := .sweep gi band p.1 p.2 } s) s1

/-- A band is sealed (R161). -/
def sealBand (gi band : Nat) (s : State) : State :=
  let shut (b : Band) : Band := { b with st := .closed, closedAt := s.frameNow, sweepOn := false, areasOn := false }
  spaceMove gi (s.modGroup gi fun g => { g.modBand band shut with dieAccs := g.dieAccs.filter fun a => a.band != band })

/-- The parity-area blocks of a band are released: what is queued for them is dropped, and they are erased (R161). -/
def releaseAreas (gi band : Nat) (s : State) : State :=
  let mine (o : FlashOp) : Bool := match o.use with | .dieParity g' b _ _ => g' == gi && b == band && o.st == .queued | _ => false
  let slots := ((s.flash.ops.filter mine).map FlashOp.src).flatten
  let s1 := slots.foldl State.freeSlot (s.modFlash fun f => { f with ops := f.ops.filter fun o => !mine o })
  let s2 := s1.modGroup gi fun g => g.modBand band fun b =>
    { b with areasOn := true, subst := b.subst.filter fun e => !(e.parity && !g.presentMember e.member) }
  (((s2.group gi).band band).subst.filter Subst.parity).foldl (fun s e =>
    queueErase gi e.member e.die e.block 3 (.parityArea band) s) s2

/-- The sweep is over, and what it had to repair is moved: the parity-area blocks are released and erased, and then the band is CLOSED
(R161). -/
def sweepDone (gi band : Nat) (s : State) : State :=
  let g := s.group gi
  let b := g.band band
  if b.st != .closing || !b.sweepOn || !b.sweepLeft.isEmpty || g.collects.any (fun c => c.victim == band) then s
  else
    let s1 := if b.areasOn then s else releaseAreas gi band s
    if ((s1.group gi).band band).subst.any Subst.parity then s1 else sealBand gi band s1

/-- A band that takes no more units and holds no unfinished stripe goes to its close sweep (R161). -/
def maybeSweep (gi band : Nat) (s : State) : State :=
  let s0 := bandFilled gi band s
  let g := s0.group gi
  let b := g.band band
  if b.st = .closing && !b.sweepOn && !(g.stripes.any fun x => x.band == band) then sweepDone gi band (startSweep gi band s0) else s0

/-- Relocation copies in a finished stripe are programmed and verified (R167). -/
def markReloc (gi band q : Nat) (s : State) : State :=
  s.modGroup gi fun g =>
    let hit (r : RelocUnit) : Bool := guaBand r.new == band && g.stripeOf (guaDu r.new) == q
    { g with collects := g.collects.map fun c =>
        { c with batch := updWhere hit (fun r => { r with done := true }) c.batch } }

/-- A stripe whose every chunk has passed its verify is done (R242 STRIPE_DONE). -/
def stripeDone (gi band q : Nat) (s : State) : State :=
  match (s.group gi).stripe? band q with
  | none => s
  | some x =>
    if x.formed && x.chunks.all fun c => c == .verified || c == .skipped then
      let gone (y : Stripe) : Bool := y.band == band && y.q == q
      let s1 := journal gi 0x02 (bodyStripeDone band q 1)
        (s.modGroup gi fun g => { g with stripes := g.stripes.filter fun y => !gone y })
      maybeSweep gi band (retireAll gi (markReloc gi band q s1))
    else s

/-- Slots of a chunk are no longer dirty; those that no map entry needs are free (R161). -/
def cleanSlots (src : List Nat) (s : State) : State :=
  src.foldl (fun s n =>
    match s.slot? n with
    | some w => if w.gua.isSome then s.modSlot n fun w => { w with dirty := false } else s.freeSlot n
    | none => s) s

/-- Anchor records go to every present member, alternating between its two anchor blocks: the block is erased, then its first page is
programmed (R170). Which block a checkpoint takes the spec leaves open: the top one for an even number of checkpoints before it (DESIGN
CHOICE, log 129), the other one where that has been retired. A record gives the root's GUA, all ones for none, and its sequence (layout: log 9). -/
def queueAnchors (gi : Nat) (s : State) : State :=
  let g := s.group gi
  let top (m : Nat) : Bool := (g.checkpoint % 2 = 0) != (g.member m).retired.contains (0, if g.checkpoint % 2 = 0 then g.topBlock else g.topBlock - 1)
  let content := leBytes 5 (g.ckptRoot.getD (2 ^ 40 - 1)) ++ leBytes 8 g.ckptSeq
  ((List.range g.w).filter g.presentMember).foldl (fun s m =>
    let blk := if top m then g.topBlock else g.topBlock - 1
    let (slot, s1) := putSlot { unit := metaUnit 0 content, g := gi } s
    enqueue { bay := g.bayOf m, opc := 0x10, qcls := 3, block := blk, src := [slot], use := .anchor gi m }
      (queueErase gi m 0 blk 3 .anchor s1))
    (s.modGroup gi fun g => { g with checkpoint := g.checkpoint + 1 })

/-- Map pages of a group whose newest copy is older than a sequence, or that have none: the delta log from it on is still needed (R170,
R171). -/
def State.mapOlder (s : State) (gi below : Nat) : Bool :=
  let newest (nsx i : Nat) : Nat := ((s.group gi).pages.map fun p => match p.use with
    | .map n j q => if n = nsx && j = i then q else 0
    | _ => 0).foldl Nat.max 0
  s.host.nss.any fun n => n.group == gi && !n.zoned &&
    (List.range (ceilDiv (ceilDiv n.size 16384) 3264)).any fun i => decide (newest n.nsx i < below)

/-- A page of stream 9 is older than the newest checkpoint: its records are in the checkpoint and the map pages, or a later page took its
place (R170). -/
def State.outdated (s : State) (gi : Nat) (u : MetaFor) : Bool :=
  let g := s.group gi
  match u with
  | .log below => decide (below ≤ g.ckptSeq) && !s.mapOlder gi below
  | .checkpoint n => n != g.checkpoint
  | .map nsx i q => g.pages.any fun p => match p.use with | .map n j q' => n == nsx && j == i && decide (q < q') | _ => false
  | .summary _ => false

/-- Every anchor record is programmed: a forming group is ready (R258), the pages older than the checkpoint are released (R170), and the
OFFER that waits for the checkpoint goes (R341). -/
def anchorsDone (gi : Nat) (s : State) : State :=
  let left := s.flash.ops.any fun o => match o.use with | .anchor g _ => g == gi && o.st != .quarantine | _ => false
  if left then s
  else if (s.group gi).health = .forming && (s.group gi).formed then setHealth gi .optimal 0 s
  else if (s.group gi).ckptPages.isEmpty then sendOffer gi (dropPages gi (s.outdated gi) s)
  else s

/-- A member's chunk has passed its verify (R161). -/
def chunkVerified (gi band q m : Nat) (src : List Nat) (s : State) : State :=
  let g := s.group gi
  let isPage (p : LogPage) : Bool :=
    guaBand p.gua == band && g.stripeOf (guaDu p.gua) == q && (g.placeOf gi p.gua).member == m
  let s1 := (cleanSlots src s).modGroup gi fun g =>
    { g.modStripe band q fun x => { x with chunks := upd x.chunks m fun _ => .verified } with
      logPages := updWhere isPage (fun p => { p with verified := true }) g.logPages
      ckptPages := g.ckptPages.filter fun a => !isPage { gua := a } }
  let s2 := if !g.ckptPages.isEmpty && (s1.group gi).ckptPages.isEmpty then queueAnchors gi s1 else s1
  stripeDone gi band q (logVerified gi s2)

/-! ### Failed blocks (R162, R163) -/

/-- A block is retired: the RETIRE record, the spare list, the event (R162, R163). -/
def retireBlock (gi m die block : Nat) (s : State) : State :=
  let add (x : Member) : Member := { x with retired := (die, block) :: x.retired }
  let s1 := s.modGroup gi fun g =>
    { g.modMember m add with ctrs := { g.ctrs with blocksRetired := g.ctrs.blocksRetired + 1 } }
  raise Code.evFtlBlockRetired Kind.group gi [m, die, block] (journal gi 0x08 (bodyRetire m die block) s1)

/-- A die's next spare becomes the substitute of (member, die) from a position on (R162, R163). -/
def substitute (gi band m k start : Nat) (s : State) : Option Nat × State := takeSpare gi band m k start false s

/-- A page of stream 9 lies at a new GUA. -/
def Group.movePage (g : Group) (old gua : Nat) : Group :=
  { g with logPages := updWhere (fun p => p.gua == old) (fun p => { p with gua }) g.logPages,
           ckptPages := g.ckptPages.map fun a => if a = old then gua else a,
           ckptRoot := g.ckptRoot.map fun a => if a = old then gua else a,
           pages := updWhere (fun p => p.gua == old) (fun p => { p with gua }) g.pages }

end Sys2Proof.Machine
end

