-- ==== Sys2Proof/Machine/ReadPath.lean ====
section
/-! DEFINITION. The read path: staging buffers, Hawk, read-around, rescue, delivery to the host (R86 to R92, R107 to R138,
R189, R194 to R200). -/

namespace Sys2Proof.Machine

/-! ### Buffers (R107 to R115) -/

def State.buf? (s : State) (blk : Nat) : Option Buf := s.flash.bufs.find? fun b => b.blk == blk

def State.modBuf (s : State) (blk : Nat) (f : Buf → Buf) : State :=
  s.modFlash fun x => { x with bufs := updWhere (fun b => b.blk == blk) f x.bufs }

def State.freeBuf (s : State) (blk : Nat) : State :=
  s.modFlash fun x => { x with bufs := x.bufs.filter fun b => b.blk != blk }

/-- Free blocks of the 5,120. -/
def State.freeBlocks (s : State) : Nat := 5120 - s.flash.bufs.length - s.flash.hawk.length

/-- Most blocks that Hawk may hold (R107). -/
def State.hawkLimit (s : State) : Nat := Nat.min 3072 (64 * s.paramN 0x2110)

/-- Buffers that the background classes hold, and their quota (R110). -/
def State.backgroundBufs (s : State) : Nat := (s.flash.bufs.filter fun b => b.cls == 2 || b.cls == 3 || b.cls == 4).length
def State.backgroundQuota (s : State) : Nat := 2048 * s.paramN 0x2100 / 100

/-- HOST buffers that hold landed data ahead of their turn, with those bound or asked for ahead of it, so that landing never passes the
quota; and the quota (R110, R113). -/
def State.heldBufs (s : State) : Nat :=
  let ahead (u : BufFor) : Bool := match u with
    | .host c i => s.host.cmds.any fun x => x.num == c && (x.paced || x.kind == .gathered) && i != (x.units.takeWhile fun u => u.st == .sent).length
    | _ => false
  (s.flash.bufs.filter fun b => b.st == .held || b.st != .orphan && ahead b.use).length +
    (s.flash.waits.filter fun w => ahead w.use).length

/-- At most `stage.held_pct` (0x2101) percent of the blocks may be HELD for host reads (R110). -/
def State.heldQuota (s : State) : Nat := 2048 * s.paramN 0x2101 / 100

/-- Order in which waiting requests are served (R108). -/
def classOrder (cls : Nat) : Nat :=
  if cls = 0 then 0 else if cls = 5 then 1 else if cls = 1 then 2 else if cls = 3 then 3 else if cls = 2 then 4 else 5

/-- A class may take a buffer (R110). -/
def State.classMay (s : State) (cls : Nat) : Bool :=
  if cls = 1 then decide ((s.flash.bufs.filter fun b => b.cls == 1).length < s.paramN 0x2122)
  else if cls = 2 || cls = 3 || cls = 4 then decide (s.backgroundBufs < s.backgroundQuota)
  else true

/-! ### Hawk (R124 to R131) -/

/-- The entry of a key, while the index names it. -/
def State.hawk? (s : State) (nsx u : Nat) : Option HawkEntry :=
  s.flash.hawk.find? fun e => e.nsx == nsx && e.unitNo == u && !e.removed

/-- Score of an entry for eviction (R129). The quotient is rounded down, which the spec does not say (DESIGN CHOICE, log 128). -/
def State.hawkScore (s : State) (e : HawkEntry) : Nat :=
  Nat.min (2 ^ 20) (s.tregs.frames - e.frame) * 16 / (1 + Nat.min e.hits (s.paramN 0x2114))

/-- The entries examined next: in the order of Hawk's blocks from the hand on, those without a pin, `n` of them; and the block that the
hand moves to, past every entry it examined (R129). -/
def examine (l : List HawkEntry) (hand n : Nat) : List HawkEntry × Nat :=
  let byBlk := l.mergeSort fun a b => decide (a.blk ≤ b.blk)
  let order := byBlk.filter (fun e => decide (hand ≤ e.blk)) ++ byBlk.filter fun e => decide (e.blk < hand)
  let step (a : List HawkEntry × Nat) (e : HawkEntry) : List HawkEntry × Nat :=
    if n ≤ a.1.length then a
    else if e.pins = 0 && !e.removed then (a.1 ++ [e], e.blk + 1) else (a.1, e.blk + 1)
  order.foldl step ([], hand)

/-- An eviction: the victim leaves and its block is free (R129). -/
def evictHawk (s : State) : Option Nat × State :=
  let (es, hand) := examine s.flash.hawk s.flash.hand (s.paramN 0x2113)
  match es.foldl (fun (a : Option HawkEntry) e => match a with
      | none => some e
      | some x => if s.hawkScore x < s.hawkScore e then some e else some x) none with
  | none => (none, s)
  | some v =>
    let s1 := s.modFlash fun f => { f with
      hawk := f.hawk.filter fun e => e.blk != v.blk, hand, ctrs := { f.ctrs with evictions := f.ctrs.evictions + 1 } }
    (some v.blk, s1)

/-- A block that nothing uses. Which one the spec leaves open (log 3). -/
def State.anyFreeBlock (s : State) : Option Nat :=
  anyFrom (fun b => (s.buf? b).isNone && !(s.flash.hawk.any fun e => e.blk == b)) s.freeNat 5120

/-- A block for staging: a free one, else that of Hawk's eviction victim (R108). -/
def takeBlock (s : State) : Option Nat × State :=
  match s.anyFreeBlock with
  | some b => (some b, s.drew)
  | none => evictHawk s

/-- The admission counter of a key (R126). -/
def admitIndex (nsx u : Nat) : Nat := Config.hawkHash nsx u % 262144
def State.admitCount (s : State) (i : Nat) : Nat :=
  match s.flash.admits.find? fun p => p.1 == i with
  | some p => p.2
  | none => 0
def State.setAdmit (s : State) (i v : Nat) : State :=
  s.modFlash fun f => { f with admits := (if v = 0 then [] else [(i, v)]) ++ f.admits.filter fun p => p.1 != i }

/-- A read of a unit that missed Hawk counts (R126). -/
def countAdmit (nsx u dsm : Nat) (noHawk : Bool) (s : State) : State :=
  let i := admitIndex nsx u
  let hint := dsm % 16
  if noHawk then s
  else if hint = 3 || hint = 5 then s.setAdmit i (s.paramN 0x2111)
  else if hint = 2 || hint = 4 || hint = 6 || hint = 7 then s
  else s.setAdmit i (Nat.min 15 (s.admitCount i + 1))

/-- A unit with a valid ticket is installed as its plaintext leaves, when admission and room allow (R109, R126 to
R128). -/
def installHawk (nsx u data : Nat) (ticket : Bool) (s : State) : State :=
  match s.ns? nsx with
  | none => s
  | some n =>
    let skip := s.modFlash fun f => { f with ctrs := { f.ctrs with skipped := f.ctrs.skipped + 1 } }
    if n.hawk = 0 || (n.hawk = 1 && s.admitCount (admitIndex nsx u) < s.paramN 0x2111) then s
    else if !ticket || (s.hawk? nsx u).isSome then skip
    else
      let put (blk : Nat) (s : State) : State := s.modFlash fun f => { f with
        hawk := f.hawk ++ [{ blk, nsx, unitNo := u, data, frame := s.tregs.frames }],
        ctrs := { f.ctrs with installs := f.ctrs.installs + 1 } }
      if s.flash.hawk.length < s.hawkLimit && 65 ≤ s.freeBlocks then
        match s.anyFreeBlock with
        | some b => put b s.drew
        | none => skip
      else if s.flash.hawk.length ≤ s.hawkLimit then
        match evictHawk s with
        | (some b, s1) => put b s1
        | (none, _) => skip
      else skip

/-! ### Reading a unit from flash (R189, R194 to R199) -/

/-- READ of one place into a staging block joins its die's queue. -/
def queueRead (p : Place) (blk cls qcls : Nat) (xor noRetry : Bool) (s : State) : State :=
  let g := s.group p.g
  let (block, page) := g.blockPage p
  enqueue { bay := g.bayOf p.member, die := g.dieOf p.q, opc := 0x01, qcls, block, page, noRetry, live := true, xor, cls,
            buf := blk, use := .landing blk } s

/-- Queue class of what a buffer is for (R191). -/
def BufFor.qcls : BufFor → Nat
  | .host _ _ | .rmw _ _ | .replay _ _ => 0
  | .reloc _ _ _ => 4
  | .rebuild _ _ _ _ => 2
  | .skimData _ _ _ _ | .skimParity _ _ _ _ | .skimTag _ _ _ _ _ => 5

/-- Queue class of a buffer's reads (R191): a rescue goes in class 0, a relocation from a lost stripe or off a dead die in class 2
(R235, R264). -/
def State.readClass (s : State) (b : Buf) : Nat :=
  match b.use with
  | .reloc gi _ _ =>
    let g := s.group gi
    if b.rescued then 0
    else if g.stripeLost b.place.band b.place.q || g.members.any fun m => m.dead.contains (g.dieOf b.place.q) then 2 else 4
  | u => if b.rescued then 0 else u.qcls

/-- The members whose chunks rebuild a place's unit: those that hold one (R189, R234). -/
def Group.helpers (g : Group) (p : Place) : List Nat :=
  (List.range g.w).filter fun m => m != p.member && !(g.band p.band).holes.contains (p.q, m)

/-- Every other member can contribute to a place's unit. -/
def Group.canRebuild (g : Group) (p : Place) : Bool :=
  (g.helpers p).all fun m => g.currentAt m p.band p.q && !(g.member m).dead.contains (g.dieOf p.q)

/-- The command and session behind a host buffer: Limited Retry, deadline and read-around (R83, R93, R194). -/
def State.readPolicy (s : State) (use : BufFor) : Bool × Nat × Bool :=
  let dflt := (false, s.paramN 0x2004, s.paramN 0x2005 == 1)
  match use with
  | .host c _ | .rmw c _ =>
    match s.cmd? c with
    | none => dflt
    | some x =>
      match s.sess? x.sess with
      | some q => (x.lr, if x.deadline ≠ 0 then x.deadline else q.policy.deadline, q.policy.ra)
      | none => (x.lr, dflt.2)
  | _ => dflt

def State.modCtrs (s : State) (gi : Nat) (f : GroupCtrs → GroupCtrs) : State :=
  s.modGroup gi fun g => { g with ctrs := f g.ctrs }

/-- The remaining busy time of a die is within a deadline (R194, R195). -/
def State.withinDeadline (s : State) (bay k d : Nat) : Bool :=
  match s.busyRemaining bay k (s.readsQueued bay k) with
  | some r => decide (r ≤ d)
  | none => false

/-- A class 0 read that has to have a busy die: it suspends the die where that is allowed, or waits (R195, R197 to R199). -/
def serveBusy (use : BufFor) (gi bay k : Nat) (s : State) : State :=
  let (_, d, ra) := s.readPolicy use
  let around := ra && decide (0 < s.paramN 0x4002)
  if !(s.die bay k).busy || (around && s.withinDeadline bay k d) then s
  else if s.paramN 0x4004 = 1 && s.suspendAllowed bay k then suspendDie gi bay k s
  else if around then s.modCtrs gi fun c => { c with raFallback := c.raFallback + 1 }
  else s

/-- The slots of a buffer are revoked, by a timeout, an abort or a departure: XOR_FAIL is set, and every other slot of the buffer that is
live goes in the same cycle; the buffer waits for its accepted TLPs to drain (R121, R122). -/
def slotsRevoked (blk : Nat) (s : State) : State :=
  let mine (o : FlashOp) : Bool := match o.use with | .landing x => x == blk | _ => false
  let kept := s.flash.ops.filter fun o => !(mine o && o.st == .queued)
  let ops := updWhere (fun o => mine o && o.st == .outstanding) (fun o => { o with live := false, dropped := true }) kept
  (s.modFlash fun f => { f with ops }).modBuf blk fun b => { b with draining := true, xorFail := decide (0 < b.xorExp) }

/-- Reconstruction into a buffer: cleared, XOR_EXP set, one READ in XOR mode per contribution; a class 0 one of a busy survivor is
served under the suspend rules, or waits (R189). A chunk that was skipped counts as filler (R115, R234). Where a contribution cannot be
had at all, the unit fails as one whose rescue has failed (R112). -/
def reconstruct (blk : Nat) (s : State) : State :=
  match s.buf? blk with
  | none => s
  | some b =>
    let g := s.group b.place.g
    let hs := g.helpers b.place
    let start := if hs.length + 1 = g.w then ({} : Unit16) else Unit16.filler
    let k := s.readClass b
    let s1 := s.modBuf blk fun b => { b with st := .bound, xorExp := hs.length, xorGot := 0, xorFail := false, unit := start,
                                             clear := start, tagOk := false }
    if !g.canRebuild b.place then s1.modBuf blk fun b => { b with rescued := true, draining := true }
    else hs.foldl (fun s m =>
      let s0 := if k = 0 then serveBusy b.use b.place.g (g.bayOf m) (g.dieOf b.place.q) s else s
      queueRead { b.place with member := m } blk b.cls k true false s0) s1

/-- A direct read into a buffer, in place mode, without the module's read retries under Limited Retry (R83). -/
def readDirect (blk : Nat) (s : State) : State :=
  match s.buf? blk with
  | none => s
  | some b =>
    let s1 := s.modBuf blk fun b => { b with st := .bound, xorExp := 0, xorGot := 0, xorFail := false, unit := {},
                                             clear := {}, tagOk := false }
    queueRead b.place blk b.cls (s.readClass b) false (s.readPolicy b.use).1 s1

/-- A direct read that has to have its die, which may be busy: under the suspend rules when it is of class 0 (R112, R200). -/
def readOwn (blk : Nat) (s : State) : State :=
  match s.buf? blk with
  | none => s
  | some b =>
    let g := s.group b.place.g
    readDirect blk (if s.readClass b = 0 then serveBusy b.use b.place.g (g.bayOf b.place.member) (g.dieOf b.place.q) s else s)

/-- Die parity can serve a place (R160, R161): its row is programmed in a present parity-area block, or its accumulator still stands
and the place's own chunk has folded into it. The die indices whose chunks contribute, and the accumulator's unit if it is that. -/
def Group.dieHelp (g : Group) (p : Place) : Option (List Nat × Option Unit16) :=
  let b := g.band p.band
  let row := g.rowOf p.q
  let ks := (List.range g.dies).filter fun k => k != g.dieOf p.q && !b.skip.contains k
  if !g.presentMember p.member then none
  else if b.parityRows.contains (p.member, row) && b.subst.any fun e => e.parity && e.member == p.member then some (ks, none)
  else match g.dieAccs.find? fun a => a.band == p.band && a.member == p.member && a.row == row with
    | some a => if a.dies.contains (g.dieOf p.q) then some (a.dies.filter (· != g.dieOf p.q), some (nth a.units p.u)) else none
    | none => none

/-- A unit is rebuilt from die parity: the chunks of its member at the same position on the other dies, and the die-parity chunk
(R160, R161); where die parity cannot serve, from stripe parity. -/
def reconstructDie (blk : Nat) (s : State) : State :=
  match s.buf? blk with
  | none => s
  | some b =>
    let p := b.place
    let g := s.group p.g
    match g.dieHelp p with
    | none => reconstruct blk (s.modBuf blk fun b => { b with how := .stripe })
    | some (ks, acc) =>
      let row := g.rowOf p.q
      let area := (g.band p.band).subst.find? fun e => e.parity && e.member == p.member
      let n := ks.length + if acc.isNone then 1 else 0
      let k := s.readClass b
      let start := acc.getD {}
      let s1 := s.modBuf blk fun b => { b with st := if n = 0 then .landed else .bound, xorExp := n, xorGot := 0, xorFail := false,
                                               unit := start, clear := start, tagOk := false, how := .die }
      let s2 := ks.foldl (fun s d => queueRead { p with q := row * g.dies + d } blk b.cls k true false s) s1
      match acc, area with
      | none, some e =>
        enqueue { bay := g.bayOf p.member, die := e.die, opc := 0x01, qcls := k, block := e.block, page := 4 * row + p.u,
                  live := true, xor := true, cls := b.cls, buf := blk, use := .landing blk } s2
      | _, _ => s2

/-- Read-around credits of a bay at a frame boundary (R196). -/
def State.bayCredits (s : State) : Nat := s.paramN 0x4002 * 26000000000 * s.period / (100 * 1000000000 * 16384)

/-- Every contributing bay holds a credit (R196). -/
def State.creditsHeld (s : State) (p : Place) : Bool :=
  let g := s.group p.g
  (g.helpers p).all fun m => decide (0 < (s.bay (g.bayOf m)).credits)

/-- One credit of every contributing bay is taken (R196). -/
def takeCredits (p : Place) (s : State) : State :=
  let g := s.group p.g
  (g.helpers p).foldl (fun s m => s.modBay (g.bayOf m) fun b => { b with credits := b.credits - 1 }) s

/-- How a bound buffer's unit is read (R195). -/
def decideRead (blk : Nat) (s : State) : State :=
  match s.buf? blk with
  | none => s
  | some b =>
    let p := b.place
    let g := s.group p.g
    let bay := g.bayOf p.member
    let k := g.dieOf p.q
    let (_, d, ra) := s.readPolicy b.use
    if !g.currentAt p.member p.band p.q || (g.member p.member).dead.contains k then reconstruct blk s
    else if !(s.die bay k).busy || b.use.qcls ≠ 0 then readDirect blk s
    else if ra && decide (0 < s.paramN 0x4002) && !s.withinDeadline bay k d && g.notCurrent.isEmpty && g.canRebuild p &&
        s.creditsHeld p then
      reconstruct blk ((takeCredits p s).modCtrs p.g fun c => { c with readaround := c.readaround + 1 })
    else readOwn blk s

/-- The flash operation context that a peer read takes (R116). -/
def peerSlot (blk : Nat) (s : State) : State :=
  let s1 := enqueue { bay := 255, opc := opcPeer, live := true, cls := 1, buf := blk, use := .landing blk } s
  s1.modOp s1.lastTag fun o => { o with st := .outstanding, stamp := s.micros }

/-- Body of a peer-read request (R135). -/
def peerReqBody (tag gen nsid u epoch : Nat) : List Byte :=
  leBytes 4 (tag + gen * 2 ^ 18) ++ leBytes 4 nsid ++ leBytes 8 u ++ leBytes 8 epoch ++ leBytes 8 0

/-- A peer read begins in a PEER buffer: its slot, the request, and the unit's flash read queued as usual behind the hold (R134). -/
def startPeer (blk : Nat) (r : StageReq) (src : Nat × Nat) (s : State) : State :=
  match s.ns? r.nsx with
  | none => decideRead blk s
  | some n =>
    let s1 := peerSlot blk (s.modFlash fun f => { f with ctrs := { f.ctrs with peerSent := f.ctrs.peerSent + 1 } })
    let t := s1.lastTag
    let gen := ((s1.op? t).map FlashOp.gen).getD 0
    decideRead blk ((scrimSend src.1 0x31 t 0 (peerReqBody t gen src.2 r.unitNo n.content) s1).modBuf blk fun b =>
      { b with peerTag := some t, peerSrc := src.1 })

/-- A waiting request takes a block and its read begins (R108, R113). -/
def bindReq (r : StageReq) (blk : Nat) (s : State) : State :=
  let b : Buf := { blk, cls := r.cls, use := r.use, place := r.place, nsx := r.nsx, unitNo := r.unitNo, how := r.how }
  let s1 := s.modFlash fun f => { f with bufs := f.bufs ++ [b] }
  match r.peer, r.how with
  | some src, _ => startPeer blk r src s1
  | none, .stripe => reconstruct blk s1
  | none, .die => reconstructDie blk s1
  | none, .place => decideRead blk s1

/-- An earlier unit of the same command still waits for its block (R113). -/
def State.earlierWaits (s : State) (r : StageReq) : Bool :=
  match r.use with
  | .host c i => s.flash.waits.any fun w => match w.use with | .host c' j => c' == c && decide (j < i) | _ => false
  | _ => false

/-- The request that is served next: lowest class order, then first come (R108), among classes within their quota, and never a later
unit of a command before an earlier one (R113). -/
def State.nextReq (s : State) : Option StageReq :=
  (s.flash.waits.filter fun r => s.classMay r.cls && !s.earlierWaits r).foldl (fun (a : Option StageReq) r => match a with
    | none => some r
    | some x => if classOrder r.cls < classOrder x.cls then some r else some x) none

/-- One waiting request is served, when a block can be had (R108). -/
def grantOne (s : State) : State :=
  match s.nextReq with
  | none => s
  | some r =>
    match takeBlock s with
    | (none, _) => s
    | (some blk, s1) => bindReq r blk (s1.modFlash fun f => { f with waits := f.waits.erase r })

/-- A request for a buffer: it is served at once when nothing stands before it (R108). -/
def requestBuf (r : StageReq) (s : State) : State :=
  let s1 := s.modFlash fun f => { f with waits := f.waits ++ [{ r with since := s.nowNs }] }
  let s2 := grantOne s1
  if r.cls = 0 && s2.flash.waits.any (fun w => w.use == r.use) then
    s2.modFlash fun f => { f with ctrs := { f.ctrs with waitHost := f.ctrs.waitHost + 1 } }
  else s2

/-! ### Delivery (R86, R90, R96, R124) -/

def Cmd.modUnit (c : Cmd) (i : Nat) (f : ReadUnit → ReadUnit) : Cmd := { c with units := upd c.units i f }

/-- The first unit not yet sent. -/
def Cmd.front (c : Cmd) : Nat := (c.units.takeWhile fun u => u.st == .sent).length

/-- DW0 of a successful read: reconstructed and Hawk units for the vendor reads (R88). -/
def Cmd.readDw0 (c : Cmd) : Nat :=
  if c.kind = .gathered || c.kind = .paced then
    Nat.min 0xFFFF (c.units.filter ReadUnit.rebuilt).length + Nat.min 0xFFFF (c.units.filter ReadUnit.fromHawk).length * 65536
  else 0

/-- A unit's buffer drains and is free. -/
def dropHostBuf (c i : Nat) (s : State) : State :=
  s.modFlash fun f => { f with bufs := f.bufs.filter fun b => b.use != .host c i }

/-- One unit leaves: the bytes of it that the command covers (none for Verify), and an install when it holds a ticket
(R86, R126). -/
def sendUnit (c i : Nat) (s : State) : State :=
  match s.cmd? c with
  | none => s
  | some x =>
    let u := nth x.units i
    let s1 := if x.kind = .verify then s
      else (sendData (s.queueOf x.sess).1 (s.queueOf x.sess).2 x.cid u.dst (slice (unitBytes u.data) u.off u.len) s).modHost
        fun h => { h with readBytes := h.readBytes + u.len }
    let s2 := if u.fromHawk || !u.ticket then s1 else installHawk u.nsx u.unitNo u.data u.ticket s1
    (dropHostBuf c i s2).modCmd c fun x => { x.modUnit i fun u => { u with st := .sent, data := 0 } with begun := true }

/-- Units leave in order while they are ready (R86); the command completes after the last (R124). Paced data leaves by
PACED_FRAME_SEND instead (R90). -/
def sendReady (c : Nat) (s : State) : State :=
  match s.cmd? c with
  | none => s
  | some x =>
    if x.paced then s
    else if x.badBuf && x.kind != .verify && (nth x.units x.front).st == .ready then
      failCmd c Sc.transfer false (x.failDw0 (nth x.units x.front).ext 0) s
    else
      let run := ((x.units.drop x.front).takeWhile fun u => u.st == .ready).length
      let s1 := (List.range run).foldl (fun s k => sendUnit c (x.front + k) s) s
      if x.front + run = x.units.length then complete c Sc.ok false x.readDw0 0 s1 else s1

/-- A unit of a read is in the lost-extent list (R96). -/
def State.lostUnit (s : State) (u : ReadUnit) : Bool :=
  match s.ns? u.nsx, s.mapOf u.nsx u.unitNo with
  | some n, some (.gua g) => (s.group n.group).isLost g
  | _, _ => false

/-- A read meets a lost unit: Unrecovered Read Error with detail LOST, and an Error Information Log entry of the first lost LBA of the
transfer and the lost LBAs of its extent (R88, R96), and the event (R106). -/
def failLost (c i : Nat) (s : State) : State :=
  match s.cmd? c with
  | none => s
  | some x =>
    let lost := ((List.range x.units.length).filter fun j => j == i || s.lostUnit (nth x.units j)).map (nth x.units)
    let u := nth lost 0
    let lba := match s.ns? u.nsx with | some n => n.lba | none => 4096
    let lbas := ((lost.filter fun v => v.ext == u.ext).map ReadUnit.len).sum / lba
    let e : ErrEntry := { count := s.host.errCount + 1, sqid := (s.sess? x.sess).elim 0 Session.qid, cid := x.cid,
                          status := Sc.unrecovered, lba := (u.unitNo * 16384 + u.off) / lba, nsid := u.nsx + 1,
                          info := u.ext + lbas * 2 ^ 32 }
    let s1 := s.modHost fun h => { h with errors := (e :: h.errors).take 256, errCount := h.errCount + 1 }
    let s2 := failCmd c Sc.unrecovered true (x.failDw0 u.ext 1) s1
    let told := match s.ns? u.nsx with | some n => n.lostTold | none => none
    if s2.passed told 60000000 then
      raise Code.evHostLostRead Kind.ns (u.nsx + 1) [] (s2.modNs u.nsx fun n => { n with lostTold := some s.clock })
    else s2

/-! ### Looking a unit up (R76, R113, R124 to R128, R132 to R134) -/

/-- The peer that a Hawk miss may ask (R133): reachable sources are those of the namespace's list to which peer reads
have not stopped, each at position unit number mod their count. -/
def State.peerFor (s : State) (n : Ns) (u : Nat) : Option (Nat × Nat) :=
  let full := if n.zoned then (n.zone (u / n.zoneUnits)).st == .full else n.protect || (s.group n.group).space == .spent
  let srcs := n.sources.filter fun p => !s.flash.peerStopped.contains p.1 && s.scrim.reaches p.1
  if s.paramN 0x2120 = 1 && full && srcs ≠ [] &&
      (s.flash.bufs.filter fun b => b.cls == 1).length + (s.flash.waits.filter fun w => w.cls == 1).length < s.paramN 0x2122 then some (nth srcs (u % srcs.length))
  else none

/-- One unit of a read is looked up: Hawk, then the map (R76, R124). A peer is asked only after a Hawk miss (R133), and a staged unit is
installed only when its tag passes (R23). -/
def lookupUnit (c i : Nat) (s : State) : State :=
  match s.cmd? c with
  | none => s
  | some x =>
    let u := nth x.units i
    match s.ns? u.nsx with
    | none => s
    | some n =>
      let uses := n.hawk != 0 && x.kind != .verify
      let hit := if uses then s.hawk? u.nsx u.unitNo else none
      match hit with
      | some e =>
        let touch (y : HawkEntry) : HawkEntry :=
          { y with hits := Nat.min 255 (y.hits + 1), frame := s.tregs.frames, pins := y.pins + 1 }
        let s1 := s.modFlash fun f => { f with hawk := updWhere (fun y => y.blk == e.blk) touch f.hawk,
                                               ctrs := { f.ctrs with hits := f.ctrs.hits + 1 } }
        s1.modCmd c fun x => x.modUnit i fun u => { u with st := .ready, data := e.data, fromHawk := true }
      | none =>
        let s1 := if !uses then s
          else s.modFlash fun f => { f with ctrs := { f.ctrs with misses := f.ctrs.misses + 1 } }
        match s1.mapOf u.nsx u.unitNo with
        | none => s1.modCmd c fun x => x.modUnit i fun u => { u with st := .ready, data := 0 }
        | some v =>
          let s2 := if !uses then s1 else countAdmit u.nsx u.unitNo x.dsm x.noHawk s1
          let s3 := s2.modCmd c fun x => x.modUnit i fun u => { u with st := .waiting, ticket := uses }
          match v with
          | .staged slot =>
            let d := ((s3.slot? slot).map WSlot.unit).getD {}
            let st := s3.unitStatus x.gens u.nsx false
            if st ≠ 0 then keyFail c st u.ext s3
            else (useNsKeys 1 u.nsx false s3).modCmd c fun x => x.modUnit i fun w =>
              { w with st := .ready, data := s3.cipherUnit true u.nsx u.unitNo d.data,
                       ticket := w.ticket && s3.tagPasses u.nsx u.unitNo d }
          | .gua gua =>
            if (s3.group n.group).isLost gua then failLost c i s3
            else
              let p := (s3.group n.group).placeOf n.group gua
              let peer := if uses then s3.peerFor n u.unitNo else none
              requestBuf { cls := if peer.isSome then 1 else 0, use := .host c i, place := p, nsx := u.nsx, unitNo := u.unitNo, peer } s3

/-- The oldest paced command of a session: the one that is being delivered (R90). -/
def State.pacedTurn (s : State) (x : Cmd) : Bool :=
  !(s.host.cmds.any fun y => y.paced && y.sess == x.sess && y.before x)

/-- A unit may be bound: the first not yet sent always, a later one within the window of a Gathered Read, the lookahead of a paced
command past the last byte sent, and the held quota (R91, R113). -/
def State.mayBind (s : State) (x : Cmd) (i : Nat) : Bool :=
  let u := nth x.units i
  i == x.front ||
    (s.heldBufs < s.heldQuota || !(x.paced || x.kind == .gathered)) &&
      (x.kind != .gathered || decide (i ≤ x.front + s.paramN 0x2102)) &&
      (!x.paced || s.pacedTurn x && decide (u.dst + u.len ≤ (nth x.units x.front).dst + s.paramN 0x2007 * 1024))

/-- Units are looked up in order as far as the limits allow, and what is ready leaves (R113). -/
def runRead (c : Nat) (s : State) : State :=
  let n := match s.cmd? c with | some x => x.units.length | none => 0
  let step (s : State) (i : Nat) : State :=
    match s.cmd? c with
    | none => s
    | some x =>
      if (nth x.units i).st = .todo && s.mayBind x i && (x.units.take i).all fun u => u.st != .todo then lookupUnit c i s else s
  sendReady c ((List.range n).foldl step s)

/-! ### What becomes of a unit that has been read -/

/-- A host unit is checked: its plaintext waits its turn, then leaves (R111, R112). -/
def hostUnitReady (c i blk plain : Nat) (s : State) : State :=
  match s.cmd? c with
  | none => s.freeBuf blk
  | some x =>
    let b := (s.buf? blk).getD {}
    let s1 := (s.modBuf blk fun b => { b with st := if i = x.front && !x.paced then .drain else .held }).modCmd c fun x =>
      x.modUnit i fun u => { u with st := .ready, data := plain, rebuilt := decide (0 < b.xorExp) }
    runRead c (sendReady c s1)

end Sys2Proof.Machine
end

