-- ==== Sys2Proof/Machine/Writes.lean ====
section
/-! DEFINITION. The write path: holding, fetching, classifying, staging and journalling writes, deallocation, the delta
log (R27, R28, R75, R145 to R149, R155 to R157, R169, R243, R247). -/

namespace Sys2Proof.Machine

/-! ### The delta log (R169, R247) -/

/-- A record as the delta log holds it: its 64 bytes, and its turn in 8 (R157; log 9). -/
def logBytes (gi : Nat) (r : JRec) : List Byte := recBytes gi r ++ leBytes 8 r.turn

/-- Records not yet in the delta log go into pages of 227 placed in stream 9 (R169), in journal order: without room for a page the later
ones wait too. The spec does not lay a page out: the records follow one another (log 9). -/
def appendLog (gi : Nat) (s : State) : State :=
  let g := s.group gi
  let rs := g.journal.filter fun r => g.logged ≤ r.jseq
  let pages := (List.range (ceilDiv rs.length 227)).map fun i => (rs.drop (227 * i)).take 227
  let add (a : Bool × State) (p : List JRec) : Bool × State :=
    let below := ((p.getLast?).map JRec.jseq).getD 0 + 1
    match if a.1 then placePages gi [(.log below, (p.map (logBytes gi)).flatten)] a.2 else ([], a.2) with
    | (gua :: _, s1) => (true, s1.modGroup gi fun g => { g with logPages := g.logPages ++ [{ gua, below }], logged := below })
    | ([], s1) => (false, s1)
  (pages.foldl add (true, s)).2

/-- A group that runs solo writes its delta-log page as soon as it holds a record (R247). -/
def soloLog (gi : Nat) (s : State) : State := if (s.group gi).mirror = .service then s else appendLog gi s

/-! ### Classes (R155 to R157) -/

/-- The class of an access-frequency value, for 1h to 8h (R155). -/
def freqClass (f : Nat) : Option Nat :=
  if f = 8 then some 0 else if f = 4 || f = 5 then some 1 else if f = 1 then some 3 else if f = 3 then some 5
  else if f = 2 || f = 7 then some 6 else if f = 6 then some 7 else none

/-- Rules 1 and 2 of R155: the directive, then the access frequency. -/
def cmdClass (dspec dsm : Nat) : Option Nat := if dspec ≠ 0 then some ((dspec - 1) % 8) else freqClass (dsm % 16)

/-- The largest n, at most 7, with 2^n not above a number. -/
def log2Cap (v : Nat) : Nat := ((List.range 8).filter fun n => 2 ^ n ≤ v).length - 1

/-- Rules 3 and 4 (R157): a hinted range, else inference from the age of the old copy's band. -/
def State.inferClass (s : State) (n : Ns) (u : Nat) : Nat :=
  match n.hints.find? fun h => h.1 ≤ u && u < h.1 + h.2.1 with
  | some h => h.2.2
  | none =>
    let old := match n.lookup u with
      | none => none
      | some (.gua g) => some g
      | some (.staged w) => (s.slot? w).bind WSlot.gua
    match old with
    | none => s.paramN 0x300D
    | some g =>
      let a := s.turnNow - ((s.group n.group).band (guaBand g)).openTurn
      log2Cap ((s.paramN 0x300F + a) / s.paramN 0x300F)

/-! ### Zone extents (R148, R149) -/

/-- Extents in use, and the pool's size. -/
def State.extents (s : State) : Nat :=
  s.host.nss.foldl (fun t n => n.zones.foldl (fun t z => t + z.extents.length) t) 0
def State.extentPool (s : State) : Nat := s.paramN 0x300B * 131072

/-- A unit placed at the end of a zone lengthens the last extent or starts a new one (R148). -/
def Zone.append (z : Zone) (gua : Nat) : Zone :=
  let same := match z.extents.getLast? with
    | some e => e.2 + (z.written - e.1) == gua
    | none => false
  { z with written := z.written + 1, extents := if same then z.extents else z.extents ++ [(z.written, gua)] }

/-! ### What an overwritten unit leaves -/

/-- The copy that the map named stops being valid (R151). -/
def dropOld (n : Ns) (u : Nat) (s : State) : State :=
  match n.lookup u with
  | some (.gua g) => addValid n.group g false s
  | _ => s

/-- A unit's Hawk entry and tickets go (R23, R125). -/
def invalidate (nsx u : Nat) (s : State) : State := purgeHawk (fun n v => n == nsx && v == u) s

/-- A whole unit that was lost stops being lost (R97). -/
def rewriteLost (n : Ns) (u : Nat) (s : State) : State :=
  match n.lookup u with
  | some (.gua g) => if (s.group n.group).isLost g then unlose n.group g s else s
  | _ => s

/-! ### Staging a write (steps 4 and 5 of the write table) -/

/-- One unit enters staging: encrypted, stamped and tagged, the map STAGED, Hawk invalidated (R125, R145, R238). It takes the next DU of
its stream, or for a zoned write the one that it was given at its arrival (R148). -/
def stageUnit (c nsx u stream plain slot : Nat) (place : Option Nat) (s : State) : Option Nat × State :=
  match s.ns? nsx with
  | none => (none, s)
  | some n =>
    let gi := n.group
    let w := (s.group gi).wseq
    let unit := s.makeUnit nsx u w plain
    let put : WSlot := { slot, unit, g := gi, gua := place, nsx, unitNo := u, cmd := c }
    let s1 := ((useNsKeys 2 nsx true s).modGroup gi fun g =>
      { g with wseq := g.wseq + 1, ctrs := { g.ctrs with hostUnits := g.ctrs.hostUnits + 1 } }).modFlash fun f =>
        { f with slots := f.slots ++ [put] }
    match (match place with
      | some gua => (some gua, landCopy gi gua slot s1)
      | none => placeUnit gi stream slot nsx u true s1) with
    | (none, s2) => (none, s2.freeSlot slot)
    | (some gua, s2) =>
      let s3 := s2.modSlot slot fun w => { w with gua := some gua }
      let s4 := if n.zoned then
          addValid gi gua true (s3.modNs nsx fun n => n.modZone (u / n.zoneUnits) fun z => z.append gua)
        else (rewriteLost n u (dropOld n u s3)).modNs nsx fun n => n.setMap u (some (.staged slot))
      (some gua, invalidate nsx u s4)

/-- A placed unit: unit number, GUA, slot, WSEQ. -/
structure Placed where
  unit : Nat
  gua : Nat
  slot : Nat
  wseq : Nat
  deriving DecidableEq, Repr, Inhabited

/-- Placed units grouped into runs that one WRITE record can name (R242). -/
def runsOf (l : List Placed) : List (List Placed) :=
  l.foldl (fun (a : List (List Placed)) p =>
    match a.getLast? with
    | some run =>
      match run.getLast? with
      | some q =>
        if q.unit + 1 = p.unit && q.gua + 1 = p.gua && (q.slot + 1) % 131072 = p.slot && q.wseq + 1 = p.wseq &&
            run.length < 128 then a.dropLast ++ [run ++ [p]]
        else a ++ [[p]]
      | none => a ++ [[p]]
    | none => [[p]]) []

/-- The extent pool is 90 % used (R149). -/
def State.poolHigh (s : State) : Bool := decide (s.extentPool * 90 ≤ s.extents * 100)

/-- EV_FTL_EXTENT_POOL is raised when the pool's use reaches 90 %, once until it has fallen below (R149). -/
def poolCheck (s : State) : State :=
  let s1 := s.modHost fun h => { h with poolTold := s.poolHigh }
  if s.poolHigh && !s.host.poolTold && s.extents ≠ 0 then raise Code.evFtlExtentPool Kind.none 0 [] s1 else s1

/-- A write's units, each with its plaintext, go through staging; the WRITE records follow, one per run (R27, R157,
R242). -/
def stageUnits (c nsx : Nat) (units : List (Nat × Nat)) (cls : Nat → Nat) (place : Nat → Option Nat) (fua : Bool) (s : State) : State :=
  match s.ns? nsx with
  | none => s
  | some n =>
    let gi := n.group
    let start := (s.slotRun units.length).getD 0
    let (placed, s1, _) := units.foldl (fun (a : List Placed × State × Nat) u =>
      let (ps, s, i) := a
      let slot := (start + i) % 131072
      let w := (s.group gi).wseq
      match stageUnit c nsx u.1 (cls u.1) u.2 slot (place u.1) s with
      | (some gua, s1) => (ps ++ [{ unit := u.1, gua, slot, wseq := w }], s1, i + 1)
      | (none, s1) => (ps, s1, i + 1)) ([], s.drew, 0)
    let first := (s1.group gi).jseq
    let s2 := (runsOf placed).foldl (fun s r =>
      let p := nth r 0
      journal gi 0x01 (bodyWrite nsx n.zoned r.length p.unit p.gua p.slot p.wseq) s) s1
    let recs := ((s2.group gi).journal.filter fun r => first ≤ r.jseq && r.ty == 1).map JRec.jseq
    let s3 := s2.modCmd c fun x => { x with wst := .staged, recs := x.recs ++ recs, data := [], merged := [] }
    let s4 := if fua then closeFor gi (placed.map Placed.gua) s3 else s3
    postWrites (soloLog gi (if n.zoned then poolCheck s4 else s4))

/-! ### Partial units: read-modify-write (R65, R110) -/

/-- Units that a byte range covers, and whether it covers one whole. -/
def unitsOf (first len : Nat) : List Nat :=
  if len = 0 then [] else (List.range ((first + len - 1) / 16384 + 1 - first / 16384)).map (first / 16384 + ·)
def coversWhole (first len u : Nat) : Bool := decide (first ≤ u * 16384) && decide (u * 16384 + 16384 ≤ first + len)

/-- The byte ranges of a write, the units they touch, and those no range covers whole. -/
def Cmd.spans (x : Cmd) : List (Nat × Nat) := (x.first, x.len) :: x.more
def Cmd.touched (x : Cmd) : List Nat := (x.spans.map fun p => unitsOf p.1 p.2).flatten.eraseDups
def Cmd.wholeAt (x : Cmd) (u : Nat) : Bool := x.spans.any fun p => coversWhole p.1 p.2 u
def Cmd.partly (x : Cmd) : List Nat := x.touched.filter fun u => !x.wholeAt u

/-- The write stores zeros: Write Zeroes and deallocate (R81). -/
def Cmd.zeros (x : Cmd) : Bool := x.kind == .zeroes || x.kind == .dealloc

/-- A unit's new plaintext: its old bytes with the command's bytes in place. -/
def overlay (first : Nat) (data : List Byte) (u old : Nat) : Nat :=
  let o := unitBytes old
  let lo := first - u * 16384
  let skip := u * 16384 - first
  let d := (data.drop skip).take (16384 - lo)
  leNat (o.take lo ++ d ++ o.drop (lo + d.length))

/-- The class of each unit of a write (R155, R156). -/
def State.unitClass (s : State) (x : Cmd) (n : Ns) (u : Nat) : Nat :=
  if n.zoned then (n.zone (u / n.zoneUnits)).cls
  else match cmdClass x.dspec x.dsm with
    | some c => c
    | none => s.inferClass n u

/-! ### Where a write will go (R148, R157, R176, R242) -/

/-- The next `k` DUs from one upward at which a band places units. -/
def Group.nextDus (g : Group) (b : Band) : Nat → Nat → List Nat
  | 0, _ => []
  | k + 1, du =>
    let d := g.nextDu b (g.bandUnits - du) du
    if d < g.bandUnits then d :: Group.nextDus g b k (d + 1) else []

/-- The GUAs that up to `k` units of a stream will take: in its open band, and the rest in the band that it may open next, with that
band. `taken` are the bands that other streams of the same write will open. -/
def State.planBands (s : State) (gi stream k : Nat) (taken : List Nat) : List Nat × Option Nat :=
  let g := s.group gi
  let here := match nth g.openBand stream with
    | some n => (g.nextDus (g.band n) k (g.band n).wp).map (mkGua n)
    | none => []
  if here.length = k then (here, none)
  else
    let s1 := s.modGroup gi fun g => taken.foldl (fun g n => g.modBand n fun b => { b with st := .opened }) g
    match if s1.mayOpen gi stream then bandFor (s1.group gi) stream else none with
    | none => (here, none)
    | some n =>
      let fresh : Band := { num := n, st := .opened, skip := g.deadDies }
      (here ++ (g.nextDus fresh (k - here.length) 0).map (mkGua n), some n)

/-- The GUAs that up to `k` units of a stream will take now. -/
def State.planUpTo (s : State) (gi stream k : Nat) : List Nat := (s.planBands gi stream k []).1

/-- The GUAs that `k` units of a stream will take; none without the room (R148, R176). -/
def State.planStream (s : State) (gi stream k : Nat) (taken : List Nat) : Option (List Nat × List Nat) :=
  let p := s.planBands gi stream k taken
  if p.1.length = k then some (p.1, p.2.toList ++ taken) else none

/-- The GUA that a zoned write was given for a unit at its arrival (R148). -/
def Cmd.placeOf (x : Cmd) (u : Nat) : Option Nat := x.run[u - x.first / 16384]?

/-- Units that a write stages. -/
def Cmd.stages (x : Cmd) : List Nat := if x.zeros then x.partly else x.touched

/-- The units that a write stages, in order, each with the GUA it will take; none while a stream has no band for them. -/
def State.planWrite (s : State) (x : Cmd) (n : Ns) : Option (List (Nat × Nat)) :=
  if x.run ≠ [] then some ((x.touched.zip x.run))
  else
    let cls := s.unitClass x n
    let one (a : Option (List (Nat × Nat) × List Nat)) (k : Nat) : Option (List (Nat × Nat) × List Nat) :=
      match a with
      | none => none
      | some (ps, taken) =>
        let mine := x.stages.filter fun u => cls u == k
        match s.planStream n.group k mine.length taken with
        | some (gs, t) => some (ps ++ mine.zip gs, t)
        | none => none
    ((x.stages.map cls).eraseDups.foldl one (some ([], []))).map fun p => p.1.mergeSort fun a b => decide (a.1 ≤ b.1)

/-- Runs of consecutive numbers of an increasing list, as first and count. -/
def numberRuns (l : List Nat) : List (Nat × Nat) :=
  l.foldl (fun (a : List (Nat × Nat)) u =>
    match a.getLast? with
    | some r => if r.1 + r.2 = u then a.dropLast ++ [(r.1, r.2 + 1)] else a ++ [(u, 1)]
    | none => [(u, 1)]) []

/-- The whole units that Write Zeroes or deallocate unmaps, in runs: one DEALLOC record each (R81, R242). -/
def Cmd.wholeRuns (x : Cmd) : List (Nat × Nat) :=
  if x.zeros then numberRuns ((x.touched.filter x.wholeAt).mergeSort fun a b => decide (a ≤ b)) else []

/-- The records that a write needs: its DEALLOC records, and one WRITE record for each run (R243). -/
def Cmd.recNeed (x : Cmd) (plan : List (Nat × Nat)) : Nat :=
  x.wholeRuns.length +
    (runsOf (plan.zipIdx.map fun p => { unit := p.1.1, gua := p.1.2, slot := p.2, wseq := p.2 })).length

/-- A write's units with their new plaintext. Write Zeroes and deallocate stage only the partly covered ones (R81). -/
def Cmd.mergedUnits (x : Cmd) : List (Nat × Nat) :=
  let old (u : Nat) : Nat := ((x.merged.find? fun p => p.1 == u).map Prod.snd).getD 0
  let overlaid (u : Nat) : Nat :=
    if x.zeros then
      (x.spans.filter fun p => (unitsOf p.1 p.2).contains u).foldl (fun d p =>
        let lo := Nat.max p.1 (u * 16384)
        overlay lo (List.replicate (Nat.min (p.1 + p.2) (u * 16384 + 16384) - lo) 0) u d) (old u)
    else overlay x.first x.data u (old u)
  (if x.zeros then x.partly else x.touched).map fun u => (u, overlaid u)

/-- Every read half is there: the write's units go into staging. One that needs a band and has none is held; on a spent group it fails,
though it was fetched (R99, R176). -/
def finishMerge (c : Nat) (s : State) : State :=
  match s.cmd? c with
  | none => s
  | some x =>
    match s.ns? x.nsx with
    | none => s
    | some n =>
      if !x.rmwLeft.isEmpty || !(x.wst == .rmw || x.wst == .merged) then s
      else
        let units := x.mergedUnits
        let st := if units = [] then 0 else s.unitStatus x.gens x.nsx true
        if st ≠ 0 then keyFail c st 0 s
        else if (s.planWrite x n).isNone then
          if (s.group n.group).space = .spent then failCmd c Sc.capacity true 0 s else s.modCmd c fun x => { x with wst := .merged }
        else stageUnits c x.nsx units (s.unitClass x n) x.placeOf x.fua s

/-- The old data of a partly covered unit: from the map, from staging, or read into an RMW buffer; a lost one fails the
write (R97, R110). -/
def readHalf (c u : Nat) (s : State) : State :=
  match s.cmd? c with
  | none => s
  | some x =>
    match s.ns? x.nsx with
    | none => s
    | some n =>
      let got (d : Nat) (s : State) : State := s.modCmd c fun x =>
        { x with rmwLeft := x.rmwLeft.filter (· != u), merged := (u, d) :: x.merged }
      match n.lookup u with
      | none => got 0 s
      | some (.staged w) =>
        let st := s.unitStatus x.gens x.nsx false
        if st ≠ 0 then keyFail c st 0 s
        else got (s.cipherUnit true x.nsx u (((s.slot? w).map WSlot.unit).getD {}).data) (useNsKeys 2 x.nsx false s)
      | some (.gua g) =>
        if (s.group n.group).isLost g then failCmd c Sc.unrecovered true 1 s
        else requestBuf { cls := 5, use := .rmw c u, place := (s.group n.group).placeOf n.group g, nsx := x.nsx, unitNo := u } s

/-- Whole units of Write Zeroes or deallocate become unmapped, with one DEALLOC record (R81, R145, R242). -/
def unmapUnits (nsx first count : Nat) (s : State) : State :=
  match s.ns? nsx with
  | none => s
  | some n =>
    let mapped := (n.map.map Prod.fst).filter fun u => first ≤ u && u < first + count
    let s1 := mapped.foldl (fun s u =>
      match s.ns? nsx with
      | none => s
      | some n => invalidate nsx u ((dropOld n u (rewriteLost n u s)).modNs nsx fun n => n.setMap u none)) s
    journal n.group 0x0B (bodyDealloc nsx first count) s1

/-! ### Holding and fetching (R28, R75, R149, R176, R243) -/

/-- Two writes overlap. -/
def overlaps (a b : Cmd) : Bool :=
  a.nsx == b.nsx && a.spans.any fun p => b.spans.any fun q => decide (p.1 < q.1 + q.2) && decide (q.1 < p.1 + p.2)

/-- An earlier write of the namespace that overlaps has not ended (R75). Writes that have not passed the check count in the order in which
they were decoded. -/
def State.overlapped (s : State) (x : Cmd) : Bool :=
  s.host.cmds.any fun y => y.kind.writes && decide (y.num < x.num) && overlaps y x

/-- Room in staging (R28): a slot that is clean and that the map still names is in use all the same (R145). -/
def State.stagingRoom (s : State) (k : Nat) : Bool :=
  decide (s.flash.slots.length + s.owedUnits + k ≤ 131072) && (s.slotRun k).isSome

/-- The extents that a zoned write adds to its zone (R148). -/
def Cmd.extentNeed (x : Cmd) (n : Ns) : Nat :=
  let z := n.zone x.zone
  (x.run.foldl Zone.append z).extents.length - z.extents.length

/-- Room for a write that will take the places of a plan: in staging (R28), in the record pool (R243), in the extent pool, of which
compaction keeps 1 % (R149), and in the dies' queues (R492). -/
def State.roomFor (s : State) (x : Cmd) (n : Ns) (plan : List (Nat × Nat)) : Bool :=
  s.stagingRoom plan.length && decide (x.recNeed plan + 1024 ≤ s.freeRecs) &&
    (!n.zoned || x.extentNeed n = 0 || decide (s.extents + x.extentNeed n ≤ s.extentPool * 99 / 100)) &&
    s.programRoom n.group (plan.map Prod.snd)

/-- An earlier write of the zone is not in staging yet: the zone's units enter it in order (R72, R148). -/
def State.zoneWaits (s : State) (x : Cmd) (n : Ns) : Bool :=
  x.zoned n && s.host.cmds.any fun y => y.nsx == x.nsx && y.zone == x.zone && y.zoned n && decide (y.num < x.num) &&
    y.wst != .staged && y.wst != .failed

/-- An earlier write is held for staging or records: held writes proceed in arrival order (R243). -/
def State.behindHeld (s : State) (x : Cmd) : Bool :=
  s.host.cmds.any fun y => y.kind.writes && y.wst == .room && y.before x

/-- A write starts: whole units of Write Zeroes and deallocate are unmapped at once, the others wait for their read
halves (R81). -/
def startWrite (c : Nat) (x : Cmd) (s : State) : State :=
  let gi := match s.ns? x.nsx with | some n => n.group | none => 0
  let s1 := s.modCmd c fun x => { x with wst := .rmw, rmwLeft := x.partly }
  let s2 := x.wholeRuns.foldl (fun s r =>
    let s' := unmapUnits x.nsx r.1 r.2 s
    s'.modCmd c fun x => { x with recs := x.recs ++ [(s'.group gi).jseq - 1] }) s1
  finishMerge c (x.partly.foldl (fun s u => readHalf c u s) s2)

/-- A zoned write is given its run of DUs at its arrival, one DU for each unit, in the open band of the zone's stream and where needed in
its next one (R148). -/
def giveRun (c : Nat) (s : State) : State :=
  match s.cmd? c with
  | none => s
  | some x =>
    match s.ns? x.nsx with
    | none => s
    | some n =>
      let stream := s.unitClass x n (x.first / 16384)
      let give (a : List Nat × State) (u : Nat) : List Nat × State :=
        match placeUnit n.group stream 0 x.nsx u false a.2 with
        | (some gua, s1) => (a.1 ++ [gua], s1)
        | (none, s1) => (a.1, s1)
      if !x.zoned n || x.run ≠ [] || (s.planStream n.group stream x.touched.length []).isNone then s
      else
        let (run, s1) := x.touched.foldl give ([], s)
        s1.modCmd c fun x => { x with run }

/-- A held write is looked at again: past the overlap check it has arrived (R73, R75); it fails when its group is spent and it needs a new
band (R99), stays held, or fetches its data (R28, R149, R176, R243, R492). -/
def tryFetch (c : Nat) (s : State) : State :=
  match s.cmd? c with
  | none => s
  | some x0 =>
    match s.ns? x0.nsx with
    | none => s
    | some n =>
      if x0.wst == .merged then finishMerge c s
      else if x0.wst == .rmw || x0.wst == .staged || x0.wst == .failed then s
      else if x0.wst == .overlap && s.overlapped x0 then s
      else
        let s := giveRun c (if x0.wst == .overlap then s.modCmd c fun x => { x with stamp := s.clock } else s)
        let x := (s.cmd? c).getD x0
        if x.fail.isSome then dropRun x s
        else match if x.zoned n && x.run = [] && x.touched ≠ [] then none else s.planWrite x n with
        | none =>
          if (s.group n.group).space = .spent then failCmd c Sc.capacity true 0 s else s.modCmd c fun x => { x with wst := .band }
        | some plan =>
          let n1 := (s.ns? x.nsx).getD n
          if s.behindHeld x || s.zoneWaits x n1 || !s.roomFor x n1 plan then s.modCmd c fun x => { x with wst := .room }
          else if x.badBuf && !x.zeros then failCmd c Sc.transfer false 0 s
          else startWrite c x s

/-- The group's space is assessed; a return to NORMAL releases the held writes in arrival order (R176, R177). -/
def spaceCheck (gi : Nat) (s : State) : State :=
  let s1 := spaceMove gi s
  if (s.group gi).space != .normal && (s1.group gi).space = .normal then
    (s1.bandWaiters gi).foldl (fun s c => tryFetch c.num s) s1
  else s1

/-- The read half of a unit has passed its check (R114). -/
def rmwReady (c u blk plain : Nat) (s : State) : State :=
  finishMerge c ((s.freeBuf blk).modCmd c fun x =>
    { x with rmwLeft := x.rmwLeft.filter (· != u), merged := (u, plain) :: x.merged })

end Sys2Proof.Machine
end

