-- ==== Sys2Proof/Machine/Copies.lean ====
section
/-! DEFINITION. Copying valid units into stream 8: readers of a band, copies, batches, relocations (R114, R151, R161, R167, R205, R235,
R264). -/

namespace Sys2Proof.Machine

/-- The flash reads and verifies in flight into a band (R151 READERS, R168): a read counts from its lookup until it has completed and its
unit has passed its check. -/
def State.readers (s : State) (gi band : Nat) : Nat :=
  let verifies (o : FlashOp) : Bool := o.opc == 0x02 && o.st != .quarantine && match o.use with
    | .sweep g b _ _ | .chunk g b _ _ | .dieParity g b _ _ | .rebuilt g b _ _ => g == gi && b == band
    | _ => false
  (s.flash.bufs.filter fun b => b.place.g == gi && b.place.band == band && b.st != .held && b.st != .drain).length +
  (s.flash.waits.filter fun w => w.place.g == gi && w.place.band == band).length +
  (s.flash.ops.filter verifies).length

/-- A copy of one valid unit starts: its place in stream 8, its buffer, its read (R114, R167): from its die's parity or by reconstruction
for a unit that is known to be bad where it lies (R161, R205). -/
def startCopy (gi gua : Nat) (bad : Bool) (s : State) : Option RelocUnit × State :=
  match (s.group gi).ownerOf gua with
  | none => (none, s)
  | some o =>
    match placeUnit gi 8 0 o.nsx o.unit false s with
    | (none, s1) => (none, s1)
    | (some new, s1) =>
      (some { old := gua, new },
        requestBuf { cls := 2, use := .reloc gi gua new, place := (s1.group gi).placeOf gi gua, nsx := o.nsx, unitNo := o.unit,
                     how := if bad then .die else .place } (s1.modCtrs gi fun c => { c with relocated := c.relocated + 1 }))

/-- Copies grouped into runs that one RELOC_DELTA can name: both GUAs consecutive, at most 64 (R242). -/
def deltaRuns (l : List (RelocUnit × Bool)) : List (List (RelocUnit × Bool)) :=
  l.foldl (fun (a : List (List (RelocUnit × Bool))) p =>
    match a.getLast? with
    | some run =>
      match run.getLast? with
      | some q =>
        if q.1.old + 1 = p.1.old && q.1.new + 1 = p.1.new && run.length < 64 then a.dropLast ++ [run ++ [p]] else a ++ [[p]]
      | none => a ++ [[p]]
    | none => [[p]]) []

/-- The batch that some units of a group make now: as many of them as stream 8 has places for, none while the records (R243), the dies'
queues (R492) or staging, for the parity of the copies (R28), have no room. -/
def State.batchNow (s : State) (gi : Nat) (us : List Nat) : List RelocUnit :=
  let g := s.group gi
  let plan := s.planUpTo gi 8 us.length
  let batch := (us.zip plan).map fun p => ({ old := p.1, new := p.2 } : RelocUnit)
  let parity := (ceilDiv plan.length (Nat.max 1 g.perStripe) + 1) * 4 + 4 * g.w
  if (deltaRuns (batch.map fun r => (r, true))).length + 1024 ≤ s.freeRecs && s.programRoom gi plan && s.stagingRoom parity then batch
  else []

/-- Copies of a list of units start as one batch. -/
def startBatch (gi : Nat) (guas bad : List Nat) (s : State) : List RelocUnit × State :=
  guas.foldl (fun a gua =>
    match startCopy gi gua (bad.contains gua) a.2 with
    | (some r, s1) => (a.1 ++ [r], s1)
    | (none, s1) => (a.1, s1)) ([], s)

/-- The units of a group that are being copied. -/
def Group.copying (g : Group) : List Nat := (g.collects.map fun c => c.batch.map RelocUnit.old).flatten

/-- The next batch, of up to 4,096 units, of a relocation that is no collection starts when it can; with nothing left the relocation is
over, and the sweep that asked for it goes on (R161). -/
def nextTodo (gi : Nat) (c : Collect) (s : State) : State :=
  let keep (a : Nat) : Bool := s.validAt gi a && !(s.group gi).isLost a
  let todo := c.todo.filter keep
  let put (f : List Collect → List Collect) (s : State) : State := s.modGroup gi fun g => { g with collects := f g.collects }
  if todo = [] then sweepDone gi c.victim (put (fun l => l.erase c) s)
  else
    let now := (s.batchNow gi (todo.take 4096)).map RelocUnit.old
    let s1 := put (fun l => l.erase c) s
    let (batch, s2) := startBatch gi now c.bad s1
    put (fun l => l ++ [{ c with batch, todo := todo.drop now.length }]) s2

/-- The valid units of some units of a band that are on flash and not lost, and not being copied already, are relocated into stream 8
(R161, R205, R235, R264). -/
def relocateWith (gi band : Nat) (guas bad : List Nat) (owed : Bool) (s : State) : State :=
  let g := s.group gi
  let todo := guas.filter fun a => s.validAt gi a && g.unitDone a && !g.isLost a && !g.copying.contains a
  if todo = [] then s
  else
    let c : Collect := { victim := band, todo, bad, owed }
    nextTodo gi c (s.modGroup gi fun g => { g with collects := g.collects ++ [c] })

/-- The valid units of some units of a band that are not lost are relocated into stream 8. -/
def relocate (gi band : Nat) (guas : List Nat) (s : State) : State := relocateWith gi band guas [] false s

/-- The data units of a stripe. -/
def Group.stripeUnits (g : Group) (band q : Nat) : List Nat :=
  (List.range g.perStripe).map fun i => mkGua band (q * g.perStripe + i)

end Sys2Proof.Machine
end

