-- ==== Sys2Proof/Machine/Failed.lean ====
section
/-! DEFINITION. Failed blocks: substitutes, bands closed early and RETIRED, stripes placed again, parity areas that fail (R160 to
R163). -/

namespace Sys2Proof.Machine

/-! ### Stripes placed again (R162) -/

/-- Slots of parity and filler among some sources are free. -/
def freePad (src : List Nat) (s : State) : State :=
  src.foldl (fun s n => match s.slot? n with
    | some w => if w.gua.isNone && !w.metadata then s.freeSlot n else s
    | none => s) s

/-- A stripe leaves its band unfinished: its queued programs go, those on their way count for nothing, and the chunks of it that are not
verified are holes (R162). -/
def abandonStripe (gi : Nat) (x : Stripe) (s : State) : State :=
  let mine (o : FlashOp) : Bool := match o.use with | .chunk g b q _ => g == gi && b == x.band && q == x.q | _ => false
  let pads := ((s.flash.ops.filter mine).map FlashOp.src).flatten
  let s1 := s.modFlash fun f => { f with
    ops := (f.ops.filter fun o => !(mine o && o.st == .queued)).map fun o => if mine o then { o with dropped := true } else o }
  let bad := ((List.range (s.group gi).w).filter fun m => nth x.chunks m != .verified).map fun m => (x.q, m)
  freePad pads (s1.modGroup gi fun g =>
    { g with stripes := g.stripes.filter fun y => !(y.band == x.band && y.q == x.q) }.modBand x.band fun b => { b with holes := bad ++ b.holes })

/-- A placed unit has another GUA: everything that waits for it, holds it or names it follows (R145, R162). -/
def renameUnit (gi old new : Nat) (s : State) : State :=
  let to' (a : Nat) : Nat := if a = old then new else a
  let use (u : BufFor) : BufFor := match u with | .reloc g a b => if g = gi then .reloc g a (to' b) else u | _ => u
  let o := ((s.group gi).ownerOf old).getD {}
  let named := s.mapNames gi o
  let zoned := match s.ns? o.nsx with | some n => n.zoned | none => false
  let s1 := s.modFlash fun f => { f with
    slots := updWhere (fun w => w.g == gi && w.gua == some old) (fun w => { w with gua := some new, dirty := true }) f.slots
    bufs := f.bufs.map fun b => { b with use := use b.use }
    waits := f.waits.map fun w => { w with use := use w.use } }
  let s2 := s1.modGroup gi fun g => { g.movePage old new with collects := g.collects.map fun c =>
    { c with batch := c.batch.map fun r => { r with new := to' r.new } } }
  let s3 := s2.modHost fun h => { h with cmds := h.cmds.map fun c => if s.nsIn gi c.nsx then { c with run := c.run.map to' } else c }
  if !named then s3
  else addValid gi new true (addValid gi old false (if zoned then s3.modNs o.nsx fun n => n.setZoneUnit o.unit new else s3))

/-- A copy whose data has left staging is given up, and its old unit is to be copied again; a page of stream 9 that is verified already is
copied from where it lies (R114, R162). -/
def giveUp (gi band old : Nat) (s : State) : State :=
  let hit (r : RelocUnit) : Bool := r.new == old
  let back (c : Collect) : Collect :=
    let gone := (c.batch.filter hit).map RelocUnit.old
    { c with batch := c.batch.filter fun r => !hit r
             todo := if c.next.isSome then c.todo else gone ++ c.todo
             next := c.next.map fun n => gone.foldl (fun n a => Nat.min n (guaDu a)) n }
  relocate gi band [old] (s.modGroup gi fun g => { g with collects := g.collects.map back })

/-- The source of a unit is still in staging. -/
def State.sourceHere (s : State) (gi gua src : Nat) : Bool :=
  if src < 131072 then (s.slot? src).isSome
  else s.flash.bufs.any fun b => b.blk + 131072 == src && match b.use with
    | .reloc g _ new => g == gi && new == gua
    | .rebuild _ _ _ _ => true
    | _ => false

/-- A unit of an abandoned stripe takes the next place of its stream. What has been moved: namespace index, old GUA, and the unit as
placed. -/
def moveUnit (gi : Nat) (x : Stripe) (a : List (Nat × Nat × Placed) × State) (p : Nat × Nat) : List (Nat × Nat × Placed) × State :=
  let s := a.2
  let g := s.group gi
  let old := mkGua x.band (x.q * g.perStripe + p.1)
  let o := (g.ownerOf old).getD {}
  let waits := x.waiting.contains p.1
  if !waits && !s.sourceHere gi old p.2 then (a.1, giveUp gi x.band old s)
  else match placeUnit gi x.stream p.2 o.nsx o.unit (!waits) s with
    | (none, s1) => (a.1, s1)
    | (some new, s1) =>
      let s2 := renameUnit gi old new s1
      match s2.slot? p.2 with
      | some w =>
        if waits || w.metadata || w.gua != some new then (a.1, s2)
        else (a.1 ++ [(w.nsx, old, { unit := w.unitNo, gua := new, slot := w.slot, wseq := w.unit.wseq })], s2)
      | none => (a.1, s2)

/-- The commands that wait for the records of some GUAs wait for a new one as well (R27, R82). -/
def renewRecs (gi : Nat) (olds : List Nat) (j : Nat) (s : State) : State :=
  let names (r : JRec) : Bool := r.ty == 1 && r.jseq != j && olds.any fun a => decide (r.wGua ≤ a) && decide (a < r.wGua + r.wCount)
  let js := ((s.group gi).journal.filter names).map JRec.jseq
  let one (c : Cmd) : Cmd :=
    { c with recs := if s.nsIn gi c.nsx && c.recs.any js.contains then c.recs ++ [j] else c.recs
             waitFor := if c.waitFor.any fun p => p.1 == gi && js.contains p.2 then c.waitFor ++ [(gi, j)] else c.waitFor }
  s.modHost fun h => { h with cmds := h.cmds.map one }

/-- Units that were placed again are journalled, one WRITE record per run, and their stripes are closed at once for a command that waits
for flash (R27, R82, R242). -/
def journalMoves (gi : Nat) (l : List (Nat × Nat × Placed)) (s : State) : State :=
  let run (nsx : Nat) (zoned : Bool) (s : State) (r : List Placed) : State :=
    let p := nth r 0
    let j := (s.group gi).jseq
    let olds := (l.filter fun y => y.1 == nsx && r.contains y.2.2).map fun y => y.2.1
    let s1 := renewRecs gi olds j (journal gi 0x01 (bodyWrite nsx zoned r.length p.unit p.gua p.slot p.wseq) s)
    let flashed (c : Cmd) : Bool := c.fua && s.nsIn gi c.nsx && c.recs.contains j || c.waitFor.contains (gi, j)
    if s1.host.cmds.any flashed then closeFor gi (r.map Placed.gua) s1 else s1
  let one (s : State) (nsx : Nat) : State :=
    let zoned := match s.ns? nsx with | some n => n.zoned | none => false
    (runsOf ((l.filter fun y => y.1 == nsx).map fun y => y.2.2)).foldl (run nsx zoned) s
  soloLog gi ((l.map Prod.fst).eraseDups.foldl one s)

/-- A stripe is placed again in its stream's next band, when that has room (R162). -/
def moveStripe (gi : Nat) (s : State) (x : Stripe) : State :=
  if (s.planStream gi x.stream x.units.length []).isNone then s
  else
    let (l, s1) := x.units.foldl (moveUnit gi x) ([], abandonStripe gi x s)
    journalMoves gi l s1

/-- The unverified stripes of a band that was closed early are placed again, as far as there is room; with the last of them the band goes to
its close sweep (R162). -/
def moveStripes (gi : Nat) (s : State) (band : Nat) : State :=
  let s1 := ((s.group gi).stripes.filter fun x => x.band == band).foldl (moveStripe gi) s
  if (s1.group gi).stripes.any fun x => x.band == band then s1
  else maybeSweep gi band (s1.modGroup gi fun g => g.modBand band fun b => { b with moving := false })

/-- Bands that still have stripes to place again try once more. -/
def moveAgain (gi : Nat) (s : State) : State :=
  (((s.group gi).bands.filter Band.moving).map Band.num).foldl (moveStripes gi) s

/-- A band is closed early at its current WP, and every stripe of it that is not verified is placed again (R162). -/
def closeEarly (gi band : Nat) (src : List Nat) (s : State) : State :=
  let shut (g : Group) : Group :=
    { g.modBand band fun b => { b with st := .closing, cut := true, moving := true } with
      openBand := g.openBand.map fun o => if o = some band then none else o }
  moveStripes gi (freePad src (s.modGroup gi shut)) band

/-! ### Blocks (R162, R163) -/

/-- Queued programs of a band's chunks on a member lie where the band's entries now put them (R152). -/
def replanPrograms (gi band m : Nat) (s : State) : State :=
  let g := s.group gi
  let one (o : FlashOp) : FlashOp := match o.use with
    | .chunk g' b q m' =>
      if g' = gi && b = band && m' = m && o.st == .queued && o.opc == 0x10 then
        let (blk, pos) := (g.band band).blockAt m (g.dieOf q) (g.rowOf q)
        { o with block := blk, page := 4 * pos }
      else o
    | _ => o
  s.modFlash fun f => { f with ops := f.ops.map one }

/-- A program or a verify of a chunk has failed (R162): a spare takes the chunk at its position 0, and every later one; without a spare the
band closes early. A chunk whose staging copy has gone is filler on the spare, and its stripe is placed again. -/
def chunkFailed (gi band q m : Nat) (src : List Nat) (s : State) : State :=
  let g := s.group gi
  let k := g.dieOf q
  let (old, _) := (g.band band).blockAt m k (g.rowOf q)
  match takeSpare gi band m k (g.rowOf q) false s, g.stripe? band q with
  | (none, s1), _ => closeEarly gi band src s1
  | (some _, s1), none => s1
  | (some blk, s1), some x =>
    let gua (u : Nat) : Nat := mkGua band (q * g.perStripe + 4 * g.roleOf q m + u)
    let here := src.zipIdx.all fun p => s.sourceHere gi (gua p.2) p.1
    let s2 := s1.modGroup gi fun g => g.modBand band fun b => { b with retire := (m, k, old) :: b.retire }
    let s3 := queueErase gi m k blk (g.stripeClass x) (.subst band)
      (replanPrograms gi band m (raise Code.evFtlBlockRetired Kind.group gi [m, k, old] s2))
    let program (src : List Nat) (s : State) : State :=
      enqueue { bay := g.bayOf m, die := k, opc := 0x10, qcls := g.stripeClass x, block := blk, page := 0, src,
                use := .chunk gi band q m } s
    if here then program src s3
    else
      let s4 := moveStripe gi (freePad src s3) x
      if ((s4.group gi).stripe? band q).isSome then closeEarly gi band [] s4
      else
        let (fill, s5) := chunkSources gi [] 0 s4
        program fill s5

/-- A block of a band gives way: the entry that named it goes, and a spare of its die stands in from the same position (R162, R163). -/
def swapBlock (gi band m k block : Nat) (s : State) : Option Nat × State :=
  let isIt (e : Subst) : Bool := e.member == m && e.die == k && e.block == block && !e.parity
  let start := ((((s.group gi).band band).subst.find? isIt).map Subst.start).getD 0
  let s1 := s.modGroup gi fun g => g.modBand band fun b => { b with subst := b.subst.filter fun e => !isIt e }
  match takeSpare gi band m k start false s1 with
  | (some blk, s2) => (some blk, replanPrograms gi band m s2)
  | r => r

/-- Erase count of a band's block: the band's own, or what its substitute carries (R173). -/
def Band.erasesOf (b : Band) (m k blk : Nat) : Nat :=
  ((b.subst.find? fun e => e.member == m && e.die == k && e.block == blk).map Subst.erases).getD b.erases

/-- A band is RETIRED in its erase pass: the blocks that are erased already join their dies' spares, and those still to be erased follow
(R163). -/
def retireBand (gi band m k : Nat) (s : State) : State :=
  let g := s.group gi
  let b := g.band band
  let pos := (((List.range g.w).filter g.presentMember).map fun m => (List.range g.dies).map fun k => (m, k)).flatten
  let done := pos.filter fun p => !b.eraseLeft.contains p && !(g.member p.1).dead.contains p.2
  let s1 := s.modGroup gi fun g => g.modBand band fun b => { b with st := .retired, eraseLeft := b.eraseLeft.filter (· != (m, k)) }
  let s2 := done.foldl (fun s p =>
    let blk := (b.blockAt p.1 p.2 0).1
    joinSpare gi p.1 p.2 blk (b.erasesOf p.1 p.2 blk + 1) s) s1
  spaceCheck gi (raise Code.evFtlBandRetired Kind.group gi [band] s2)

/-- A block that a target rebuilds on has no spare to take its place: the valid units of the band's stripes at its die index are relocated, so
that the band can be erased (R162, R163). -/
def leaveDie (gi band k : Nat) (s : State) : State :=
  let g := s.group gi
  relocateWith gi band ((g.owners.filter fun o => guaBand o.gua == band && g.dieOf (g.stripeOf (guaDu o.gua)) == k).map Owner.gua) [] true s

/-- A block of a band could not be erased: it is retired at once, and a spare is erased in its place; without one a band in its erase pass is
RETIRED, and a band that is being written closes early (R162, R163). -/
def eraseBad (gi band m k block qcls : Nat) (why : EraseFor) (s : State) : State :=
  let s1 := retireBlock gi m k block s
  let st := ((s1.group gi).band band).st
  if st = .retired then s1
  else match swapBlock gi band m k block s1, why with
    | (some blk, s2), _ => queueErase gi m k blk qcls why s2
    | (none, s2), .band _ => retireBand gi band m k s2
    | (none, s2), _ => if st = .opened || st = .closing then closeEarly gi band [] s2 else leaveDie gi band k s2

/-- A block that a target rebuilds on could not be erased (R163, R261). With no spare left its stripes are moved off its die index. -/
def rebuildEraseBad (gi band m k block : Nat) (s : State) : State :=
  match swapBlock gi band m k block (retireBlock gi m k block s) with
  | (some blk, s1) => queueErase gi m k blk 2 (.rebuild band) s1
  | (none, s1) => leaveDie gi band k s1

/-! ### Parity areas (R160, R161) -/

/-- A member has no die parity in a band any more: its entry goes, and what is queued for it. -/
def dropArea (gi band m : Nat) (s : State) : State :=
  let mine (o : FlashOp) : Bool := o.st == .queued && match o.use with | .dieParity g b x _ => g == gi && b == band && x == m | _ => false
  let slots := ((s.flash.ops.filter mine).map FlashOp.src).flatten
  (slots.foldl State.freeSlot (s.modFlash fun f => { f with ops := f.ops.filter fun o => !mine o })).modGroup gi fun g =>
    g.modBand band fun b => { b with subst := b.subst.filter fun e => !(e.parity && e.member == m),
                                     parityRows := b.parityRows.filter fun r => r.1 != m }

/-- A parity-area block could not be erased before its first program: it is retired, and another is taken, which the queued rows follow
(R160, R163). -/
def areaEraseBad (gi band m k block : Nat) (s : State) : State :=
  let out (b : Band) : Band := { b with subst := b.subst.filter fun e => !(e.parity && e.member == m) }
  let s1 := takeParityArea gi band ((retireBlock gi m k block s).modGroup gi fun g => g.modBand band out) m
  match ((s1.group gi).band band).subst.find? fun e => e.parity && e.member == m with
  | none => dropArea gi band m s1
  | some e =>
    let mine (o : FlashOp) : Bool := o.st == .queued && match o.use with | .dieParity g b x _ => g == gi && b == band && x == m | _ => false
    s1.modFlash fun f => { f with ops := updWhere mine (fun o => { o with die := e.die, block := e.block }) f.ops }

/-- A die-parity chunk could not be programmed or verified: its block is to be retired with the band's next erase, and the member has no die
parity in the band (R160 to R162; DEDUCED, log 63). -/
def areaFailed (gi band m k block : Nat) (src : List Nat) (s : State) : State :=
  let s1 := s.modGroup gi fun g => g.modBand band fun b => { b with retire := (m, k, block) :: b.retire }
  dropArea gi band m (raise Code.evFtlBlockRetired Kind.group gi [m, k, block] (cleanSlots src s1))

end Sys2Proof.Machine
end

