-- ==== Sys2Proof/Machine/Members.lean ====
section
/-! DEFINITION. Members of a group: departure, second failures, dead dies, targets, spares, rebuild, fencing, and space
(R176, R226, R227, R234, R235, R257 to R265). -/

namespace Sys2Proof.Machine

/-! ### Fencing (R226) -/

/-- The bays of a group. -/
def Group.bays (g : Group) : List Nat := g.members.map Member.bay

/-- Operations of some bays go: those not dispatched are cancelled; the others are expired and their slots revoked, so that what still
comes of them is late (R121, R224, R226). -/
def revokeBays (bays : List Nat) (s : State) : State :=
  let kept := s.flash.ops.filter fun o => !(bays.contains o.bay && o.st == .queued)
  let ops := kept.map fun o => if bays.contains o.bay then { o with live := false, dropped := true, st := .quarantine } else o
  s.modFlash fun f => { f with ops }

/-- Staging buffers and requests of a group's background work go. -/
def dropWork (gi : Nat) (s : State) : State :=
  s.modFlash fun f => { f with bufs := f.bufs.filter fun b => b.place.g != gi,
                               waits := f.waits.filter fun w => w.place.g != gi,
                               dies := f.dies.filter fun d => !((s.group gi).bays.contains d.bay) }

/-- The controller is fenced from a group: no further submissions, slots revoked, commands ended, the event, the FENCED
bits, and the role given up (R226). -/
def fence (gi : Nat) (s : State) : State :=
  let g := s.group gi
  let raised := g.won && g.attempt.all fun a => a.bays.isEmpty
  let acts := g.role.owns || g.role = .leaseLost || (g.role = .takingOver && raised)
  if !acts then s
  else
    let mark (b : Bay) : Bay := { b with fenced := true }
    let s1 := g.bays.foldl (fun s n => s.modBay n mark) (dropWork gi (revokeBays g.bays s))
    let s2 := endGroupCmds gi false s1
    let s3 := raise Code.evBayFenced Kind.group gi [] s2
    setRole gi .fenced (setScrimEvt 5 (s3.modGroup gi fun g => { g with won := false, attempt := none, hand := none }))

/-! ### Health by membership (R257, R258) -/

/-- Survivors of lost stripes are still being relocated (R258, R264). -/
def Group.movesLost (g : Group) : Bool :=
  g.collects.any fun c => (c.batch.map RelocUnit.old ++ c.todo).any fun a => g.stripeLost (guaBand a) (g.stripeOf (guaDu a))

/-- Every band is current on every member, and no survivor is still to be moved off a lost stripe. -/
def Group.healthOf (g : Group) : Health :=
  match g.notCurrent with
  | [] => if g.health = .multiFault && g.movesLost then .multiFault else .optimal
  | [m] =>
    if g.health = .multiFault && g.movesLost then .multiFault
    else if (g.member m).st = .missing then .degraded else .rebuilding
  | _ => .multiFault

/-- The health follows the membership. -/
def refreshHealth (gi : Nat) (s : State) : State :=
  let h := (s.group gi).health
  if h = .forming || h = .mounting || h = .failed then s else setHealth gi (s.group gi).healthOf 0 s

/-! ### Second failures (R264) -/

/-- Stripes of a band for which a member is not current, as (first stripe, stride, count): the whole band, or the rows
not rebuilt at each die index. -/
def Group.notRebuilt (g : Group) (m band : Nat) : List (Nat × Nat × Nat) :=
  let x := g.member m
  let rows := x.rows.filter fun r => r.1 == band
  let past := ((x.newFrom.find? fun p => p.1 == band).map Prod.snd).getD g.stripesPerBand
  if x.st == .missing then [(0, 1, g.stripesPerBand)]
  else if rows = [] then (if past = 0 then [] else [(0, 1, past)])
  else (List.range g.dies).filterMap fun k =>
    let done := ((rows.find? fun r => r.2.1 == k).map fun r => r.2.2).getD 0
    let n := ((List.range g.positions).filter fun r => decide (done ≤ r ∧ r * g.dies + k < past)).length
    if n = 0 then none else some (done * g.dies + k, g.dies, n)

/-- Bands of which a member is not current for some stripe: every band written before its departure while it is missing,
and those still to rebuild for a target. -/
def Group.staleBands (g : Group) (m : Nat) : List Nat :=
  let x := g.member m
  let written := (g.bands.filter fun b => b.st == .opened || b.st == .closing || b.st == .closed || b.st == .victim).map Band.num
  if x.st == .missing then written else written.filter x.todo.contains

/-- A STRIPED entry lists a member's chunk of a stripe (R266). -/
def LostEntry.lists (e : LostEntry) (m band q : Nat) : Bool :=
  let q0 := guaDu e.start
  e.striped && e.member == m && guaBand e.start == band && decide (q0 ≤ q) && (q - q0) % e.stride == 0 && decide ((q - q0) / e.stride < e.count)

/-- A member's chunks of some stripes of a band, at a stride, are lost with cause 1: one entry where none is listed yet and they follow one
another, else one each (R264, R266). -/
def loseChunks (gi band m stride : Nat) (qs : List Nat) (s : State) : State :=
  let new := qs.filter fun q => !((s.group gi).lost.any fun e => e.lists m band q)
  let entry (q n : Nat) : LostEntry := { striped := true, cause := 1, member := m, stride, start := mkGua band q, count := n }
  match new with
  | [] => s
  | q :: _ =>
    if new == (List.range new.length).map (fun i => q + i * stride) then addLost gi (entry q new.length) s
    else new.foldl (fun s q => addLost gi { entry q 1 with stride := 1 } s) s

/-- The losses of a second failure y while x is not current (R264): of the stripes that lack both chunks; where x's chunk was skipped, only y's
data in those whose parity lay on x. The survivors of the stripes that lack two chunks are relocated. -/
def secondFailure (gi x y : Nat) (s : State) : State :=
  let g := s.group gi
  (g.staleBands x).foldl (fun s band =>
    let b := g.band band
    (g.notRebuilt x band).foldl (fun s r =>
      let (q0, stride, n) := r
      let all := ((List.range n).map fun i => q0 + i * stride).filter fun q => decide (q * g.perStripe < b.wp)
      let plain := all.filter fun q => !b.holes.contains (q, x)
      let apart := all.filter fun q => b.holes.contains (q, x) && g.parityMember q == x
      let s1 := loseChunks gi band y stride apart (loseChunks gi band y stride plain (loseChunks gi band x stride plain s))
      relocate gi band (((plain ++ apart).map fun q => g.stripeUnits band q).flatten) s1) s) s

/-! ### Erase passes (R167, R173) -/

/-- A band's erase pass is complete: ERASE_DONE, one more erase, FREE again; its summary is needed no more (R159, R167, R173). A target
whose blocks the pass erased has nothing more to rebuild in it (R261). -/
def bandErased (gi band : Nat) (s : State) : State :=
  let g := s.group gi
  let b := g.band band
  if b.st != .erasing || !b.eraseLeft.isEmpty then s
  else
    let fresh (b : Band) : Band :=
      { b with st := .free, stream := 15, erases := Nat.min 65535 (b.erases + 1), wp := 0,
               repaired := false, cut := false, holes := [], summed := 0, tops := [],
               subst := b.subst.map fun e => { e with erases := e.erases + 1 } }
    let erased (m : Nat) : Bool := (List.range g.dies).all fun k => b.clean.contains (m, k)
    let away (m : Nat) (x : Member) : Member :=
      if x.st = .missing then { x with erasedSince := band :: x.erasedSince }
      else if x.todo.contains band && erased m then { x with rows := (List.range g.dies).map (fun k => (band, k, 0)) ++ x.rows.filter fun r => r.1 != band }
      else x
    let s1 := s.modGroup gi fun g => { g.modBand band fresh with members := g.members.zipIdx.map fun p => away p.2 p.1 }
    let s2 := dropPages gi (fun u => u == .summary band) s1
    moveAgain gi (spaceCheck gi (journal gi 0x07 (bodyBand band) s2))

/-- The erase passes of a group go on without a departed member. -/
def eraseWithout (gi m : Nat) (s : State) : State :=
  let bands := ((s.group gi).bands.filter fun b => b.st == .erasing && b.eraseLeft.any fun p => p.1 == m).map Band.num
  bands.foldl (fun s n => bandErased gi n (s.modGroup gi fun g => g.modBand n fun b =>
    { b with eraseLeft := b.eraseLeft.filter fun p => p.1 != m })) s

/-! ### Checkpoints (R170) -/

/-- The 32 bytes of a band record (R151). `sub` is the index of its first substitution entry. -/
def State.bandBytes (s : State) (gi : Nat) (b : Band) (sub : Nat) : List Byte :=
  leBytes 1 (b.st.ctorIdx + b.stream * 16) ++ leBytes 1 (flag b.spareFormed 0 + flag b.repaired 1) ++ leBytes 2 b.erases ++
    leBytes 4 (if b.subst = [] then 0xFFFFFFFF else sub) ++ leBytes 4 b.valid ++ leBytes 4 (b.wp % 2 ^ 26) ++ leBytes 8 b.closedAt ++
    leBytes 4 b.seq ++ leBytes 2 (s.readers gi b.num) ++ leBytes 2 0

/-- Substitution entries of a band, chained from an index on (R152). -/
def substBytes (es : List Subst) (first : Nat) : List Byte :=
  (es.zipIdx.map fun p => leBytes 8 (substWord p.1 (if p.2 + 1 < es.length then first + p.2 + 1 else 0x3FFFFF))).flatten

/-- The 16 bytes of a zone's entry (R147); `ext` is the index of its first extent. -/
def Zone.entryBytes (z : Zone) (ext : Nat) : List Byte :=
  leBytes 4 (if z.st = .empty then 0xFFFFFFFF else ext) ++ leBytes 3 z.extents.length ++ leBytes 1 (z.cls % 8 + flag z.compact 3) ++
    leBytes 4 z.written ++ leBytes 4 0

/-- An extent (R148). -/
def extentBytes (e : Nat × Nat) : List Byte := leBytes 8 (e.1 * 2 ^ 44 + e.2)

/-- The free spares of a member's dies with their erase counts (R170, R173), 8 bytes each: the layout is the model's (log 9). -/
def Group.spareBytes (g : Group) (m : Nat) : List Byte :=
  ((List.range g.dies).map fun k => ((g.freeSpares m k).map fun b =>
    leBytes 1 m ++ leBytes 2 k ++ leBytes 2 b ++ leBytes 3 ((g.member m).spareCount k b)).flatten).flatten

/-- A group's band records, substitution entries, spare lists, zone entries, extents and lost-extent list, one after another (R170, R266;
the order is the model's, log 9). -/
def State.checkpointBytes (s : State) (gi : Nat) : List Byte :=
  let g := s.group gi
  let bands := g.bandNums.map g.band
  let recs := bands.foldl (fun (a : List Byte × List Byte × Nat) b =>
    (a.1 ++ s.bandBytes gi b a.2.2, a.2.1 ++ substBytes b.subst a.2.2, a.2.2 + b.subst.length)) ([], [], 0)
  let zones := ((s.host.nss.filter fun n => n.group == gi).map Ns.zones).flatten
  let ents := zones.foldl (fun (a : List Byte × List Byte × Nat) z =>
    (a.1 ++ z.entryBytes a.2.2, a.2.1 ++ (z.extents.map extentBytes).flatten, a.2.2 + z.extents.length)) ([], [], 0)
  recs.1 ++ recs.2.1 ++ ((List.range g.w).map g.spareBytes).flatten ++ ents.1 ++ ents.2.1 ++ (g.lost.map lostBytes).flatten

/-- Bytes cut into pages. -/
def pagesOf (n : Nat) (b : List Byte) : List (List Byte) := (List.range (ceilDiv b.length n)).map fun i => slice b (i * n) n

/-- Pages of a conventional namespace's map: 3,264 entries each (R170). -/
def Ns.mapPages (n : Ns) : Nat := if n.zoned then 0 else ceilDiv (ceilDiv n.size 16384) 3264

/-- A map entry's 5 bytes (R145). -/
def MapVal.word : Option MapVal → Nat
  | none => 2 ^ 40 - 1
  | some (.gua g) => g
  | some (.staged w) => mkGua 0x3FFE w

/-- A map page: a 64-byte header with the delta-log sequence at which it is taken, and 3,264 entries (R170; the rest of the header is the
model's, log 9). -/
def Ns.mapPage (n : Ns) (seq i : Nat) : List Byte :=
  padTo 64 (leBytes 8 seq ++ leBytes 2 n.nsx ++ leBytes 6 i) ++
    ((List.range 3264).map fun j => leBytes 5 (MapVal.word (n.lookup (i * 3264 + j)))).flatten

/-- Every map page of a group, in order. -/
def State.mapPagesOf (s : State) (gi : Nat) : List (Nat × Nat) :=
  ((s.host.nss.filter fun n => n.group == gi).map fun n => (List.range n.mapPages).map fun i => (n.nsx, i)).flatten

/-- The rolling sweep's next map pages: 1,024 with each checkpoint (DESIGN CHOICE, log 9). -/
def State.sweepPages (s : State) (gi : Nat) : List (Nat × Nat) :=
  let all := s.mapPagesOf gi
  let i := (s.group gi).mapSweep % Nat.max 1 all.length
  (all.drop i ++ all.take i).take 1024

/-- A checkpoint begins: the delta log is brought up to date, and the checkpoint's pages, a part of the map sweep and the root pages that
list them go to stream 9 (R170). Its sequence is the lowest unretired JSEQ. The layout of a root page is the model's: its sequence, the
GUA of the root page before it, and up to 3,274 GUAs (log 9). -/
def startCheckpoint (gi : Nat) (s : State) : State :=
  let s0 := appendLog gi s
  let g := s0.group gi
  let seq := g.retired
  let num := g.checkpoint + 1
  let swept := s0.sweepPages gi
  let maps := swept.map fun p => (MetaFor.map p.1 p.2 seq, (((s0.ns? p.1).map fun n => n.mapPage seq p.2).getD []))
  let body := (pagesOf 16384 (s0.checkpointBytes gi)).map fun b => (MetaFor.checkpoint num, b)
  let (pages, s1) := placePages gi (body ++ maps) s0
  let root (a : List Nat × State) (gs : List Byte) : List Nat × State :=
    let prev := (a.1.head?).getD (2 ^ 40 - 1)
    let (r, s2) := placePages gi [(.checkpoint num, leBytes 8 seq ++ leBytes 5 prev ++ gs)] a.2
    (r ++ a.1, s2)
  let (roots, s2) := (pagesOf (5 * 3274) ((pages.map (leBytes 5)).flatten)).foldl root ([], s1)
  if pages.length < body.length + maps.length || roots = [] then s2
  else s2.modGroup gi fun g => { g with ckptPages := g.ckptPages ++ pages ++ roots, ckptRoot := roots.head?, ckptSeq := seq,
                                        mapSweep := g.mapSweep + swept.length }

/-! ### Departure (R227, R234, R258, R263, R264) -/

/-- Outstanding operations of a departed bay expire: a read's unit is to be rescued, a program, erase or control ends with its member
(R121, R223, R227). -/
def expireBay (bay : Nat) (s : State) : State :=
  let out := s.flash.ops.filter fun o => o.bay == bay && o.st == .outstanding
  let blks := (out.filterMap fun o => match o.use with | .landing blk => if o.live then some blk else none | _ => none).eraseDups
  let ops := s.flash.ops.map fun o =>
    if o.bay == bay && o.st == .outstanding then { o with live := false, st := .quarantine } else o
  blks.foldl (fun s blk => slotsRevoked blk s) (s.modFlash fun f => { f with ops, dies := f.dies.filter fun d => d.bay != bay })

/-- Reads queued for a bay whose member is missing: a unit of its own is rebuilt from the other members; a reconstruction that needs it
ends as one that lost a contribution (R121, R189, R227). -/
def redirectReads (gi m bay : Nat) (s : State) : State :=
  let hit (o : FlashOp) : Bool := o.bay == bay && o.opc == 0x01 && !o.dropped && o.st == .queued
  let blks := ((s.flash.ops.filter hit).filterMap fun o =>
    match o.use with | .landing blk => some blk | _ => none).eraseDups
  let s0 := s.modFlash fun f => { f with ops := f.ops.filter fun o => !hit o }
  blks.foldl (fun s blk =>
    match s.buf? blk with
    | none => s
    | some b =>
      if b.draining then s
      else if b.xorExp = 0 && b.place.g = gi && b.place.member = m then reconstruct blk s
      else slotsRevoked blk s) s0

/-- A source of a chunk that will not be programmed is needed no more: a slot that no map entry needs, or the buffer that holds it. -/
def dropSource (gi band q : Nat) (s : State) (src : Nat) : State :=
  if src < 131072 then cleanSlots [src] s
  else
    let here (b : Buf) : Bool := b.blk + 131072 == src && match b.use with
      | .reloc g _ new => g == gi && guaBand new == band && (s.group gi).stripeOf (guaDu new) == q
      | .rebuild g b' q' _ => g == gi && b' == band && q' == q
      | _ => false
    s.modFlash fun f => { f with bufs := f.bufs.filter fun b => !here b }

/-- Chunks of unfinished stripes on a departed member are not written; the stripes are completed as formed (R234). Every other operation
queued for it stays queued while it is missing (R227). -/
def skipChunks (gi m : Nat) (s : State) : State :=
  let g := s.group gi
  let open' := (g.stripes.filter Stripe.formed).map fun x => (x.band, x.q)
  let skip (x : Stripe) : Stripe := { x with chunks := upd x.chunks m fun _ => .skipped }
  let stripes := updWhere (fun x => x.formed && nth x.chunks m != .verified) skip g.stripes
  let lost (b : Band) : Band :=
    let mine := (g.stripes.filter fun x => x.band == b.num && x.formed && nth x.chunks m != .verified && g.parityMember x.q == m).map fun x =>
      (x.q, m)
    { b with holes := mine ++ b.holes }
  let s1 := s.modGroup gi fun g => { g with stripes, bands := g.bands.map lost }
  let place (o : FlashOp) : Option (Nat × Nat) := match o.use with
    | .chunk g' b q m' => if g' = gi && m' = m then some (b, q) else none
    | .dieParity g' b m' row => if g' = gi && m' = m then some (b, row * g.dies) else none
    | .rebuilt g' b q m' => if g' = gi && m' = m then some (b, q) else none
    | _ => none
  let s2 := s1.flash.ops.foldl (fun s o => match place o with
    | some (b, q) => o.src.foldl (dropSource gi b q) s
    | none => s) s1
  let s3 := s2.modFlash fun f => { f with ops := f.ops.filter fun o => !(o.st == .queued && (place o).isSome) }
  open'.foldl (fun s p => stripeDone gi p.1 p.2 s) s3

/-- Close sweeps go on without a departed member: its chunks are not there to be verified, and its parity areas have gone with it (R161,
R234). -/
def sweepsWithout (gi m : Nat) (s : State) : State :=
  let bands := ((s.group gi).bands.filter fun b => b.st == .closing && b.sweepOn).map Band.num
  let out (b : Band) : Band :=
    { b with sweepLeft := b.sweepLeft.filter fun p => p.2 != m,
             subst := if b.areasOn then b.subst.filter fun e => !(e.parity && e.member == m) else b.subst }
  bands.foldl (fun s n => sweepDone gi n (s.modGroup gi fun g => g.modBand n out)) s

/-- A verify of the close sweep: passed, or the chunk is rebuilt from die parity, or else from stripe parity, as the valid units of its
stripe are relocated (R160, R161). -/
def sweepVerified (gi band q m : Nat) (ok : Bool) (s : State) : State :=
  let drop (b : Band) : Band := { b with sweepLeft := b.sweepLeft.filter (· != (q, m)), repaired := b.repaired || !ok }
  let s1 := s.modGroup gi fun g => g.modBand band drop
  let units := (s1.group gi).stripeUnits band q
  let own := units.filter fun a => ((s1.group gi).placeOf gi a).member == m
  let s2 := if ok then s1 else raise Code.evFtlSweepRepair Kind.group gi [m] (relocateWith gi band units own false s1)
  sweepDone gi band s2

/-- A member goes missing: its mark, the MEMBER record, the state of the group, and what a second failure loses (R258,
R263, R264). -/
def memberGone (gi m : Nat) (s : State) : State :=
  let g := s.group gi
  let x := g.member m
  if x.st = .missing || !g.formed then s
  else
    let others := g.notCurrent.filter (· != m)
    let y := { x with st := .missing, mark := if x.st = .current then g.seq else x.mark, since := s.clock, accepted := 0,
                      spareDue := false, window := true, erasedSince := if x.st = .current then [] else x.erasedSince }
    let s1 := s.modGroup gi fun g => g.modMember m fun _ => y
    if !g.role.owns then s1
    else
      let s2 := match others with
        | [] => s1
        | _ => tellLost gi (others.foldl (fun s z => secondFailure gi z m s) (s1.modGroup gi fun g => g.modMember m fun _ => x))
      let s3 := if others = [] then s2 else s2.modGroup gi fun g => g.modMember m fun _ => y
      let s4 := journalMember gi m (sweepsWithout gi m (eraseWithout gi m (skipChunks gi m s3)))
      let s5 := refreshHealth gi s4
      if (s5.group gi).health = .multiFault then startCheckpoint gi s5 else s5

/-- `n` operations of a bay have timed out: counted, latched, and told at most once per minute (R223). -/
def countTimeouts (bay n : Nat) (s : State) : State :=
  let s1 := s.modBay bay fun b => { b with timeouts := b.timeouts + n, timeoutsRow := b.timeoutsRow + n, evt := setBit b.evt 1 }
  if s1.passed (s1.bay bay).timeoutTold 60000000 then
    raise Code.evBayTimeout Kind.bay bay [] (s1.modBay bay fun b => { b with timeoutTold := some s.clock })
  else s1

/-- A bay departs: operations expired, reads rebuilt elsewhere, the event, PERST, the member missing; a verify of its is a verify that
failed (R223, R227). -/
def departBay (bay : Nat) (s : State) : State :=
  let b := s.bay bay
  let n := s.outstanding bay
  if b.st = .off && b.perst then s
  else
    let sweeps := s.flash.ops.filterMap fun o => match o.use with
      | .sweep g b q m => if o.bay = bay && o.st == .outstanding then some (g, b, q, m) else none
      | _ => none
    let s1 := expireBay bay (if n = 0 then s else countTimeouts bay n s)
    let s2 := s1.modBay bay fun b => { b with up := false, speed := 0, width := 0, st := .off, degraded := false, perst := true,
                                              desc := none, evt := setBit b.evt 0, consumed := 0, timeoutsRow := 0,
                                              invalidAt := [], sqTail := 0, cqHead := 0 }
    let s3 := raise Code.evBayLinkDown Kind.bay bay [] s2
    match s3.bayMember bay with
    | some (gi, m) =>
      let s4 := if (s3.group gi).role.owns then sweeps.foldl (fun s w => sweepVerified w.1 w.2.1 w.2.2.1 w.2.2.2 false s) (memberGone gi m s3)
        else memberGone gi m s3
      redirectReads gi m bay s4
    | none => s3

/-- A module is declared failed (R223). -/
def moduleFailed (bay : Nat) (s : State) : State :=
  raise Code.evBayModuleFatal Kind.bay bay [] (departBay bay s)

/-! ### Dead dies (R235) -/

/-- A die of a member is dead: the units of every stripe at its index are relocated, later bands leave the die index out, and too many
dead ones fail the member (R235). -/
def dieDead (gi m k : Nat) (s : State) : State :=
  let g := s.group gi
  if (g.member m).dead.contains k then s
  else
    let s1 := s.modGroup gi fun g => g.modMember m fun x => { x with dead := k :: x.dead }
    let holds (b : Band) : Bool := b.st == .closed || b.st == .opened || b.st == .closing || b.st == .victim
    let s2 := ((g.bands.filter holds).map Band.num).foldl (fun s n =>
      relocateWith gi n (((g.owners.filter fun o => guaBand o.gua == n &&
        g.dieOf (g.stripeOf (guaDu o.gua)) == k).map Owner.gua)) [] true s) s1
    let s3 := raise Code.evGroupDieDead Kind.group gi [m, k] s2
    if s.paramN 0x5106 < ((s3.group gi).member m).dead.length then moduleFailed (g.bayOf m) s3 else s3

/-! ### Targets, spares, returns (R259 to R263) -/

/-- A module in a bay meets the requirements of R232 for a group. -/
def State.meets (s : State) (gi bay : Nat) : Bool :=
  let g := s.group gi
  let d := s.desc bay
  decide ((s.bay bay).st = .ready) && d.positions == g.positions && decide (g.dies ≤ d.dies) && decide (g.blocks ≤ d.blocks) &&
    s.descFits bay g.w

/-- The bands that a rebuild works through: OPEN and CLOSING first, then CLOSED by falling VALID, then FREE; those being collected or erased
are left until they are FREE (R261). -/
def Group.rebuildOrder (g : Group) (want : Nat → Bool) : List Nat :=
  let first := (g.bands.filter fun b => b.st == .opened || b.st == .closing).map Band.num
  let closed := ((g.bands.filter fun b => b.st == .closed).mergeSort fun a b => decide (b.valid ≤ a.valid)).map Band.num
  let later := (g.bands.filter fun b => b.st == .victim || b.st == .erasePending || b.st == .erasing).map Band.num
  (first ++ closed ++ g.freeBands ++ later).filter want

/-- A band may be rebuilt now (R261). -/
def BandSt.rebuilds : BandSt → Bool
  | .free | .opened | .closing | .closed => true
  | _ => false

/-- Rebuild of one band of a target: its blocks are erased, die by die (R261). A band opened since the target came has
nothing to rebuild. -/
def rebuildBand (gi m band : Nat) (s : State) : State :=
  let g := s.group gi
  if (g.member m).newFrom.contains (band, 0) then s
  else (List.range g.dies).foldl (fun s k => queueErase gi m k ((g.band band).blockAt m k 0).1 2 (.rebuild band) s) s

/-- The next bands of a target start, as many as `parity.rebuild.bands_active` allows (R261). -/
def nextBands (gi m : Nat) (s : State) : State :=
  let g := s.group gi
  let x := g.member m
  let more := (x.todo.filter fun n => (g.band n).st.rebuilds && !x.active.contains n).take (s.paramN 0x5105 - x.active.length)
  more.foldl (fun s n => rebuildBand gi m n s) (s.modGroup gi fun g => g.modMember m fun x => { x with active := x.active ++ more })

/-- A band that a target was rebuilding is collected: it is left until it is FREE (R261). -/
def leaveRebuild (gi band : Nat) (s : State) : State :=
  let stale (o : FlashOp) : Bool := o.st == .queued && match o.use with
    | .erase g _ (.rebuild b) => g == gi && b == band
    | _ => false
  let out (x : Member) : Member := { x with active := x.active.filter (· != band), rows := x.rows.filter fun r => r.1 != band }
  let s1 := (s.modFlash fun f => { f with ops := f.ops.filter fun o => !stale o }).modGroup gi fun g => { g with members := g.members.map out }
  ((List.range (s.group gi).w).filter fun m => ((s.group gi).member m).active.contains band).foldl (fun s m => nextBands gi m s) s1

/-- A journal set of a member is erased: one block on each of dies 1 to 64, but for a block that has been retired (R163, R250). -/
def eraseSet (gi m : Nat) (second : Bool) (s : State) : State :=
  let g := s.group gi
  let blk := if second then g.topBlock - 1 else g.topBlock
  ((List.range 64).filter fun i => !(g.member m).retired.contains (i + 1, blk)).foldl (fun s i =>
    queueErase gi m (i + 1) blk 3 (.set second) s) s

/-- An EPOCH_SET goes out (R226). -/
def setEpoch (bay epoch : Nat) (s : State) : State := submitNow { bay, opc := 0x60, use := .epochSet epoch } s

/-- What was left queued for a member while it was missing is superseded by its rebuild. -/
def cancelQueued (bay : Nat) (s : State) : State :=
  s.modFlash fun f => { f with ops := f.ops.filter fun o => !(o.bay == bay && o.st == .queued && decide (o.opc ≤ 0x20)) }

/-- A target or returning member starts: its module takes the group's epoch (R226), both journal sets are erased first, then its first
bands (R250, R261). -/
def startRebuild (gi m : Nat) (s : State) : State :=
  let g := s.group gi
  let s0 := if (g.member m).accepted = g.epoch then s else setEpoch (g.bayOf m) g.epoch s
  let s1 := nextBands gi m (eraseSet gi m true (eraseSet gi m false s0))
  let s3 := raise Code.evGroupRebuildStart Kind.group gi [m] s1
  noticeGroup gi 7 1 0 (refreshHealth gi (journalMember gi m s3))

/-- OPEN bands, with the first stripe that will be formed on a target from now on (R234). -/
def Group.openFrom (g : Group) : List (Nat × Nat) :=
  (g.bands.filter fun b => b.st == .opened).map fun b => (b.num, ceilDiv b.wp (Nat.max 1 g.perStripe))

/-- A module becomes the target of a missing member (R259 rule 3, R260, R261): everything is to rebuild, and the failed
member's substitutes and spares are discarded. -/
def makeTarget (gi m bay : Nat) (s : State) : State :=
  let g := s.group gi
  let x : Member := { bay, st := .target, moduleId := (s.bay bay).modId, mark := (g.member m).mark,
                      todo := g.rebuildOrder fun _ => true, newFrom := g.openFrom }
  let s1 := s.modGroup gi fun g => { g.modMember m fun _ => x with
    bands := g.bands.map fun b => { b with subst := b.subst.filter fun e => e.member != m,
                                           retire := b.retire.filter fun r => r.1 != m,
                                           clean := b.clean.filter fun c => c.1 != m } }
  startRebuild gi m (cancelQueued (g.bayOf m) s1)

/-- A member returns inside its window: only what was written or erased while it was away is rebuilt (R263). -/
def returnMember (gi m bay : Nat) (s : State) : State :=
  let g := s.group gi
  let x := g.member m
  let want (n : Nat) : Bool :=
    decide (x.mark ≤ (g.band n).seq ∧ (g.band n).st ≠ .free) || x.erasedSince.contains n || x.todo.contains n
  let todo := g.rebuildOrder want
  let again (b : Band) : Band := if todo.contains b.num then { b with clean := b.clean.filter fun c => c.1 != m } else b
  let s1 := s.modGroup gi fun g => { g.modMember m fun x =>
      { x with bay, st := .returning, todo, active := [], rows := [], newFrom := g.openFrom, window := false, spareDue := false } with
    bands := g.bands.map again }
  startRebuild gi m (cancelQueued (g.bayOf m) s1)

/-- EV_GROUP_MODULE_UNASSIGNED for a bay. -/
def unassigned (bay : Nat) (s : State) : State := raise Code.evGroupModuleUnassigned Kind.bay bay [] s

/-- A module that has completed bring-up is assigned by the first rule of R259 that applies. -/
def assignModule (bay : Nat) (s : State) : State :=
  let id := (s.bay bay).modId
  let isBack (gi m : Nat) : Bool :=
    let g := s.group gi
    let x := g.member m
    g.formed && g.role.owns && x.st == .missing && x.moduleId == id && x.window
  let back := (List.range 6).findSome? fun gi => (lowest (isBack gi) (s.group gi).w).map fun m => (gi, m)
  let isHole (gi m : Nat) : Bool :=
    let g := s.group gi
    g.formed && g.role.owns && (g.member m).st == .missing && g.bayOf m == bay
  let hole := (List.range 6).findSome? fun gi => (lowest (isHole gi) (s.group gi).w).map fun m => (gi, m)
  match back with
  | some (gi, m) => if s.meets gi bay then returnMember gi m bay s else unassigned bay s
  | none =>
    if (s.bay bay).spare then s
    else match hole with
      | some (gi, m) => if s.paramN 0x5103 = 1 && s.meets gi bay then makeTarget gi m bay s else unassigned bay s
      | none => if (s.bayMember bay).isSome then s else unassigned bay s

/-- A bay is no designated spare any more. -/
def unspare (bay : Nat) (s : State) : State :=
  let s1 := s.modBay bay fun x => { x with spare := false }
  { s1 with groups := s1.groups.map fun g => { g with spareBays := g.spareBays.filter (· != bay) } }

/-- A group whose member has been missing for the spare delay takes a designated spare that meets R232; the group with
the most members not current goes first, then the lower number (R260). -/
def takeSpares (s : State) : State :=
  let waiting := (List.range 6).filterMap fun gi =>
    let g := s.group gi
    if g.formed && g.role.owns then (lowest (fun m => (g.member m).st == .missing && (g.member m).spareDue) g.w).map fun m =>
      (gi, m, g.notCurrent.length) else none
  let order := waiting.mergeSort fun a b => decide (b.2.2 ≤ a.2.2)
  order.foldl (fun s w =>
    match lowest (fun b => (s.bay b).spare && s.meets w.1 b && (s.bayMember b).isNone) 24 with
    | some b => makeTarget w.1 w.2.1 b (unspare b s)
    | none => s) s

end Sys2Proof.Machine
end

