-- ==== Sys2Proof/Machine/Replay.lean ====
section
/-! DEFINITION. What a journal record does to the map and the band table when it is replayed: at a mount, at a takeover, and
on the partner's copy when it retires (R171, R242, R245, R249). -/

namespace Sys2Proof.Machine

/-! ### What a page already holds (R171 step 3, R248 step 3) -/

/-- What the pages of a checkpoint or of a resynchronisation hold beside map pages and zone entries, as keys of `Group.pageSeq`: the record
of a band, the lost-extent list, the members. -/
abbrev keyBand : Nat := 0x10000
abbrev keyLost : Nat := 0x10001
abbrev keyMember : Nat := 0x10002

/-- The JSEQ from which on records take effect on what a page holds: the page's own, else that of the checkpoint or of the first page. -/
def Group.heldSince (g : Group) (key i : Nat) : Nat :=
  ((g.pageSeq.find? fun p => p.1 == key && p.2.1 == i).map fun p => p.2.2).getD g.ckptSeq

/-- A record is newer than the page that it concerns. -/
def Group.newer (g : Group) (j key i : Nat) : Bool := decide (g.heldSince key i ≤ j)

/-- The page that holds a unit's map entry, or its zone's. -/
def Ns.pageOf (n : Ns) (u : Nat) : Nat := if n.zoned then u / n.zoneUnits else u / 3264

/-! ### Maps -/

/-- A unit's owner record, as its band's summary holds it, and WP (R159). -/
def ownUnit (gi nsx u gua : Nat) (s : State) : State :=
  s.modGroup gi fun g => { g.modBand (guaBand gua) (fun b => { b with wp := Nat.max b.wp (guaDu gua + 1) }) with
    owners := { gua, nsx, unit := u } :: g.owners.filter fun o => o.gua != gua }

/-- A unit comes to lie at a GUA: the old copy stops being valid, the map names the new one (R145, R148). -/
def mapUnit (gi nsx u gua : Nat) (s : State) : State :=
  match s.ns? nsx with
  | none => s
  | some n =>
    if n.zoned then
      let off := u % n.zoneUnits
      let z := n.zone (u / n.zoneUnits)
      let put (z : Zone) : Zone :=
        let z1 := if z.written ≤ off then z.append gua else z.setUnit off gua
        { z1 with wp := Nat.max z.wp (off + 1), st := if z.st = .full || n.zoneUnits ≤ off + 1 then .full else .closed }
      let s1 := match z.gua? off with | some old => addValid gi old false s | none => s
      addValid gi gua true (s1.modNs nsx fun n => n.modZone (u / n.zoneUnits) put)
    else addValid gi gua true ((dropOld n u s).modNs nsx fun n => n.setMap u (some (.gua gua)))

/-- A unit of a record comes to lie at a GUA, as far as the pages do not hold that already. A page that is newer than the record names a
later copy, and the comparison of R146 fails (R171 step 3; DEDUCED, log 9). -/
def applyUnit (gi j nsx u gua : Nat) (s : State) : State :=
  let g := s.group gi
  let s1 := if g.newer j keyBand (guaBand gua) then ownUnit gi nsx u gua s else s
  match s1.ns? nsx with
  | some n => if g.newer j nsx (n.pageOf u) then mapUnit gi nsx u gua s1 else s1
  | none => s1

/-- A zone is Empty again: its units stop being valid (R71). -/
def clearZone (nsx z : Nat) (s : State) : State :=
  match s.ns? nsx with
  | none => s
  | some n =>
    let zn := n.zone z
    let s1 := (List.range zn.written).foldl (fun s i =>
      match zn.gua? i with
      | some g => addValid n.group g false s
      | none => s) s
    s1.modNs nsx fun n => { n with zones := n.zones.filter fun x => x.num != z }

/-- Units of a namespace become unmapped by a record (R81). -/
def clearUnits (j nsx first count : Nat) (s : State) : State :=
  match s.ns? nsx with
  | none => s
  | some n =>
    let g := s.group n.group
    let gone (p : Nat × MapVal) : Bool := decide (first ≤ p.1) && decide (p.1 < first + count) && g.newer j nsx (n.pageOf p.1)
    let s1 := (n.map.filter gone).foldl (fun s p => dropOld n p.1 s) s
    s1.modNs nsx fun n => { n with map := n.map.filter fun p => !gone p }

/-- One unit of a RELOC_DELTA whose compare-and-set succeeded: its owner record names the unit, and the map follows when
it still names the old GUA (R146, R242). -/
def applyMove (gi j : Nat) (old new : Nat) (s : State) : State :=
  let g := s.group gi
  match (g.ownerOf old).or (g.ownerOf new) with
  | none => s
  | some o => if s.mapNames gi { o with gua := old } then applyUnit gi j o.nsx o.unit new s else s

/-! ### Members and blocks -/

/-- A substitution entry from its 64-bit word (R152). -/
def substOf (w : Nat) : Subst :=
  { member := bits w 59 5, die := bits w 50 9, start := bits w 40 10, parity := bit w 38, block := bits w 22 16 }

/-- A membership state from its code. -/
def memberStOf (c : Nat) : MemberSt := if c = 1 then .missing else if c = 2 then .target else if c = 3 then .returning else .current

/-- The bay in which a module stands, else the bay the member had. -/
def State.bayOfModule (s : State) (id bay : Nat) : Nat := (lowest (fun b => (s.bay b).modId == id && (s.bay b).st == .ready) 24).getD bay

/-- A member as a MEMBER record gives it (R242, R261, R263). -/
def memberFrom (g : Group) (bay : Nat) (x : Member) (st : MemberSt) (id mark : Nat) : Member :=
  let y := { x with st, moduleId := id, mark, bay, active := [], rows := [], newFrom := [] }
  match st with
  | .current => { y with todo := [], erasedSince := [], window := false, spareDue := false }
  | .missing => { y with erasedSince := if x.st = .current then [] else x.erasedSince, window := true, accepted := 0 }
  | .target => { y with todo := g.rebuildOrder fun _ => true, retired := [], used := [], joined := [], spareErases := [], dead := [] }
  | .returning =>
    { y with todo := g.rebuildOrder fun n =>
        decide (mark ≤ (g.band n).seq ∧ (g.band n).st ≠ .free) || x.erasedSince.contains n || x.todo.contains n }

/-- A MEMBER record applied. The substitutes of a member that a target replaces go (R261). -/
def applyMember (gi : Nat) (b : List Byte) (s : State) : State :=
  let m := leAt b 0 1
  let st := memberStOf (leAt b 1 1)
  let id := leAt b 2 8
  let bay := s.bayOfModule id ((s.group gi).bayOf m)
  s.modGroup gi fun g =>
    let g1 := g.modMember m fun x => memberFrom g bay x st id (leAt b 10 8)
    if st = .target then
      { g1 with bands := g1.bands.map fun b => { b with subst := b.subst.filter fun e => e.member != m,
                                                        retire := b.retire.filter fun r => r.1 != m,
                                                        clean := b.clean.filter fun c => c.1 != m } }
    else g1

/-! ### Records -/

/-- A band is opened for a stream, in the turn that the delta log keeps with the record (R157). The stream's previous band has closed (R158,
R161), and its parity areas are spares again. VALID and the owner records go on counting the lost units that the map still names (R267). -/
def applyBandOpen (gi turn : Nat) (b : List Byte) (s : State) : State :=
  let n := leAt b 0 2
  let stream := leAt b 2 1
  let seq := leAt b 4 4
  s.modGroup gi fun g =>
    let shuts (x : Band) : Bool := x.stream = stream && x.num != n && (x.st = .opened || x.st = .closing)
    let shut (x : Band) : Band := if shuts x then { x with st := .closed, subst := x.subst.filter fun e => !e.parity } else x
    let areas := (((g.bands.filter shuts).map Band.subst).flatten).filter Subst.parity
    let free (m : Nat) (x : Member) (e : Subst) : Member :=
      if e.member = m then { x.setSpareCount e.die e.block (e.erases + 1) with used := x.used.filter (· != (e.die, e.block)) } else x
    let open' (x : Band) : Band :=
      { x with st := .opened, stream, seq, openTurn := turn, wp := 0, repaired := false, cut := false, skip := g.deadDies, holes := [],
               sweepOn := false, areasOn := false, parityRows := [], tops := [], summed := 0 }
    { { g with bands := g.bands.map shut, members := g.members.zipIdx.map fun (p : Member × Nat) => areas.foldl (free p.2) p.1 }.modBand n open' with
      seq := Nat.max g.seq (seq + 1), openBand := upd g.openBand stream fun _ => some n,
      owners := g.owners.filter fun o => guaBand o.gua != n || g.isLost o.gua }

/-- A band's erase pass has completed: FREE, one erase more (R167, R173). The record of a rebuild's erases finds the band in another state
and changes nothing (R242). -/
def applyErased (gi n : Nat) (s : State) : State :=
  let b := (s.group gi).band n
  if b.st != .erasePending && b.st != .erasing then s
  else
    let away (x : Member) : Member := if x.st = .missing then { x with erasedSince := n :: x.erasedSince } else x
    let fresh (b : Band) : Band :=
      { b with st := .free, stream := 15, erases := Nat.min 65535 (b.erases + 1), wp := 0, repaired := false, cut := false, holes := [],
               summed := 0, tops := [], subst := b.subst.map fun e => { e with erases := e.erases + 1 } }
    s.modGroup gi fun g => { g.modBand n fresh with members := g.members.map away }

/-- A STRIPE_DONE record: chunks of the stripes on a member that is away were skipped or left with it (R234). -/
def applyDone (gi band first count : Nat) (s : State) : State :=
  let g := s.group gi
  let gone := (List.range g.w).filter fun m => !g.presentMember m
  let holes := ((List.range count).map fun i => gone.map fun m => (first + i, m)).flatten
  s.modGroup gi fun g => g.modBand band fun b => { b with holes := (holes.filter fun h => !b.holes.contains h) ++ b.holes }

/-- A retired block serves no band any more, and its substitute takes every position (R162, R163). -/
def applyRetire (gi m k blk : Nat) (s : State) : State :=
  s.modGroup gi fun g =>
    let out (b : Band) : Band :=
      if b.st = .erasePending || b.st = .erasing then
        let here := b.subst.any fun e => e.member == m && e.die == k && e.block == blk
        let whole (e : Subst) : Subst := if !e.parity && e.member == m && e.die == k && (here || b.num == blk) then { e with start := 0 } else e
        { b with subst := (b.subst.filter fun e => !(e.member == m && e.die == k && e.block == blk)).map whole }
      else b
    { g.modMember m (fun x => { x with retired := (k, blk) :: x.retired }) with bands := g.bands.map out }

/-- A record's effect (R242), on what the pages do not hold already. WRITE applies to every unit of its run. -/
def applyRec (gi : Nat) (s : State) (r : JRec) : State :=
  let b := r.body
  let g := s.group gi
  let onBand (f : State → State) : State := if g.newer r.jseq keyBand (leAt b 0 2) then f s else s
  let onLost (f : Group → Group) : State := if g.newer r.jseq keyLost 0 then s.modGroup gi f else s
  let onMembers (f : State → State) : State := if g.newer r.jseq keyMember 0 then f s else s
  match r.ty with
  | 0x01 =>
    let s1 := s.modGroup gi fun g => { g with wseq := Nat.max g.wseq (r.wWseq + r.wCount) }
    (List.range r.wCount).foldl (fun s i => applyUnit gi r.jseq r.wNsx (r.wUnit + i) (r.wGua + i) s) s1
  | 0x02 => onBand (applyDone gi (leAt b 0 2) (leAt b 2 4) (leAt b 6 2))
  | 0x03 => onBand (applyBandOpen gi r.turn b)
  | 0x04 =>
    let e := substOf (leAt b 2 8)
    onBand fun s => s.modGroup gi fun g =>
      let e1 := { e with erases := (g.member e.member).spareCount e.die e.block }
      (g.modBand (leAt b 0 2) fun x => { x with subst := x.subst ++ [e1] }).modMember e.member fun x =>
        { x with used := (e.die, e.block) :: x.used }
  | 0x05 =>
    ((List.range (leAt b 10 1)).filter fun i => bit (leAt b 12 8) i).foldl
      (fun s i => applyMove gi r.jseq (leAt b 0 5 + i) (leAt b 5 5 + i) s) s
  | 0x06 => onBand fun s => s.modGroup gi fun g => g.modBand (leAt b 0 2) fun x => { x with st := .erasePending }
  | 0x07 => onBand (applyErased gi (leAt b 0 2))
  | 0x08 => onMembers (applyRetire gi (leAt b 0 1) (leAt b 1 2) (leAt b 3 2))
  | 0x09 => onLost fun g => { g with lost := g.lost ++ [lostOf (slice b 0 16)], lostGen := g.lostGen + 1 }
  | 0x0A =>
    let e := lostOf (slice b 0 16)
    let y := lostOf (slice b 16 16)
    onLost fun g => { g with lost := (g.lost.filter (· != e)) ++ (if y.count = 0 then [] else [y]), lostGen := g.lostGen + 1 }
  | 0x0B => clearUnits r.jseq (leAt b 0 2) (leAt b 2 6) (leAt b 8 4) s
  | 0x0C =>
    if !g.newer r.jseq (leAt b 0 2) (leAt b 2 4) then s
    else if leAt b 6 1 = 1 then clearZone (leAt b 0 2) (leAt b 2 4) s
    else s.modNs (leAt b 0 2) fun n => n.modZone (leAt b 2 4) fun z => { z with st := .full }
  | 0x0D => onMembers (applyMember gi b)
  | 0x0E => onMembers fun s => s.modGroup gi fun g => g.modMember (leAt b 2 1) fun x =>
      { x with todo := x.todo.filter (· != leAt b 0 2), rows := x.rows.filter fun r => r.1 != leAt b 0 2 }
  | _ => s

end Sys2Proof.Machine
end

