-- ==== Sys2Proof/Machine/MountEnd.lean ====
section
/-! DEFINITION. How a mount and a takeover end: bands brought to rest, dies asked, the group mounted, the role taken (R171
steps 5 to 8, R188, R258, R335). -/

namespace Sys2Proof.Machine

/-! ### Dies and epochs -/

/-- A DIE_STATUS goes out: until it is answered no program or erase starts at the die index (R188, R210). -/
def askDie (bay die : Nat) (s : State) : State :=
  (submitNow { bay, die, opc := 0x50, use := .control } s).modDie bay die fun d => { d with asked := true }

/-- Every die of a module is asked its status (R188, R210). -/
def askDies (bay : Nat) (s : State) : State := (List.range (s.desc bay).dies).foldl (fun s k => askDie bay k s) s

/-- The present members, and their bays. -/
def Group.presentList (g : Group) : List Nat := (List.range g.w).filter g.presentMember
def Group.presentBays (g : Group) : List Nat := g.presentList.map g.bayOf

/-! ### Bands -/

/-- Every block of a band is erased, each in its member's turn for its die; blocks marked to retire are retired instead, and their substitutes
erased (R162, R167). A dead die has nothing to erase (R235), and a block that has been retired is never erased again (R163). A target leaves
the band until it is FREE (R261). -/
def eraseBand (gi band : Nat) (s : State) : State :=
  let s0 := leaveRebuild gi band s
  let g := s0.group gi
  let b := g.band band
  let pos := (((List.range g.w).filter g.presentMember).map fun m =>
    ((List.range g.dies).filter fun k => !(g.member m).dead.contains k).map fun k => (m, k)).flatten
  let s1 := b.retire.foldl (fun s r =>
    let add (x : Member) : Member := { x with retired := (r.2.1, r.2.2) :: x.retired }
    journal gi 0x08 (bodyRetire r.1 r.2.1 r.2.2)
      (s.modGroup gi fun g => { g.modMember r.1 add with ctrs := { g.ctrs with blocksRetired := g.ctrs.blocksRetired + 1 } })) s0
  let whole (e : Subst) : Subst := if !e.parity && b.retire.any fun r => r.1 == e.member && r.2.1 == e.die then { e with start := 0 } else e
  let s2 := s1.modGroup gi fun g => g.modBand band fun b =>
    { b with st := .erasing, eraseLeft := pos, retire := [], clean := [],
             subst := (b.subst.filter fun e => !b.retire.contains (e.member, e.die, e.block)).map whole }
  pos.foldl (fun s p =>
    let blk := (((s.group gi).band band).blockAt p.1 p.2 0).1
    if ((s.group gi).member p.1).retired.contains (p.2, blk) then
      match swapBlock gi band p.1 p.2 blk s with
      | (some new, s1) => queueErase gi p.1 p.2 new 3 (.band band) s1
      | (none, s1) => retireBand gi band p.1 p.2 s1
    else queueErase gi p.1 p.2 blk 3 (.band band) s) s2

/-- VALID of every band is what its owner records and the map say (R151). -/
def recount (gi : Nat) (s : State) : State :=
  s.modGroup gi fun g => { g with bands := g.bands.map fun b =>
    { b with valid := (g.owners.filter fun o => guaBand o.gua == b.num && s.mapNames gi o).length } }

/-- The (member, die) positions of a band at which a mount looks for the last programmed row. -/
def Group.scanPlaces (g : Group) (band : Nat) : List (Nat × Nat) :=
  ((g.presentList.map fun m => ((List.range g.dies).filter fun k =>
    !(g.band band).skip.contains k && !(g.member m).dead.contains k).map fun k => (m, k))).flatten

/-- The scan of a band goes to the row below one: a verify of its chunk; below row 0 nothing is programmed (R171 step 6). -/
def scanFrom (gi band m k row : Nat) (s : State) : State :=
  let g := s.group gi
  if row = 0 then s.modGroup gi fun g => g.modBand band fun b => { b with tops := (m, k, 0) :: b.tops }
  else
    let (blk, pos) := (g.band band).blockAt m k (row - 1)
    enqueue { bay := g.bayOf m, die := k, opc := 0x02, qcls := 1, block := blk, page := 4 * pos, use := .scan gi band m (row - 1) } s

/-- Rows of a band at a die index that lie below its recorded WP. -/
def Group.rowsBelow (g : Group) (band k : Nat) : Nat :=
  ((List.range g.positions).filter fun r => decide ((r * g.dies + k) * g.perStripe < (g.band band).wp)).length

/-- The close sweep of a band that was OPEN at the cut begins once its scan is over (R171 steps 6 and 7). -/
def scanDone (gi band : Nat) (s : State) : State :=
  let g := s.group gi
  let b := g.band band
  let over' := (g.scanPlaces band).all fun p => b.tops.any fun t => t.1 == p.1 && t.2.1 == p.2
  if b.st = .closing && b.cut && !b.sweepOn && over' then sweepDone gi band (startSweep gi band s) else s

/-- The scan of a band that was OPEN at the cut reads back from the recorded WP at every (member, die) (R171 step 6). Die parity of the rows
below WP is there for its sweep (R171 step 7). -/
def startScan (gi band : Nat) (s : State) : State :=
  let g := s.group gi
  let rows := (g.band band).wp / Nat.max 1 (g.perStripe * g.dies)
  let there := (((g.band band).subst.filter Subst.parity).map fun e => (List.range rows).map fun r => (e.member, r)).flatten
  let s1 := s.modGroup gi fun g => g.modBand band fun b =>
    { b with st := .closing, cut := true, sweepOn := false, areasOn := false, tops := [], parityRows := there }
  scanDone gi band ((g.scanPlaces band).foldl (fun s p => scanFrom gi band p.1 p.2 (g.rowsBelow band p.2) s) s1)

/-- One band of a mounted group: a VICTIM is CLOSED again, an erase is queued or reissued in full, and a band that was OPEN
or CLOSING at the cut is scanned and goes through the close sweep, never to be reopened (R171 steps 5 to 7, R172). -/
def settleBand (gi : Nat) (s : State) (b : Band) : State :=
  match b.st with
  | .victim => s.modGroup gi fun g => g.modBand b.num fun b => { b with st := .closed }
  | .erasePending | .erasing => eraseBand gi b.num s
  | .opened | .closing => startScan gi b.num s
  | _ => s

/-- Bands of a target that is still being rebuilt start again from their erase (R258, R261). -/
def resumeRebuild (gi : Nat) (s : State) : State :=
  ((s.group gi).notCurrent.filter fun m => ((s.group gi).member m).st != .missing).foldl (fun s m => nextBands gi m s) s

/-! ### The role (R335 step 5) -/

/-- A takeover or planned handover has reached its end: the new owner renews at its epoch and serves (R335 step 5). No
message tells it whether a handover that it did not ask for was a swap or a command, which move the preferred owner (R339,
R394), so that is free (log 3). The last grant of a witness that has voted for it is that vote (R331, R342). A mount
that no vote led to leaves the group without a lease until its renewals gain two grants (R327; log 13). -/
def takeRole (gi : Nat) (s : State) : State :=
  let g := s.group gi
  match g.attempt with
  | none => renewLease gi (setRole gi .leaseLost (s.modGroup gi fun g => { g with won := false }))
  | some a =>
    let mine := s.prefers gi || (a.planned && !g.requested && Config.freeBool s.free)
    let clear (g : Group) : Group :=
      { g with won := false, attempt := none, failedAt := none, deniedTold := false, hand := none, handedBy := none,
               requested := false, requestAgain := false, preferB := mine == s.sys.slotB }
    let grant (w : Witness) : Witness :=
      if a.yes.contains w.dev then { w with granted := some a.sentAt } else w
    let s1 := s.drew.modGroup gi fun g => { clear g with wits := g.wits.map grant }
    let s2 := setRole gi .owner (renewLease gi s1)
    let s3 := raise Code.evScrimTakeover Kind.group gi [g.epoch] (setScrimEvt 3 s2)
    if a.planned then countScrim 7 (raise Code.evScrimHandover Kind.group gi [] (setScrimEvt 4 s3)) else countScrim 6 s3

/-- Journal sets that are not erased are erased, now that the mount has taken what it needs from them (R250). -/
def eraseSets (gi : Nat) (s : State) : State :=
  ((List.range (s.group gi).w).filter (s.group gi).presentMember).foldl (fun s m =>
    let x := (s.group gi).member m
    let s1 := if x.set0 then s else eraseSet gi m false s
    if x.set1 then s1 else eraseSet gi m true s1) s

/-- Every member's descriptor fits the turn length (R187). -/
def State.groupFits (s : State) (gi : Nat) : Bool := (s.group gi).presentBays.all fun b => s.descFits b (s.group gi).w

/-- A group that does not fit the turn length is not mounted: the event, and Persistent Loss until the turn length is changed (R187). -/
def notFit (gi : Nat) (s : State) : State :=
  anaRefresh (setRole gi .none (raise Code.evTurnModuleUnfit Kind.group gi []
    (s.modGroup gi fun g => { g with unfit := true, won := false, attempt := none, handedBy := none })))

/-- The last step of a mount: the group is mounted and its role taken, its space is assessed (R171 step 8, R258). -/
def mountEnd (gi : Nat) (s : State) : State :=
  let g := s.group gi
  let s4 := if g.health = .failed then s else setHealth gi g.healthOf 0 s
  let s5 := resumeRebuild gi (eraseSets gi (raise Code.evFtlMounted Kind.group gi [] s4))
  let s6 := takeRole gi s5
  if (s6.group gi).health = .multiFault then startCheckpoint gi (spaceCheck gi s6) else spaceCheck gi s6

/-- The mount goes on when no unit is left to read: every band is brought to rest; when the last close sweep has ended it is over (R171 steps
5 to 8, R258). -/
def mountDone (gi : Nat) (s : State) : State :=
  let g := s.group gi
  if g.role != .takingOver || !g.won || g.mountWait || !g.replay.isEmpty || g.health != .mounting && g.health != .failed then s
  else
    let s1 := if g.settled then s
      else
        let s1 := recount gi (s.modGroup gi fun g => { g with openBand := List.replicate 10 none, collects := [], stripes := [], settled := true })
        (s1.group gi).bands.foldl (settleBand gi) s1
    if (s1.group gi).bands.any fun b => b.st == .closing then s1 else mountEnd gi s1

/-- Mounts whose last scans or sweeps ended with a member that has departed go on at the next frame boundary (R171, R227). -/
def mountsGoOn (s : State) : State :=
  let on := (List.range 6).filter fun gi => (s.group gi).settled && (s.group gi).role == .takingOver && (s.group gi).won
  on.foldl (fun s gi =>
    mountDone gi ((((s.group gi).bands.filter fun b => b.st == .closing).map Band.num).foldl (fun s n => scanDone gi n s) s)) s

end Sys2Proof.Machine
end

