-- ==== Sys2Proof/Machine/Landing.lean ====
section
/-! DEFINITION. What lands in staging and what becomes of it: landing slots, tag checks, rescue, peer reads (R112, R114,
R117 to R123, R130, R134 to R138). -/

namespace Sys2Proof.Machine

/-! ### Units that are lost or good, by what they were read for -/

/-- A place's unit is lost with a cause, and in a group with a member missing the missing member's unit at that position
with it (R112, R265). -/
def losePlace (p : Place) (cause : Nat) (s : State) : State :=
  let g := s.group p.g
  let also := if g.notCurrent.length = 1 then g.notCurrent else []
  let ms := (p.member :: also).eraseDups
  let s1 := ms.foldl (fun s m =>
    match (s.group p.g).guaOf { p with member := m } with
    | some gua => if s.validAt p.g gua then loseUnit p.g gua cause s else s
    | none => s) s
  if (s1.group p.g).lost.length = g.lost.length then s1 else tellLost p.g s1

/-- A relocation copy cannot be made: the place it was given takes filler, and the unit stays on the old GUA (R168). A relocation that
is no collection goes on with what it has left. -/
def abandonCopy (gi old new : Nat) (s : State) : State :=
  let hit (r : RelocUnit) : Bool := r.old == old && r.new == new
  let ended (c : Collect) : Bool := c.next.isNone && c.commit.isNone && c.batch.isEmpty
  let out (c : Collect) : Collect := { c with batch := c.batch.filter fun r => !hit r }
  let mine := (s.group gi).collects.filter fun c => c.batch.any hit
  let s1 := dropPlaces gi [new] (s.modGroup gi fun g => { g with collects := g.collects.map out })
  refreshHealth gi ((mine.map out).foldl (fun s c => if ended c then nextTodo gi c s else s) s1)

/-- The next patrol buffer outcome of a stripe: R205 is decided by SKIM_STRIPE_COMPARE. -/
def skimResult (gi band q : Nat) (f : SkimWork → SkimWork) (s : State) : State :=
  s.modGroup gi fun g => { g with skim := updWhere (fun w => w.band == band && w.q == q) f g.skim }

/-- A rebuilt chunk is complete when its four units are in staging: it is programmed on the target (R261). -/
def rebuiltUnit (gi band q : Nat) (s : State) : State :=
  let mine (u : Nat) (b : Buf) : Bool := b.use == .rebuild gi band q u && b.st == .drain
  match (s.flash.bufs.find? (mine 0)).map fun b => b.place.member with
  | none => s
  | some m =>
    let srcs := (List.range 4).filterMap fun u => (s.flash.bufs.find? (mine u)).map fun b => b.blk + 131072
    if srcs.length = 4 then
      let g := s.group gi
      let (blk, pos) := (g.band band).blockAt m (g.dieOf q) (g.rowOf q)
      enqueue { bay := g.bayOf m, die := g.dieOf q, opc := 0x10, qcls := 2, block := blk, page := 4 * pos, src := srcs,
                use := .rebuilt gi band q m } s
    else s

/-- A unit read for R249 is decided: one that failed is lost with cause 3 while the map names it; the mount ends with the
last of them. -/
def replayDone (gi gua : Nat) (ok : Bool) (s : State) : State :=
  if (s.group gi).replay.any fun r => r.1 == gua then
    let s1 := s.modGroup gi fun g => { g with replay := g.replay.filter fun r => r.1 != gua }
    let s2 := if ok || !s1.validAt gi gua then s1 else tellLost gi (loseUnit gi gua 3 s1)
    mountDone gi s2
  else s

/-- A unit could not be had by either way (R112, R202, R249, R265). -/
def unitFailed (blk : Nat) (s : State) : State :=
  match s.buf? blk with
  | none => s
  | some b =>
    let s1 := s.freeBuf blk
    match b.use with
    | .host c i => failLost c i (losePlace b.place 3 s1)
    | .rmw c _ => failCmd c Sc.unrecovered true 1 (losePlace b.place 3 s1)
    | .reloc g old new => abandonCopy g old new (losePlace b.place 3 s1)
    | .rebuild g band q _ =>
      let bad := b.bad.getD b.place.member
      let s2 := [b.place.member, bad].foldl (fun s m =>
        match (s.group g).guaOf { b.place with member := m } with
        | some gua => if s.validAt g gua then loseUnit g gua 2 s else s
        | none => s) s1
      let s3 := s2.modFlash fun f => { f with bufs := f.bufs ++ [{ b with st := .drain, unit := Unit16.filler }] }
      rebuiltUnit g band q (relocate g band ((s3.group g).stripeUnits band q) (tellLost g s3))
    | .skimData g band q u => skimResult g band q (fun w => { w with failed := (b.bad.getD 99, u) :: w.failed }) s1
    | .skimParity g band q u =>
      skimResult g band q (fun w => { w with failed := (b.place.member, u) :: w.failed }) s1
    | .skimTag g band q m u =>
      skimResult g band q (fun w => { w with tags := (m, u, 2) :: w.tags }) (losePlace b.place 3 s1)
    | .replay g gua => replayDone g gua false s1

/-- A failed read is rescued once, the other way (R112, R121): a direct read by reconstruction, a reconstruction by a direct read of its
own die, under the suspend rules. A unit that die parity could not give is rebuilt from its stripe first (R161), and a patrol comparison
takes the failure as its outcome (R205). -/
def rescue (blk : Nat) (s : State) : State :=
  match s.buf? blk with
  | none => s
  | some b =>
    let g := s.group b.place.g
    let patrol := match b.use with | .skimData _ _ _ _ | .skimParity _ _ _ _ => true | _ => false
    if b.rescued || patrol then unitFailed blk s
    else if b.how = .die then reconstruct blk (s.modBuf blk fun b => { b with how := .stripe, draining := false })
    else
      let s2 := s.modBuf blk fun b => { b with rescued := true, draining := false }
      if b.xorExp = 0 then if g.canRebuild b.place then reconstruct blk s2 else unitFailed blk s2
      else if g.currentAt b.place.member b.place.band b.place.q && !(g.member b.place.member).dead.contains (g.dieOf b.place.q)
      then
        readOwn blk (s2.modFlash fun f => { f with ctrs := { f.ctrs with xorRescue := f.ctrs.xorRescue + flag b.xorFail 0 } })
      else unitFailed blk s2

/-- A unit needs its tag checked before it is used: host, RMW, patrol and mount reads; relocation and rebuild never pass
the cipher engine (R112, R114). -/
def BufFor.checked : BufFor → Bool
  | .reloc _ _ _ | .rebuild _ _ _ _ | .skimData _ _ _ _ | .skimParity _ _ _ _ => false
  | _ => true

/-- A unit that needs no check has landed: it moves on at once (R111, R114, R202). -/
def landedUnchecked (blk : Nat) (s : State) : State :=
  match s.buf? blk with
  | none => s
  | some b =>
    match b.use with
    | .reloc g _ new => landCopy g new (131072 + blk) (s.modBuf blk fun b => { b with st := .drain })
    | .rebuild g band q _ => rebuiltUnit g band q (s.modBuf blk fun b => { b with st := .drain })
    | .skimData g band q u =>
      (skimResult g band q (fun w => { w with data := upd w.data u fun _ => some b.unit }) s).freeBuf blk
    | .skimParity g band q u =>
      (skimResult g band q (fun w => { w with parity := upd w.parity u fun _ => some b.unit }) s).freeBuf blk
    | _ => s

/-- A unit whose data and tag are all present is LANDED (R111, R115); it leaves that state at once, for its check where it needs one. -/
def landed (blk : Nat) (s : State) : State :=
  match s.buf? blk with
  | none => s
  | some b =>
    if b.st = .orphan then s.freeBuf blk
    else
      let s1 := s.modBuf blk fun b => { b with st := .landed }
      if b.use.checked then s1.modBuf blk fun b => { b with st := .check } else landedUnchecked blk s1

/-- TAG_CHECK_DONE (R112): the unit's tag is checked; it moves on, or is rescued. A request of a command that the cipher engine
refuses ends the command (R369). -/
def tagCheckDone (blk : Nat) (s : State) : State :=
  match s.buf? blk with
  | none => s
  | some b =>
    if b.st != .check then s
    else
      let req := match b.use with
        | .host c _ | .rmw c _ =>
          if b.plain || b.unit == Unit16.filler then 0
          else match s.cmd? c with | some x => s.unitStatus x.gens b.nsx true | none => 0
        | _ => 0
      let stampOk := match b.use with
        | .replay g gua => (s.group g).replay.any fun r => r.1 == gua && r.2.1 == b.unit.wseq
        | _ => true
      if req ≠ 0 then
        match b.use with
        | .host c i => keyFail c req (match s.cmd? c with | some x => (nth x.units i).ext | none => 0) (s.freeBuf blk)
        | .rmw c _ => keyFail c req 0 (s.freeBuf blk)
        | _ => s
      else if b.plain || (s.tagPasses b.nsx b.unitNo b.unit && stampOk) then
        let s1 := (if b.plain then s else useNsKeys b.use.cipherQ b.nsx true s).modBuf blk fun b => { b with tagOk := true }
        let plain := if b.plain then b.unit.data else s.cipherUnit true b.nsx b.unitNo b.unit.data
        match b.use with
        | .host c i => hostUnitReady c i blk plain s1
        | .rmw c u => rmwReady c u blk plain s1
        | .skimTag g band q m u => skimResult g band q (fun w => { w with tags := (m, u, if b.rescued then 1 else 0) :: w.tags }) (s1.freeBuf blk)
        | .replay g gua => replayDone g gua true (s1.freeBuf blk)
        | _ => s1
      else
        let s0 := if s.encrypted b.nsx then (useNsKeys b.use.cipherQ b.nsx true s).modCiph fun c =>
          { c with ctrs := { c.ctrs with tagFail := c.ctrs.tagFail + 1 } } else s
        let s1 := s0.modFlash fun f => { f with ctrs := { f.ctrs with tagFail := f.ctrs.tagFail + 1 } }
        rescue blk s1

def execTagCheckDone (blk : Nat) (s : State) : Host.Outcome State Fault Refusal := .next (tagCheckDone blk s)

/-! ### Bay and peer writes (R117, R118, R141) -/

/-- A write that names no live slot: of a peer's response, counted apart (R123); of a bay, counted, and told once in each second in which
the bay passes 1,000 (R118, R141). -/
def lateData (bay : Nat) (s : State) : State :=
  if 24 ≤ bay then s.modFlash fun f => { f with ctrs := { f.ctrs with peerLate := f.ctrs.peerLate + 1 } }
  else
    let s1 := s.modFlash fun f => { f with ctrs := { f.ctrs with lateData := f.ctrs.lateData + 1 } }
    let sec := s.micros / 1000000
    let b := s1.bay bay
    let n := if b.lateWin = sec then b.lateCnt + 1 else 1
    let told := b.lateWin = sec && b.lateTold
    let s2 := s1.modBay bay fun b => { b with lateWin := sec, lateCnt := n, lateTold := told || decide (1000 < n) }
    if 1000 < n && !told then raise Code.evStageLateData Kind.bay bay [] s2 else s2

/-- A malformed write: dropped, ERR set (R118). -/
def malformed (tag : Nat) (s : State) : State :=
  (s.modFlash fun f => { f with ctrs := { f.ctrs with malformed := f.ctrs.malformed + 1 } }).modOp tag fun o =>
    { o with err := true }

/-- Bytes at an offset of a unit written in place, or XORed. -/
def putBytes (xor : Bool) (d off : Nat) (bs : List Byte) : Nat :=
  let v := leNat bs * 2 ^ (8 * off)
  if xor then d ^^^ v else d - (bits d (8 * off) (8 * bs.length)) * 2 ^ (8 * off) + v

/-- A write TLP through a landing slot (R118). `tagTlp` says which window it came through; `off` is its offset there. -/
def landWrite (bay tag gen : Nat) (tagTlp : Bool) (off : Nat) (data : List Byte) (s : State) : State :=
  match s.op? tag with
  | none => lateData bay s
  | some o =>
    if !o.live || o.gen != gen then lateData bay s
    else if tagTlp then
      if off ≠ 0 || data.length ≠ 16 || o.tagged then malformed tag s
      else
        let w := leAt data 0 8
        let c := leAt data 8 8
        let put (b : Buf) : Buf :=
          { b with unit := if o.xor then { b.unit with wseq := b.unit.wseq ^^^ w, check := b.unit.check ^^^ c }
                           else { b.unit with wseq := w, check := c } }
        (s.modBuf o.buf put).modOp tag fun o => { o with tagged := true }
    else if 16384 < off + data.length || 16384 < o.bytes + data.length then malformed tag s
    else
      (s.modBuf o.buf fun b => { b with unit := { b.unit with data := putBytes o.xor b.unit.data off data } }).modOp tag
        fun o => { o with bytes := o.bytes + data.length }

/-- BAY_WRITE_TLP (R117, R118): decoded from its address alone; outside both windows it is dropped and counted. -/
def bayWriteTlp (bay addr : Nat) (data : List Byte) (s : State) : State :=
  let d := addr - 0x0000010000000000
  let t := addr - 0x0000020000000000
  if 0x0000010000000000 ≤ addr && d < 2 ^ 38 then
    landWrite bay (bits d 14 18) (bits d 32 6) false (bits d 0 14) data s
  else if 0x0000020000000000 ≤ addr && t < 2 ^ 28 then
    landWrite bay (bits t 4 18) (bits t 22 6) true (bits t 0 4) data s
  else s.modBay bay fun b => { b with badWrite := b.badWrite + 1 }

def execBayWriteTlp (bay addr : Nat) (data : List Byte) (s : State) : Host.Outcome State Fault Refusal :=
  .next (bayWriteTlp bay addr data s)

/-! ### Slots, tags, Hawk and waiting requests -/

/-- SLOT_REVOKE_DRAIN (R121): the TLPs accepted for a revoked slot have drained; a buffer that waited for that is
released or read anew. -/
def slotRevokeDrain (blk : Nat) (s : State) : State :=
  match s.buf? blk with
  | none => s
  | some b =>
    if !b.draining then s
    else if b.st = .orphan then s.freeBuf blk
    else rescue blk (s.modBuf blk fun b => { b with draining := false })

def execSlotRevokeDrain (blk : Nat) (s : State) : Host.Outcome State Fault Refusal := .next (slotRevokeDrain blk s)

/-- TAG_QUARANTINE_EXPIRY (R120). -/
def tagQuarantineExpiry (tag : Nat) (s : State) : State :=
  match s.op? tag with
  | some o => if o.st = .quarantine then s.freeOp tag else s
  | none => s

def execTagQuarantineExpiry (tag : Nat) (s : State) : Host.Outcome State Fault Refusal := .next (tagQuarantineExpiry tag s)

/-- STAGE_BUFFER_GRANT (R108). -/
def execStageBufferGrant (s : State) : Host.Outcome State Fault Refusal := .next (grantOne s)

/-- STAGE_STARVE_TIMEOUT (R108, R141): a HOST request has waited more than one frame. -/
def stageStarveTimeout (s : State) : State :=
  let starved (w : StageReq) : Bool := w.cls == 0 && !w.told && decide (w.since + s.period < s.nowNs)
  if s.flash.waits.any starved then
    let s1 := s.modFlash fun f => { f with waits := updWhere starved (fun w => { w with told := true }) f.waits }
    if s.passed s.flash.starvedTold 1000000 then
      raise Code.evStageStarved Kind.none 0 [] (s1.modFlash fun f => { f with starvedTold := some s.clock })
    else s1
  else s

def execStageStarveTimeout (s : State) : Host.Outcome State Fault Refusal := .next (stageStarveTimeout s)

/-- HAWK_DECAY (R126): `hawk.admit.decay_frames` frame boundaries have been counted, and every counter and hit count is halved. -/
def hawkDecay (s : State) : State :=
  if s.flash.decayFrames < s.paramN 0x2112 then s
  else
    let kept (a : List (Nat × Nat)) : List (Nat × Nat) := (a.map fun p => (p.1, p.2 / 2)).filter fun p => p.2 != 0
    s.modFlash fun f => { f with admits := kept f.admits, hawk := f.hawk.map fun e => { e with hits := e.hits / 2 }, decayFrames := 0 }

def execHawkDecay (s : State) : Host.Outcome State Fault Refusal := .next (hawkDecay s)

/-- HAWK_PIN_RELEASE (R130, R137): the copy of a host read or the response to a peer ends; a removed entry's block is free on the last
pin. -/
def hawkPinRelease (blk : Nat) (peer : Bool) (s : State) : State :=
  let out (e : HawkEntry) : HawkEntry :=
    if peer then { e with pins := e.pins - Nat.min 1 e.peerPins, peerPins := e.peerPins - 1 }
    else if e.peerPins < e.pins then { e with pins := e.pins - 1 } else e
  let hawk := updWhere (fun e => e.blk == blk) out s.flash.hawk
  s.modFlash fun f => { f with hawk := hawk.filter fun e => !(e.removed && e.pins == 0) }

def execHawkPinRelease (use : Payload.HawkUse) (s : State) : Host.Outcome State Fault Refusal :=
  .next (hawkPinRelease use.blk use.peer s)

/-! ### Peer reads (R134 to R138) -/

/-- A peer read whose hold passes without a response: 16 of one peer within a second are a fault of class 4 (R318). -/
def peerSilent (src : Nat) (s : State) : State :=
  let recent := (s.flash.peerSilentAt.filter fun p => decide (s.clock < p.at_ + 1600000000)) ++ [{ addr := src, at_ := s.clock }]
  let s1 := s.modFlash fun f => { f with peerSilentAt := recent }
  if 16 ≤ (recent.filter fun p => p.addr == src).length then reportFault src 4 s1 else s1

/-- A peer has answered, be it late: its requests are not silent, and the fault of class 4 clears unless peer reads to it have stopped
(R318; DEDUCED, log 132). -/
def peerHeard (src : Nat) (s : State) : State :=
  let s1 := s.modFlash fun f => { f with peerSilentAt := f.peerSilentAt.filter fun p => p.addr != src }
  if s.flash.peerStopped.contains src then s1 else clearFault src 4 s1

/-- PEER_HOLD_EXPIRY (R134): the unit's flash read may be dispatched. -/
def peerHoldExpiry (blk : Nat) (s : State) : State :=
  match s.buf? blk with
  | none => s
  | some b =>
    if b.st != .bound || b.peerTag.isNone then s
    else
      let s1 := s.modBuf blk fun b => { b with peerTag := none }
      if b.frags.isEmpty then peerSilent b.peerSrc s1 else s1

def execPeerHoldExpiry (blk : Nat) (s : State) : Host.Outcome State Fault Refusal := .next (peerHoldExpiry blk s)

/-- A peer-read response of this controller (R136). -/
def peerRsp (req status frag u : Nat) (data : List Byte) : List Byte :=
  leBytes 4 req ++ leBytes 1 status ++ leBytes 1 frag ++ leBytes 2 0 ++ leBytes 8 u ++
    leBytes 8 (if data = [] then 0 else crc64 data) ++ leBytes 8 0 ++ data

/-- Responses of its own in transmission: each holds a pin (R137). -/
def State.peerOut (s : State) : Nat := (s.flash.hawk.map HawkEntry.peerPins).sum

/-- PEER_READ_REQ (R137): answered from this controller's own Hawk only. The entry of a HIT stays pinned until
HAWK_PIN_RELEASE says that the second fragment has left. -/
def peerReadReq (src : Nat) (body : List Byte) (s : State) : State :=
  let req := leAt body 0 4
  let nsid := leAt body 4 4
  let u := leAt body 8 5
  let send (st : Nat) (s : State) : State := scrimSend src 0x32 (req % 2 ^ 18) 0 (peerRsp req st 0 u []) s
  match s.ns? (nsid - 1) with
  | none => send 3 s
  | some n =>
    if nsid = 0 || !n.peerServe || !(s.role n.group).owns || !(n.sources.any fun p => p.1 == src) then send 3 s
    else if leAt body 16 8 ≠ n.content then send 2 s
    else match s.hawk? n.nsx u with
      | none => send 1 s
      | some e =>
        if s.paramN 0x2122 ≤ s.peerOut then send 4 s
        else
          let touch (y : HawkEntry) : HawkEntry :=
            { y with hits := Nat.min 255 (y.hits + 1), frame := s.tregs.frames, pins := y.pins + 1, peerPins := y.peerPins + 1 }
          let s1 := s.modFlash fun f => { f with hawk := updWhere (fun y => y.blk == e.blk) touch f.hawk }
          let d := unitBytes e.data
          let f := req % 2 ^ 18
          scrimSend src 0x32 f 0 (peerRsp req 0 1 u (d.drop 8192)) (scrimSend src 0x32 f 0 (peerRsp req 0 0 u (d.take 8192)) s1)

def execPeerReadReq (src : Nat) (body : List Byte) (s : State) : Host.Outcome State Fault Refusal :=
  .next (peerReadReq src body s)

/-- A bad response of a peer is counted; more than 16 CRC mismatches in a minute stop peer reads to it (R138). -/
def peerBad (src : Nat) (crc : Bool) (s : State) : State :=
  let s1 := s.modFlash fun f => { f with ctrs := { f.ctrs with peerBad := f.ctrs.peerBad + 1 } }
  if !crc then s1
  else
    let recent := (s1.flash.peerBadAt.filter fun p => decide (s.clock < p.at_ + 96000000000)) ++ [{ addr := src, at_ := s.clock }]
    let s2 := s1.modFlash fun f => { f with peerBadAt := recent }
    if 16 < (recent.filter fun p => p.addr == src).length && !s.flash.peerStopped.contains src then
      reportFault src 4 (raise Code.evHawkPeerCorrupt Kind.addr src []
        (s2.modFlash fun f => { f with peerStopped := src :: f.peerStopped }))
    else s2

/-- PEER_READ_RSP (R134, R136, R138): a fragment lands through the slot that its request named, and the unit with both of them cancels its
flash read. An answer other than HIT, or with a wrong CRC, revokes the slot, and the flash read may be dispatched. -/
def peerReadRsp (src : Nat) (body : List Byte) (s : State) : State :=
  let tag := leAt body 0 4 % 2 ^ 18
  let gen := bits (leAt body 0 4) 18 6
  match s.op? tag with
  | none => lateData 255 s
  | some o =>
    if !o.live || o.gen != gen || o.opc != opcPeer then lateData 255 s
    else
      let b := (s.buf? o.buf).getD {}
      let frag := leAt body 5 1
      if leAt body 8 8 ≠ b.unitNo then peerBad src false s
      else if leAt body 4 1 ≠ 0 then revokePeer o.buf s
      else
        let data := body.drop 32
        if crc64 data ≠ leAt body 16 8 || data.length ≠ 8192 then revokePeer o.buf (peerBad src true s)
        else
          let s1 := landWrite 255 tag gen false (frag * 8192) data s
          let bytes := ((s1.op? tag).map FlashOp.bytes).getD 0
          let s2 := if bytes = o.bytes then s1 else s1.modBuf o.buf fun b => { b with frags := (frag :: b.frags).eraseDups }
          let got := ((s2.buf? o.buf).getD {}).frags
          if bytes = 16384 && got.contains 0 && got.contains 1 then
            let queued (x : FlashOp) : Bool := (match x.use with | .landing k => k == o.buf | _ => false) && x.st == .queued
            let s3 := (s2.freeOp tag).modFlash fun f => { f with
              ops := f.ops.filter fun x => !queued x, ctrs := { f.ctrs with peerHit := f.ctrs.peerHit + 1 } }
            s3.modBuf o.buf fun b => { b with st := .check, plain := true, tagOk := true, peerTag := none, xorExp := 0 }
          else s2

def execPeerReadRsp (src : Nat) (body : List Byte) (s : State) : Host.Outcome State Fault Refusal :=
  .next (peerReadRsp src body (peerHeard src s))

end Sys2Proof.Machine
end

