-- ==== Sys2Proof/Machine/FlashCpl.lean ====
section
/-! DEFINITION. Completions of flash operations, timers and the source window (R119, R121, R161 to R163, R184 to R188,
R203, R204, R217 to R224, R261). -/

namespace Sys2Proof.Machine

/-! ### Taking a completion (R219, R220, R224) -/

/-- The fields of a 16-byte completion entry (R218). -/
def cplOf (b : List Byte) : Payload.Cpl :=
  let d (i : Nat) : Nat := leAt b (4 * i) 4
  { tag := bits (d 0) 0 18, gen := bits (d 0) 18 6, opc := bits (d 0) 24 8, status := bits (d 1) 0 8, retry := (d 1).testBit 8,
    phase := (d 1).testBit 15, cbits := bits (d 2) 0 16, dstate := bits (d 2) 16 3, duration := bits (d 3) 0 24, epoch := d 3 }

/-- The entry is the next of its bay's completion ring: it has the phase that the ring's turn calls for (R213, R218). -/
def State.fresh (s : State) (bay : Nat) (entry : List Byte) : Bool :=
  entry.length == 16 && (cplOf entry).phase == (s.bay bay).phase

/-- A completion entry has been consumed: the phase flips as the ring wraps (R213), and MOD_CQ_HEAD is written after a batch, or at once
when the ring is more than half full (R219). -/
def consumeEntry (bay : Nat) (s : State) : State :=
  let n := (s.bay bay).consumed + 1
  let head := ((s.bay bay).cqHead + 1) % 4096
  let s1 := s.modBay bay fun b => { b with cqHead := head, phase := if head = 0 then !b.phase else b.phase }
  if s.paramN 0x9102 ≤ n || 2048 < n then (s1.modBay bay fun b => { b with consumed := 0 }).emit (.bayReg bay 0x1024 head)
  else s1.modBay bay fun b => { b with consumed := n }

/-- The operation that a current completion ends: its context is OUTSTANDING on this bay with this GEN (R224). -/
def State.current (s : State) (bay opc : Nat) (c : Payload.Cpl) : Option FlashOp :=
  match s.op? c.tag with
  | some o => if o.st = .outstanding && o.bay == bay && o.gen == c.gen && o.opc == opc && c.opc == opc then some o else none
  | none => none

/-- 16 INVALID completions within one second fail the module (R220, R223). -/
def countInvalid (bay : Nat) (s : State) : State :=
  let recent := ((s.bay bay).invalidAt.filter fun t => decide (s.clock < t + 1600000000)) ++ [s.clock]
  let s1 := s.modBay bay fun b => { b with invalid := b.invalid + 1, invalidAt := recent }
  if 16 ≤ recent.length then moduleFailed bay s1 else s1

/-- A completion that is not current is discarded and counted (R123, R224). -/
def lateCpl (bay : Nat) (s : State) : State := s.modBay bay fun b => { b with lateCpl := b.lateCpl + 1 }

/-- A completion is consumed; a current one frees its context, or quarantines the tag of a revoked slot (R120), and its
status has the effects that R220 gives for any operation. `f` is the operation's own effect; a program, erase or control of a member that
has failed with it has none (R227). -/
def takeCpl (bay opc : Nat) (entry : List Byte) (f : Payload.Cpl → FlashOp → State → State) (s : State) : State :=
  let c := cplOf entry
  if !s.fresh bay entry then s
  else
    let s0 := consumeEntry bay s
    match s0.current bay opc c with
    | none => lateCpl bay s0
    | some o =>
      let s1 := (if !o.live && opc = 0x01 then quarantine o.tag s0 else s0.freeOp o.tag).modBay bay fun b => { b with timeoutsRow := 0 }
      let s2 := match s1.bayMember bay with
        | none => s1
        | some (gi, m) =>
          if c.status = 4 && opc ≤ 0x31 then
            fence gi (s1.modBay bay fun b => { b with evt := setBit b.evt 2, fencedCnt := b.fencedCnt + 1 })
          else if c.status = 7 && opc != 0x40 && opc != 0x60 then dieDead gi m o.die s1
          else s1
      let gone := match s2.bayMember bay with | some (gi, m) => !(s2.group gi).presentMember m | none => false
      let s3 := if gone && opc != 0x01 then s2 else f c o s2
      if c.status = 5 then countInvalid bay s3 else s3

/-! ### Refresh and read exposure (R203, R204) -/

/-- A block is refreshed: the valid units of every stripe with a chunk on it are relocated (R203). -/
def refreshBlock (p : Place) (s : State) : State :=
  let g := s.group p.g
  let st := (g.band p.band).st
  let k := g.dieOf p.q
  let guas := (g.owners.filter fun o => guaBand o.gua == p.band && g.dieOf (g.stripeOf (guaDu o.gua)) == k).map Owner.gua
  let todo := guas.filter fun a => s.validAt p.g a && g.unitDone a && !g.isLost a && !g.copying.contains a
  if !(st == .closed || st == .opened || st == .closing) || todo = [] then s
  else
    let s1 := (relocate p.g p.band todo s).modCtrs p.g fun c => { c with skimRefresh := c.skimRefresh + 1 }
    if s1.passed (s1.group p.g).refreshTold 60000000 then
      raise Code.evSkimRefresh Kind.group p.g [] (s1.modGroup p.g fun g => { g with refreshTold := some s.clock })
    else s1

/-- Skim reads a block's valid units, ahead of its pass (R204): each read is judged under R203. -/
def readExposed (gi m die block : Nat) (s : State) : State :=
  let g := s.group gi
  let hit (o : Owner) : Bool :=
    let p := g.placeOf gi o.gua
    p.member == m && g.dieOf p.q == die && (g.blockPage p).1 == block && s.mapNames gi o
  (g.owners.filter hit).foldl (fun s o =>
    let p := g.placeOf gi o.gua
    requestBuf { cls := 4, use := .skimTag gi p.band p.q p.member p.u, place := p, nsx := o.nsx, unitNo := o.unit } s) s

/-- The read-exposure counter of a block gains 1 with probability 1/512, by the die's own sequence, which the spec leaves
open (log 3, R204). -/
def exposeBlock (gi m die block : Nat) (s : State) : State :=
  if Config.freeNat s.free % 512 ≠ 0 then s.drew
  else
    let isIt (e : Exposure) : Bool := e.member == m && e.die == die && e.block == block
    let n := (((s.group gi).exposure.find? isIt).map Exposure.count).getD 0
    let s1 := s.drew.modGroup gi fun g => { g with
      exposure := { member := m, die, block, count := Nat.min 255 (n + 1) } :: g.exposure.filter fun e => !isIt e }
    if n < 255 && n + 1 = ceilDiv (s.paramN 0x4013) 512 && s.paramN 0x4010 = 1 then readExposed gi m die block s1 else s1

/-- A sense's corrected-bit count is over the refresh share, or it needed read retry (R203). -/
def worn (bay : Nat) (c : Payload.Cpl) (s : State) : Bool :=
  c.retry || decide (s.paramN 0x4012 * (s.desc bay).eccCap < c.cbits * 100)

/-! ### READ (R119, R121, R122) -/

/-- The effect of a READ completion on its buffer. The completion of a revoked slot is for its die's accounting only (R121). A failed
contribution revokes the others, a failed direct read is rescued (R119, R121). -/
def readEnds (c : Payload.Cpl) (o : FlashOp) (s : State) : State :=
  let s1 := s.modDie o.bay o.die fun d => { d with reading := none }
  let s2 := match s.bayMember o.bay with
    | some (gi, m) => exposeBlock gi m o.die o.block s1
    | none => s1
  match o.use with
  | .landing blk =>
    match s2.buf? blk with
    | none => s2
    | some b =>
      let more := s2.flash.ops.any fun x => (match x.use with | .landing y => y == blk | _ => false) && x.st == .outstanding && x.live
      if !o.live then s2
      else if b.st = .orphan then if more then s2 else s2.freeBuf blk
      else if c.status = 0 && o.bytes = 16384 && o.tagged && !o.err then
        let s3 := if worn o.bay c s2 then
            refreshBlock (match s2.bayMember o.bay with | some (_, m) => { b.place with member := m } | none => b.place) s2
          else s2
        if b.xorExp = 0 then landed blk s3
        else
          let s4 := s3.modBuf blk fun b => { b with xorGot := b.xorGot + 1 }
          if b.xorGot + 1 = b.xorExp then landed blk s4 else s4
      else
        let s3 := s2.modBuf blk fun b => { b with bad := (s2.bayMember o.bay).map Prod.snd }
        if b.xorExp = 0 then rescue blk s3 else slotsRevoked blk s3
  | _ => s2

def readCpl (bay : Nat) (entry : List Byte) (s : State) : State := takeCpl bay 0x01 entry readEnds s

def execReadCpl (bay : Nat) (entry : List Byte) (s : State) : Host.Outcome State Fault Refusal := .next (readCpl bay entry s)

/-! ### Rebuild, stripe by stripe (R261) -/

/-- One stripe's chunk is rebuilt: its units' buffers are asked for. A data chunk that was skipped for want of the member is filler, from
write staging (R234, R239, R261). -/
def rebuildStripe (gi m band q : Nat) (s : State) : State :=
  let g := s.group gi
  if (g.band band).holes.contains (q, m) && g.roleOf q m ≠ g.w - 1 then
    let (src, s1) := chunkSources gi [] 0 s
    let (blk, pos) := (g.band band).blockAt m (g.dieOf q) (g.rowOf q)
    enqueue { bay := g.bayOf m, die := g.dieOf q, opc := 0x10, qcls := 2, block := blk, page := 4 * pos, src,
              use := .rebuilt gi band q m } s1
  else
    (List.range 4).foldl (fun s u =>
      requestBuf { cls := 3, use := .rebuild gi band q u, place := { g := gi, band, q, member := m, u }, how := .stripe } s) s

/-- Rows of a band at a die index that a target has to rebuild. -/
def Group.rowsUsed (g : Group) (m band k : Nat) : Nat :=
  ((List.range g.positions).filter fun r => !g.formedOn m band (r * g.dies + k) &&
    decide ((r * g.dies + k) * g.perStripe < (g.band band).wp) && !(g.band band).skip.contains k).length

/-- Rows rebuilt of a band at a die index (R261). -/
def Group.rowsDone (g : Group) (m band k : Nat) : Nat :=
  (((g.member m).rows.find? fun r => r.1 == band && r.2.1 == k).map fun r => r.2.2).getD 0

/-- The first row from one on that a target has to rebuild at a die index: a stripe that a second failure has lost is passed over (R264). -/
def Group.nextRow (g : Group) (m band k : Nat) : Nat → Nat → Nat
  | 0, n => n
  | i + 1, n => if n < g.rowsUsed m band k && g.stripeLost band (n * g.dies + k) then Group.nextRow g m band k i (n + 1) else n

/-- The rows rebuilt at a die index become `n`; the next row follows. A band that is left until it is FREE makes no progress (R261). -/
def rowRebuilt (gi m band k n : Nat) (s : State) : State :=
  let g := s.group gi
  if !(g.member m).active.contains band then s
  else
    let next := g.nextRow m band k g.positions n
    let put (x : Member) : Member :=
      { x with rows := (band, k, next) :: x.rows.filter fun r => !(r.1 == band && r.2.1 == k) }
    let s1 := s.modGroup gi fun g => g.modMember m put
    if next < g.rowsUsed m band k then rebuildStripe gi m band (next * g.dies + k) s1 else s1

/-- A rebuilt chunk could not be programmed or verified: a spare takes it and every later one, and it is rebuilt again (R162, R261). With no
spare left the stripes at its die index are moved away. -/
def rebuiltFailed (gi band q m : Nat) (s : State) : State :=
  let g := s.group gi
  let k := g.dieOf q
  let (old, _) := (g.band band).blockAt m k (g.rowOf q)
  match takeSpare gi band m k (g.rowOf q) false s with
  | (some blk, s1) =>
    let s2 := s1.modGroup gi fun g => g.modBand band fun b => { b with retire := (m, k, old) :: b.retire }
    rebuildStripe gi m band q (queueErase gi m k blk 2 (.subst band) (raise Code.evFtlBlockRetired Kind.group gi [m, k, old] s2))
  | (none, s1) => leaveDie gi band k s1

/-! ### VERIFY (R161) -/

/-- A verify senses the four pages of its chunk (R204, R216). -/
def exposeChunk (o : FlashOp) (s : State) : State :=
  match s.bayMember o.bay with
  | some (gi, m) => (List.range 4).foldl (fun s _ => exposeBlock gi m o.die o.block s) s
  | none => s

/-- The effect of a VERIFY completion, by what it verified (R161, R162, R203, R261). -/
def verifyEnds (c : Payload.Cpl) (o : FlashOp) (s : State) : State :=
  let s1 := exposeChunk o (s.modDie o.bay o.die fun d => { d with reading := none })
  let ok := c.status = 0
  let judge (p : Place) (s : State) : State := if ok && worn o.bay c s then refreshBlock p s else s
  if o.dropped || c.status = 4 then s1
  else match o.use with
    | .chunk g b q m =>
      if ok then judge { g, band := b, q, member := m } (chunkVerified g b q m o.src s1) else chunkFailed g b q m o.src s1
    | .sweep g b q m => mountDone g (judge { g, band := b, q, member := m } (sweepVerified g b q m ok s1))
    | .scan g b m row =>
      let k := o.die
      mountDone g (scanDone g b (if ok then s1.modGroup g fun g => g.modBand b fun x => { x with tops := (m, k, row + 1) :: x.tops }
        else scanFrom g b m k row s1))
    | .dieParity g b m row =>
      if ok then (cleanSlots o.src s1).modGroup g fun g => g.modBand b fun x => { x with parityRows := (m, row) :: x.parityRows }
      else areaFailed g b m o.die o.block o.src s1
    | .rebuilt g b q m =>
      let s2 := cleanSlots (o.src.filter (· < 131072)) s1
      if ok then judge { g, band := b, q, member := m } (rowRebuilt g m b ((s.group g).dieOf q) ((s.group g).rowOf q + 1) s2)
      else rebuiltFailed g b q m s2
    | _ => s1

def verifyCpl (bay : Nat) (entry : List Byte) (s : State) : State := takeCpl bay 0x02 entry verifyEnds s

def execVerifyCpl (bay : Nat) (entry : List Byte) (s : State) : Host.Outcome State Fault Refusal := .next (verifyCpl bay entry s)

/-! ### PROGRAM (R162, R220) -/

/-- A die's program or erase is over (R183). -/
def dieFree (o : FlashOp) (s : State) : State :=
  s.modDie o.bay o.die fun d => { d with op := none, held := false, suspAt := none, unknown := false, reads := 0, overrun := false }

/-- A program failed (R162, R170, R261). A member's anchor block that fails is retired, and the checkpoint goes on without it. -/
def programBad (o : FlashOp) (s : State) : State :=
  match o.use with
  | .chunk g b q m => chunkFailed g b q m o.src s
  | .dieParity g b m _ => areaFailed g b m o.die o.block o.src s
  | .rebuilt g b q m => rebuiltFailed g b q m (cleanSlots (o.src.filter (· < 131072)) s)
  | .anchor g m => anchorsDone g (retireBlock g m o.die o.block (cleanSlots o.src s))
  | _ => s

/-- The units that a program has written count (R173). -/
def countProgrammed (o : FlashOp) (s : State) : State :=
  match o.use with
  | .chunk g _ _ _ | .dieParity g _ _ _ | .rebuilt g _ _ _ | .anchor g _ =>
    s.modCtrs g fun c => { c with programmed := c.programmed + o.src.length }
  | _ => s

/-- Every source of a program is still in staging. -/
def State.sourcesHere (s : State) (o : FlashOp) : Bool :=
  o.src.all fun n => if n < 131072 then (s.slot? n).isSome else (s.buf? (n - 131072)).isSome

/-- The effect of a PROGRAM completion: the chunk's verify follows (R161); a source fault is tried once more (R220). -/
def programEnds (c : Payload.Cpl) (o : FlashOp) (s : State) : State :=
  let s1 := dieFree o s
  if o.dropped || c.status = 4 then s1
  else if c.status = 0 then
    let s2 := countProgrammed o s1
    match o.use with
    | .anchor g _ => anchorsDone g (cleanSlots o.src s2)
    | .image _ _ => cleanSlots o.src s2
    | _ => enqueue { bay := o.bay, die := o.die, opc := 0x02, qcls := 1, block := o.block, page := o.page, src := o.src,
                     use := o.use } s2
  else if c.status = 6 && !o.retried && s1.sourcesHere o then enqueue { o with st := .queued, retried := true } s1
  else programBad o s1

def programCpl (bay : Nat) (entry : List Byte) (s : State) : State := takeCpl bay 0x10 entry programEnds s

def execProgramCpl (bay : Nat) (entry : List Byte) (s : State) : Host.Outcome State Fault Refusal :=
  .next (programCpl bay entry s)

/-! ### ERASE (R163, R167, R250) -/

/-- A block's exposure counter is cleared by its erase (R204). -/
def clearExposure (gi m die block : Nat) (s : State) : State :=
  s.modGroup gi fun g => { g with exposure := g.exposure.filter fun e => !(e.member == m && e.die == die && e.block == block) }

/-- A journal set is erased when the erase of its last block has succeeded and none of its blocks is retired (R250). -/
def setErased (gi m : Nat) (second : Bool) (s : State) : State :=
  let g := s.group gi
  let blk := if second then g.topBlock - 1 else g.topBlock
  let left := s.flash.ops.any fun o => o.st != .quarantine && match o.use with | .erase g' m' (.set x) => g' == gi && m' == m && x == second | _ => false
  let bad := (g.member m).retired.any fun r => decide (1 ≤ r.1 ∧ r.1 ≤ 64) && r.2 == blk
  if left || bad then s
  else s.modGroup gi fun g => g.modMember m fun x => if second then { x with set1 := true } else { x with set0 := true }

/-- A block of a band's erase pass needs no more (R163, R167). -/
def passed (gi band m k : Nat) (s : State) : State :=
  s.modGroup gi fun g => g.modBand band fun b => { b with eraseLeft := b.eraseLeft.filter (· != (m, k)) }

/-- A position of a band has been erased. -/
def cleaned (gi band m k : Nat) (s : State) : State :=
  s.modGroup gi fun g => g.modBand band fun b => { b with clean := (m, k) :: b.clean.filter (· != (m, k)) }

/-- The parity-area block of a member leaves its band at the end of the close sweep (R161). -/
def areaGone (gi band m : Nat) (s : State) : State :=
  s.modGroup gi fun g => g.modBand band fun b => { b with subst := b.subst.filter fun e => !(e.parity && e.member == m) }

/-- A block has been erased: what it was erased for goes on (R160 to R163, R167, R242, R250, R261). The last block of a band that a target
rebuilds is recorded with ERASE_DONE. -/
def blockErased (gi m k blk : Nat) (why : EraseFor) (s : State) : State :=
  let g := s.group gi
  let more (b : Band) : Band :=
    { b with subst := updWhere (fun e => e.member == m && e.die == k && e.block == blk) (fun e => { e with erases := e.erases + 1 }) b.subst }
  match why with
  | .band band =>
    let b := g.band band
    let s1 := cleaned gi band m k (passed gi band m k s)
    if b.st = .retired then joinSpare gi m k blk (b.erasesOf m k blk + 1) s1 else bandErased gi band s1
  | .subst band | .area band => s.modGroup gi fun g => g.modBand band more
  | .parityArea band =>
    mountDone gi (sweepDone gi band (joinSpare gi m k blk ((g.band band).erasesOf m k blk + 1) (areaGone gi band m s)))
  | .set second => setErased gi m second s
  | .rebuild band =>
    let s1 := cleaned gi band m k s
    let all := (List.range g.dies).all fun d => ((s1.group gi).band band).clean.contains (m, d)
    rowRebuilt gi m band k 0 (if all && (g.member m).active.contains band then journal gi 0x07 (bodyBand band) s1 else s1)
  | .fresh _ | .anchor | .image => s

/-- A block could not be erased (R163). On a dead die there is nothing more to erase (R235). -/
def blockBad (gi m k blk qcls : Nat) (why : EraseFor) (s : State) : State :=
  let dead := ((s.group gi).member m).dead.contains k
  match why with
  | .band band => if dead then bandErased gi band (passed gi band m k s) else eraseBad gi band m k blk qcls why s
  | .fresh band | .subst band => eraseBad gi band m k blk qcls why s
  | .area band => areaEraseBad gi band m k blk s
  | .parityArea band => mountDone gi (sweepDone gi band (areaGone gi band m (retireBlock gi m k blk s)))
  | .rebuild band => if dead then s else rebuildEraseBad gi band m k blk s
  | .anchor =>
    let mine (o : FlashOp) : Bool := o.st == .queued && o.block == blk && match o.use with | .anchor g m' => g == gi && m' == m | _ => false
    let slots := ((s.flash.ops.filter mine).map FlashOp.src).flatten
    anchorsDone gi (retireBlock gi m k blk (slots.foldl State.freeSlot (s.modFlash fun f => { f with ops := f.ops.filter fun o => !mine o })))
  | .set _ => retireBlock gi m k blk s
  | .image => s

/-- The effect of an ERASE completion. -/
def eraseEnds (c : Payload.Cpl) (o : FlashOp) (s : State) : State :=
  let s1 := dieFree o s
  if o.dropped || c.status = 4 then s1
  else match o.use with
    | .erase gi m why =>
      if c.status = 0 then blockErased gi m o.die o.block why (clearExposure gi m o.die o.block s1)
      else if why = .image then
        s1.modFlash fun f => { f with ops := f.ops.filter fun x => !(x.bay == o.bay && x.die == o.die && x.block == o.block && x.st == .queued) }
      else blockBad gi m o.die o.block o.qcls why s1
    | _ => s1

def eraseCpl (bay : Nat) (entry : List Byte) (s : State) : State := takeCpl bay 0x20 entry eraseEnds s

def execEraseCpl (bay : Nat) (entry : List Byte) (s : State) : Host.Outcome State Fault Refusal := .next (eraseCpl bay entry s)

/-! ### SUSPEND, RESUME, ABORT, DIE_STATUS (R197, R200, R222 to R224) -/

/-- The die was idle after all (R220 NOTHING_SUSPENDED). -/
def dieIdle (bay die : Nat) (s : State) : State :=
  s.modDie bay die fun d => { d with op := none, held := false, suspAt := none, unknown := false }

/-- The die is busy with an unknown remaining time (R188, R223). -/
def dieUnknown (bay die : Nat) (s : State) : State :=
  s.modDie bay die fun d => { d with unknown := true, op := none, held := false, suspAt := none }

/-- The effect of a SUSPEND completion (R197, R200, R220). One that fails leaves the die as a SUSPEND that timed out does (R223). -/
def suspendEnds (c : Payload.Cpl) (o : FlashOp) (s : State) : State :=
  if c.status = 0x0A || c.status = 7 then dieIdle o.bay o.die s
  else if c.status = 4 then s
  else if c.status ≠ 0 then dieUnknown o.bay o.die s
  else
    let d := s.die o.bay o.die
    let turnEnd := match o.use with | .suspend t => t | _ => false
    let s1 := s.modDie o.bay o.die fun d => { d with suspAt := some s.micros, held := turnEnd, reads := 0 }
    match d.op with
    | some t => s1.modOp t fun x => { x with suspended := true }
    | none => s1

def suspendCpl (bay : Nat) (entry : List Byte) (s : State) : State := takeCpl bay 0x30 entry suspendEnds s

/-- The reads that the suspension serves are dispatched by DIE_DISPATCH (R197). -/
def execSuspendCpl (bay : Nat) (entry : List Byte) (s : State) : Host.Outcome State Fault Refusal := .next (suspendCpl bay entry s)

/-- The effect of a RESUME completion (R220, R223). -/
def resumeEnds (c : Payload.Cpl) (o : FlashOp) (s : State) : State :=
  if c.status = 0x0A || c.status = 7 then dieIdle o.bay o.die s
  else if c.status = 0 || c.status = 4 then s
  else dieUnknown o.bay o.die s

def resumeCpl (bay : Nat) (entry : List Byte) (s : State) : State := takeCpl bay 0x31 entry resumeEnds s

def execResumeCpl (bay : Nat) (entry : List Byte) (s : State) : Host.Outcome State Fault Refusal := .next (resumeCpl bay entry s)

/-- An operation is over without a completion: aborted or timed out. Its tag is quarantined, its slot revoked, and the
failure is handled by its class (R121, R223). -/
def opGone (o : FlashOp) (s : State) : State :=
  let s1 := quarantine o.tag s
  match o.use with
  | .landing blk =>
    let s2 := s1.modDie o.bay o.die fun d => { d with reading := none }
    if !o.live then s2 else slotsRevoked blk (s2.modBuf blk fun b => { b with bad := (s2.bayMember o.bay).map Prod.snd })
  | _ =>
    if o.dropped then s1
    else if o.opc = 0x02 then verifyEnds { status := 1 } o s1
    else if o.opc = 0x10 then programBad o s1
    else if o.opc = 0x20 then eraseEnds { status := 3 } o s1
    else s1

/-- The effect of an ABORT completion: SUCCESS ends its target; one for an operation that is over already is late (R123, R224). -/
def abortEnds (c : Payload.Cpl) (o : FlashOp) (s : State) : State :=
  let late := s.modFlash fun f => { f with ctrs := { f.ctrs with lateAbort := f.ctrs.lateAbort + 1 } }
  match o.use with
  | .abort t gen =>
    match s.op? t with
    | some x =>
      if x.st != .outstanding || x.gen != gen then late
      else if c.status = 0 then opGone x (if x.writes then dieFree x s else s)
      else s
    | none => late
  | _ => s

def abortCpl (bay : Nat) (entry : List Byte) (s : State) : State := takeCpl bay 0x40 entry abortEnds s

def execAbortCpl (bay : Nat) (entry : List Byte) (s : State) : Host.Outcome State Fault Refusal := .next (abortCpl bay entry s)

/-- What a DIE_STATUS report says of the die (R188, R223). -/
def dieReport (bay die state : Nat) (s : State) : State :=
  if state = 0 then dieIdle bay die s
  else if state = 3 then (resumeDie bay die s).modDie bay die fun d => { d with unknown := true }
  else if state = 4 then s.modDie bay die fun d => { d with unknown := false, held := true, erase := true, suspAt := some s.micros }
  else if state = 6 then
    let s1 := dieIdle bay die s
    match s1.bayMember bay with
    | some (gi, m) => dieDead gi m die s1
    | none => s1
  else s.modDie bay die fun d => { d with unknown := true }

/-- The effect of a DIE_STATUS completion (R188, R220, R223). -/
def dieStatusEnds (c : Payload.Cpl) (o : FlashOp) (s : State) : State :=
  let s1 := s.modDie o.bay o.die fun d => { d with asked := false }
  if c.status = 0 then dieReport o.bay o.die c.dstate s1
  else if c.status = 7 then dieIdle o.bay o.die s1
  else dieUnknown o.bay o.die s1

def dieStatusCpl (bay : Nat) (entry : List Byte) (s : State) : State := takeCpl bay 0x50 entry dieStatusEnds s

def execDieStatusCpl (bay : Nat) (entry : List Byte) (s : State) : Host.Outcome State Fault Refusal :=
  .next (dieStatusCpl bay entry s)

/-- DIE_STATUS_POLL (R188, R223): every 100 µs while the die is busy with an unknown remaining time. -/
def dieStatusPoll (bay die : Nat) (s : State) : State := if (s.die bay die).unknown then askDie bay die s else s

def execDieStatusPoll (bay die : Nat) (s : State) : Host.Outcome State Fault Refusal := .next (dieStatusPoll bay die s)

/-! ### Timers (R185, R186, R222, R223) -/

/-- ERASE_TURN_SUSPEND (R185, R200): every erase that runs on a die whose write turn ends is suspended, when its module can; one that is
suspended for reads already, or about to be, stays held. -/
def eraseTurnSuspend (s : State) : State :=
  (s.flash.dies.filter fun d => d.op.isSome && d.erase && !d.unknown && !d.held).foldl (fun s d =>
    match s.bayMember d.bay with
    | none => s
    | some (gi, m) =>
      if (s.group gi).busyMember d.die s.turnNow != m || !s.eraseSuspendOk d.bay (s.group gi).w then s
      else if d.suspAt.isSome then s.modDie d.bay d.die fun d => { d with held := true }
      else match s.flash.ops.find? fun o => o.bay == d.bay && o.die == d.die && o.opc == 0x30 && o.st != .quarantine with
        | some o => s.modOp o.tag fun o => { o with use := .suspend true }
        | none => submitNow { bay := d.bay, die := d.die, opc := 0x30, use := .suspend true } s) s

def execEraseTurnSuspend (s : State) : Host.Outcome State Fault Refusal := .next (eraseTurnSuspend s)

/-- PROGRAM_OVERRUN (R186, R208). -/
def programOverrun (bay die : Nat) (s : State) : State :=
  let d := s.die bay die
  if d.op.isNone || d.overrun then s
  else
    let s1 := (s.modDie bay die fun d => { d with overrun := true }).modBay bay fun b => { b with overruns := b.overruns + 1 }
    if s1.passed (s1.bay bay).overrunTold 60000000 then
      raise Code.evTurnOverrun Kind.bay bay [] (s1.modBay bay fun b => { b with overrunTold := some s.clock })
    else s1

def execProgramOverrun (bay die : Nat) (s : State) : Host.Outcome State Fault Refusal := .next (programOverrun bay die s)

/-- OP_ABORT_TIMER (R222): an ABORT goes out for an operation whose abort time has passed. -/
def opAbortTimer (tag : Nat) (s : State) : State :=
  match s.op? tag with
  | some o =>
    if o.st = .outstanding && !o.abortSent && !o.suspended && s.paramN 0x9101 = 1 &&
        (o.opc = 0x01 || o.opc = 0x02 || o.opc = 0x10 || o.opc = 0x20) then
      let s1 := (s.modOp tag fun o => { o with abortSent := true }).modBay o.bay fun b => { b with aborts := b.aborts + 1 }
      submitNow { bay := o.bay, opc := 0x40, use := .abort tag o.gen } s1
    else s
  | none => s

def execOpAbortTimer (tag : Nat) (s : State) : Host.Outcome State Fault Refusal := .next (opAbortTimer tag s)

/-- OP_TIMEOUT (R121, R223): the slot is revoked, the failure handled by class, the timeout counted and told; after a
program, erase or control of a die the die is busy with an unknown remaining time; three in a row fail the module. An EPOCH_SET that the
group still needs goes out again (DESIGN CHOICE, log 21). -/
def opTimeout (tag : Nat) (s : State) : State :=
  match s.op? tag with
  | none => s
  | some o =>
    if o.st != .outstanding || o.suspended || o.opc = opcPeer then s
    else
      let s1 := opGone o (countTimeouts o.bay 1 s)
      let s2 := if o.opc = 0x01 || o.opc = 0x02 || o.opc = 0x40 || o.opc = 0x60 then s1
        else (dieUnknown o.bay o.die s1).modDie o.bay o.die fun d => { d with asked := false }
      if 3 ≤ (s2.bay o.bay).timeoutsRow then moduleFailed o.bay s2
      else match o.use, s2.bayMember o.bay with
        | .epochSet e, some (gi, m) =>
          if (s2.group gi).epoch = e && (s2.group gi).presentMember m then setEpoch o.bay e s2 else s2
        | _, _ => s2

def execOpTimeout (tag : Nat) (s : State) : Host.Outcome State Fault Refusal := .next (opTimeout tag s)

/-! ### The source window (R114, R217) -/

/-- Data and tag of a source region, 16,400 bytes. -/
def sourceBytes (u : Unit16) : List Byte := unitBytes u.data ++ leBytes 8 u.wseq ++ leBytes 8 u.check

/-- The runs of bytes that are left when a run is taken out. -/
def takeRun (l : List (Nat × Nat)) (first past : Nat) : List (Nat × Nat) :=
  (l.map fun r => [(r.1, Nat.min r.2 first), (Nat.max r.1 past, r.2)]).flatten.filter fun r => decide (r.1 < r.2)

/-- MODULE_SOURCE_READ (R217): served within a region that an outstanding PROGRAM of the bay names, else Unsupported
Request. A staging block that the module has fetched whole is free (R114). -/
def moduleSourceRead (bay addr len : Nat) (s : State) : State :=
  let off := addr % 2 ^ 40
  let src := off / 2 ^ 15
  let at_ := off % 2 ^ 15
  let ok := addr / 2 ^ 40 == 3 && at_ + len ≤ 16400 &&
    s.flash.ops.any fun o => o.bay == bay && o.opc == 0x10 && o.st == .outstanding && o.src.contains src
  if ok then
    let s1 := s.emit (.baySource bay (some (slice (sourceBytes (s.sourceUnit src)) at_ len)))
    match if src < 131072 then none else s1.buf? (src - 131072) with
    | none => s1
    | some b =>
      let left := takeRun b.unfetched at_ (at_ + len)
      if left = [] then s1.freeBuf b.blk else s1.modBuf b.blk fun b => { b with unfetched := left }
  else (s.modBay bay fun b => { b with badRead := b.badRead + 1 }).emit (.baySource bay none)

def execModuleSourceRead (bay addr len : Nat) (s : State) : Host.Outcome State Fault Refusal :=
  .next (moduleSourceRead bay addr len s)

end Sys2Proof.Machine
end

