-- ==== Sys2Proof/Machine/Bays.lean ====
section
/-! DEFINITION. Bringing a bay up, holding it, and its departure (R209 to R213, R227, R230). -/

namespace Sys2Proof.Machine

/-- BAY_PERST_RELEASE (R210 step 2): power is good and the PERST delay has passed. -/
def bayPerstRelease (bay : Nat) (s : State) : State :=
  let b := s.bay bay
  if (nth s.pwr.chans bay).pg && b.perst && !b.stopped && !b.hold then
    s.modBay bay fun b => { b with perst := false, st := .training, fenced := false }
  else s

def execBayPerstRelease (bay : Nat) (s : State) : Host.Outcome State Fault Refusal := .next (bayPerstRelease bay s)

/-- The bay is held in PERST until its presence changes or software retrains it. -/
def holdBay (bay : Nat) (s : State) : State :=
  s.modBay bay fun b => { b with perst := true, stopped := true, up := false, st := .off, speed := 0, width := 0,
                                 degraded := false }

/-- BAY_LINK_TRAINED (R209): WIDTH is the code of BAYLNK_STATUS, SPEED the PCIe generation. A link below 64 GT/s ×4 that is not accepted
leaves the bay held in PERST. -/
def bayLinkTrained (bay speed width : Nat) (s : State) : State :=
  let b := s.bay bay
  if b.st != .training || b.perst then s
  else if speed < 6 || width < 2 then
    if s.paramN 0x9103 = 1 then
      raise Code.evBayLinkDegraded Kind.bay bay []
        (s.modBay bay fun b => { b with up := true, speed, width, st := .descriptor, degraded := true, attempts := 0 })
    else holdBay bay s
  else s.modBay bay fun b => { b with up := true, speed, width, st := .descriptor, degraded := false, attempts := 0 }

def execBayLinkTrained (bay speed width : Nat) (s : State) : Host.Outcome State Fault Refusal :=
  .next (bayLinkTrained bay speed width s)

/-- BAY_LINK_TRAIN_TIMEOUT (R210 step 3). -/
def bayLinkTrainTimeout (bay : Nat) (s : State) : State :=
  let b := s.bay bay
  if b.st != .training then s
  else if 2 ≤ b.attempts then
    raise Code.evBayLinkDown Kind.bay bay [] (holdBay bay (s.modBay bay fun b => { b with attempts := 3 }))
  else s.modBay bay fun b => { b with perst := true, st := .off, attempts := b.attempts + 1 }

def execBayLinkTrainTimeout (bay : Nat) (s : State) : Host.Outcome State Fault Refusal := .next (bayLinkTrainTimeout bay s)

/-! ### The descriptor (R211, R212) -/

/-- Printable ASCII throughout. -/
def printable (bs : List Byte) : Bool := bs.all fun b => decide (0x20 ≤ b.toNat) && decide (b.toNat ≤ 0x7E)

/-- A number lies in a range. -/
def inRange (v lo hi : Nat) : Bool := decide (lo ≤ v) && decide (v ≤ hi)

/-- Every field of a descriptor lies in its range, and the CRC is right (R211). -/
def descriptorValid (d : List Byte) : Bool :=
  d.length == 4096 && slice d 0 4 == asciiBytes "DWBP" && inRange (leAt d 4 2) 0x0100 0x01FF && leAt d 6 2 == 4096 &&
    leAt d 8 8 != 0 && printable (slice d 16 48) && inRange (leAt d 64 2) 1 512 && inRange (leAt d 66 2) 64 1024 &&
    inRange (leAt d 68 4) 1 65536 && leAt d 72 2 == 16 && inRange (leAt d 74 2) 1 65535 && inRange (leAt d 76 2) 1 64 &&
    inRange (leAt d 78 2) 1 65535 && bits (leAt d 116 1) 3 5 == 0 && leAt d 117 3 == 0 && allZero (slice d 124 3968) &&
    leAt d 4092 4 == crc32 (d.take 4092)

/-- What the controller keeps of a descriptor (R211). -/
def descriptorOf (d : List Byte) : Descriptor :=
  { moduleId := leAt d 8 8, dies := leAt d 64 2, positions := leAt d 66 2, blocks := leAt d 68 4, eccCap := leAt d 74 2,
    ratedPe := leAt d 78 2, tProgTyp := leAt d 80 4, tProgMax := leAt d 84 4, tEraseTyp := leAt d 88 4,
    tEraseMax := leAt d 92 4, tSenseTyp := leAt d 96 4, tSense999 := leAt d 100 4, tReadMax := leAt d 104 4,
    tSuspProg := leAt d 108 4, tSuspErase := leAt d 112 4, flags := leAt d 116 1, eraseHoldMs := leAt d 120 4 }

/-- Raw capacity of at most 128 TB (R212). -/
def capacityOk (d : Descriptor) : Bool := decide (d.dies * d.blocks * d.positions * 65536 ≤ 128000000000000)

/-- The module is enumerated: its BAR, memory space, bus mastering, a payload of 512 B, read requests of 4,096 B, 10-bit tags (R209, R210
step 4). -/
def configureBay (bay : Nat) (s : State) : State := s.emit (.bayConfig bay 512 4096 10)

/-- The rings are laid out and the port enabled (R210 step 6, R213): base addresses in the controller's own memory, 4,096 entries each. -/
def enablePort (bay : Nat) (s : State) : State :=
  let reg (off v : Nat) (s : State) : State := s.emit (.bayReg bay off v)
  reg 0x1000 1 (reg 0x1018 (4096 + 4096 * 2 ^ 16) (reg 0x1010 (Config.ringBase bay true)
    (reg 0x1008 (Config.ringBase bay false) s)))

/-- BAY_ENUMERATE (R210 steps 4 to 6): the module is enumerated, the descriptor is read twice and checked, the rings are set up. -/
def bayEnumerate (bay : Nat) (copy1 copy2 : List Byte) (s : State) : State :=
  let b := s.bay bay
  if b.st != .descriptor then s
  else if copy1 == copy2 && descriptorValid copy1 && capacityOk (descriptorOf copy1) then
    enablePort bay ((configureBay bay s).modBay bay fun b =>
      { b with desc := some (descriptorOf copy1), modId := leAt copy1 8 8, sqTail := 0, cqHead := 0, phase := true, consumed := 0 })
  else
    holdBay bay (raise Code.evBayDescriptorBad Kind.bay bay []
      ((configureBay bay s).modBay bay fun b => { b with evt := setBit b.evt 3 }))

def execBayEnumerate (bay : Nat) (copy1 copy2 : List Byte) (s : State) : Host.Outcome State Fault Refusal :=
  .next (bayEnumerate bay copy1 copy2 s)

/-- BAY_PORT_READY (R210 steps 6 to 8): READY, with the MOD_EPOCH that the port answers (R213), or none within 100 ms, on which the bay is
held (log 10). -/
def bayPortReady (bay : Nat) (ready : Option Nat) (s : State) : State :=
  let b := s.bay bay
  if b.st != .descriptor || b.desc.isNone then s
  else match ready with
  | none => raise Code.evBayLinkDown Kind.bay bay [] (holdBay bay s)
  | some modEpoch =>
    let s1 := s.modBay bay fun b => { b with st := .ready, modEpoch }
    let s2 := match s1.bayMember bay with
      | some (gi, _) =>
        let g := s1.group gi
        let s2 := if g.role.owns then setEpoch bay g.epoch s1 else s1
        if g.role.owns || g.role = .partner then askDies bay s2 else s2
      | none => s1
    assignModule bay (raise Code.evBayLinkUp Kind.bay bay [] s2)

def execBayPortReady (bay : Nat) (ready : Option Nat) (s : State) : Host.Outcome State Fault Refusal :=
  .next (bayPortReady bay ready s)

/-- BAYLNK_CTRL.RETRAIN (R230): bring-up starts again at step 2 of R210. -/
def baylnkRetrain (bay : Nat) (s : State) : State :=
  let b := s.bay bay
  let s1 := if b.st = .ready then departBay bay s else s
  s1.modBay bay fun b =>
    { b with perst := true, stopped := false, attempts := 0, up := false, st := .off, speed := 0, width := 0, degraded := false }

def execBaylnkRetrain (bay : Nat) (s : State) : Host.Outcome State Fault Refusal :=
  .next (s.hostWrite (baylnkRetrain bay s))

/-- No operation is QUEUED or OUTSTANDING for a bay: its idle condition for HOLD (R230). -/
def State.bayIdle (s : State) (bay : Nat) : Bool :=
  !(s.flash.ops.any fun o => o.bay == bay && (o.st == .queued || o.st == .outstanding))

/-- HOLD takes effect: PERST asserted and the bay down, or released for bring-up (R230). -/
def setHold (bay : Nat) (v : Bool) (s : State) : State :=
  if v then
    (departBay bay s).modBay bay fun b =>
      { b with hold := true, perst := true, up := false, st := .off, speed := 0, width := 0, degraded := false }
  else s.modBay bay fun b => { b with hold := false }

/-- BAYLNK_HOLD (R9, R230): the write is dropped while the bay is not idle. -/
def baylnkHold (bay : Nat) (v : Bool) (s : State) : State := if s.bayIdle bay then setHold bay v s else s

def execBaylnkHold (bay : Nat) (v : Bool) (s : State) : Host.Outcome State Fault Refusal :=
  .next (s.hostWrite (baylnkHold bay v s))

/-- BAY_LINK_DOWN (R227). -/
def execBayLinkDown (bay : Nat) (s : State) : Host.Outcome State Fault Refusal := .next (departBay bay s)

/-- BAYLNK_STATUS of a bay (R230). -/
def State.baylnkStatus (s : State) (bay : Nat) : Nat :=
  let b := s.bay bay
  flag (nth s.pwr.chans bay).short 0 + flag b.up 1 + field b.speed 2 3 + field b.width 5 2 + field b.st.ctorIdx 7 2 +
    flag b.fenced 9 + flag b.degraded 10 + field (s.outstanding bay) 16 13

end Sys2Proof.Machine
end

