-- ==== Sys2Proof/Machine/Collect.lean ====
section
/-! DEFINITION. Collection, compaction, wear levelling, spare bands, the delta log and checkpoints as commands (R149, R164
to R170, R174, R175). -/

namespace Sys2Proof.Machine

/-! ### Spare bands (R164) -/

/-- SPARE_BAND_FORM (R164): a spare of each position becomes a DATA entry with FROM = 0, with the erase count it carries, and the band is
erased. -/
def spareBandForm (gi : Nat) (s : State) : State :=
  let g := s.group gi
  let used (n : Nat) : Bool := g.bands.any fun b => b.num == n && b.st != .retired
  let pos := ((List.range g.w).map fun m => (List.range g.dies).map fun k => (m, k)).flatten
  let ok := pos.all fun p => decide (s.paramN 0x3002 < (g.freeSpares p.1 p.2).length)
  if !g.role.owns || s.paramN 0x3003 < g.freeBands.length || !ok then s
  else
    match (lowest (fun i => !used (16381 - i)) (16382 - g.bases)).map fun i => 16381 - i with
    | none => s
    | some n =>
      let s1 := s.modGroup gi fun g => g.modBand n fun _ => { num := n, spareFormed := true }
      eraseBand gi n (pos.foldl (fun s p => (substitute gi n p.1 p.2 0 s).2) s1)

def execSpareBandForm (gi : Nat) (s : State) : Host.Outcome State Fault Refusal := .next (spareBandForm gi s)

/-! ### Collection (R165 to R168) -/

/-- The valid units of the victim's next 4,096 data units that hold any, in DU order, and the data unit past them (R167). -/
def State.nextWindow (s : State) (gi victim : Nat) : Nat → Nat → List Nat × Nat
  | 0, start => ([], start)
  | n + 1, start =>
    let g := s.group gi
    let past := Nat.min (start + 4096) g.bandUnits
    let todo := ((List.range (past - start)).map fun i => mkGua victim (start + i)).filter fun a => s.validAt gi a && !g.isLost a
    if g.bandUnits ≤ start then ([], start)
    else if todo = [] then State.nextWindow s gi victim n past
    else (todo, past)

/-- The victim's next batch of up to 4,096 units, as many of them as there are places for; with no valid unit left that is not lost, the
victim is committed (R167, R168). A batch that has no room waits (R243). -/
def nextBatch (gi victim : Nat) (s : State) : State :=
  let g := s.group gi
  match g.collects.find? fun c => c.victim == victim && c.next.isSome with
  | none => s
  | some c =>
    let (todo, past) := s.nextWindow gi victim (g.bandUnits / 4096 + 1) (c.next.getD 0)
    let isIt (x : Collect) : Bool := x.victim == victim && x.next.isSome
    if todo = [] then
      let j := g.jseq
      let done (x : Collect) : Collect := { x with next := none, batch := [], commit := some j }
      journal gi 0x06 (bodyBand victim) (s.modGroup gi fun g => { g with collects := updWhere isIt done g.collects })
    else
      let now := (s.batchNow gi todo).map RelocUnit.old
      let (batch, s1) := startBatch gi now [] s
      let next := if now.length < todo.length then guaDu (nth todo now.length) else past
      let go (x : Collect) : Collect := { x with batch, next := some next }
      s1.modGroup gi fun g => { g with collects := updWhere isIt go g.collects }

/-- A band becomes the victim of a collection; a target leaves it until it is FREE (R166, R261). -/
def startVictim (gi band : Nat) (s : State) : State :=
  nextBatch gi band (leaveRebuild gi band (s.modGroup gi fun g => { g.modBand band fun b => { b with st := .victim } with
    collects := g.collects ++ [{ victim := band, next := some 0 }] }))

/-- A candidate's score as a fraction: (U - VALID) × age over U + VALID (R166). -/
def State.gcScore (s : State) (g : Group) (b : Band) : Nat × Nat :=
  let age := Nat.min (s.frameNow - b.closedAt) (s.paramN 0x3007)
  ((g.bandUnits - b.valid) * age, g.bandUnits + b.valid)

/-- The better of two candidates: the higher score, then the lower SEQ (R166). -/
def State.gcBetter (s : State) (g : Group) (a b : Band) : Bool :=
  let x := s.gcScore g a
  let y := s.gcScore g b
  decide (y.1 * x.2 < x.1 * y.2) || (x.1 * y.2 == y.1 * x.2 && decide (a.seq < b.seq))

/-- A stream's victim: its best CLOSED band that is not wholly valid (R166). -/
def State.streamVictim (s : State) (gi stream : Nat) : Option Nat :=
  let g := s.group gi
  ((g.bands.filter fun b => b.st == .closed && b.stream == stream && decide (b.valid < g.bandUnits)).foldl
    (fun (a : Option Band) b => match a with
      | none => some b
      | some x => if s.gcBetter g b x then some b else some x) none).map Band.num

/-- GC_VICTIM_SELECT (R165, R166): the streams take turns, one victim at a time. -/
def gcVictimSelect (gi : Nat) (s : State) : State :=
  let g := s.group gi
  if !g.role.owns || s.paramN 0x3005 < g.freeBands.length || g.bands.any (fun b => b.st == .victim) then s
  else
    match (List.range 10).findSome? fun i =>
        let st := (g.gcStream + i) % 10
        (s.streamVictim gi st).map fun v => (st, v) with
    | none => spaceCheck gi s
    | some (st, v) => startVictim gi v (s.modGroup gi fun g => { g with gcStream := (st + 1) % 10 })

def execGcVictimSelect (gi : Nat) (s : State) : Host.Outcome State Fault Refusal := .next (gcVictimSelect gi s)

/-- One copied unit is committed by compare-and-set of the map (R146, R167); a zone that is down to two extents is compact again (R149). A
page of stream 9 is named by its group. -/
def commitCopy (gi : Nat) (r : RelocUnit) (s : State) : Bool × State :=
  match (s.group gi).ownerOf r.old with
  | none => (false, s)
  | some o =>
    if !s.mapNames gi o || (s.group gi).isLost r.old then (false, s)
    else
      let zoned := match s.ns? o.nsx with | some n => n.zoned | none => false
      let settle (z : Zone) : Zone := { z with compact := z.compact && decide (2 < z.extents.length) }
      let s1 := if o.nsx = 0xFFFF then s.modGroup gi fun g => g.movePage r.old r.new
        else s.modNs o.nsx fun n =>
          if zoned then (n.setZoneUnit o.unit r.new).modZone (o.unit / n.zoneUnits) settle else n.setMap o.unit (some (.gua r.new))
      (true, addValid gi r.new true (addValid gi r.old false s1))

/-- A RELOC_DELTA record of a run, MASK bit i for each commit that succeeded. -/
def journalRun (gi : Nat) (s : State) (run : List (RelocUnit × Bool)) : State :=
  let p := nth run 0
  let mask := (List.range run.length).foldl (fun v i => v + flag (nth run i).2 i) 0
  journal gi 0x05 (bodyReloc p.1.old p.1.new run.length mask) s

/-- GC_BATCH_VERIFIED (R167): the batch's map entries are compared and set, its deltas journalled, and the next batch
starts. A collection or a relocation that had no room for a batch tries again (R243). -/
def gcBatchVerified (gi victim : Nat) (s : State) : State :=
  let put (c : Collect) (s : State) : State := s.modGroup gi fun g => { g with collects := g.collects ++ [c] }
  let out (c : Collect) (s : State) : State := s.modGroup gi fun g => { g with collects := g.collects.erase c }
  let goOn (c : Collect) (s : State) : State :=
    if c.next.isSome then nextBatch gi victim s else refreshHealth gi (nextTodo gi c s)
  match (s.group gi).collects.find? fun c => c.victim == victim && !c.batch.isEmpty && c.batch.all RelocUnit.done with
  | none =>
    match (s.group gi).collects.find? fun c => c.victim == victim && c.batch.isEmpty && (c.next.isSome || !c.todo.isEmpty) with
    | some c => goOn c s
    | none => s
  | some c =>
    let (res, s1) := c.batch.foldl (fun (a : List (RelocUnit × Bool) × State) r =>
      let (ok, s') := commitCopy gi r a.2
      (a.1 ++ [(r, ok)], s')) ([], s)
    let rest := { c with batch := [] }
    goOn rest (poolCheck (put rest (out c ((deltaRuns res).foldl (journalRun gi) s1))))

def execGcBatchVerified (gi victim : Nat) (s : State) : Host.Outcome State Fault Refusal := .next (gcBatchVerified gi victim s)

/-- GC_VICTIM_DURABLE (R167, R169): the deltas and VICTIM_COMMIT are durable. Lost units go on counting as VALID (R267). -/
def gcVictimDurable (gi victim : Nat) (s : State) : State :=
  let g := s.group gi
  match g.collects.find? fun c => c.victim == victim && c.commit.isSome with
  | none => s
  | some c =>
    if g.isDurable (c.commit.getD 0) then
      s.modGroup gi fun g => { g.modBand victim fun b => { b with st := .erasePending } with
        collects := g.collects.filter (· != c) }
    else s

def execGcVictimDurable (gi victim : Nat) (s : State) : Host.Outcome State Fault Refusal := .next (gcVictimDurable gi victim s)

/-- GC_READERS_DRAINED (R167). -/
def gcReadersDrained (gi victim : Nat) (s : State) : State :=
  if ((s.group gi).band victim).st = .erasePending && s.readers gi victim = 0 then eraseBand gi victim s else s

def execGcReadersDrained (gi victim : Nat) (s : State) : Host.Outcome State Fault Refusal :=
  .next (gcReadersDrained gi victim s)

/-! ### Compaction and wear (R149, R174, R175) -/

/-- A Full zone has the most extents of those that have more than one. -/
def State.mostExtents (s : State) (z : Zone) : Bool :=
  decide (1 < z.extents.length) && s.host.nss.all fun n => n.zones.all fun y => y.st != .full || decide (y.extents.length ≤ z.extents.length)

/-- ZONE_COMPACT (R149): a Full zone with COMPACT set, or in a pool that is 90 % used the one with the most extents, is copied in zone order
as one run. -/
def zoneCompact (nsx zone : Nat) (s : State) : State :=
  match s.ns? nsx with
  | none => s
  | some n =>
    let z := n.zone zone
    if !n.zoned || z.st != .full || !(z.compact || s.poolHigh && s.mostExtents z) || !(s.role n.group).owns then s
    else relocate n.group 16383 ((List.range z.written).filterMap z.gua?) s

def execZoneCompact (nsx zone : Nat) (s : State) : Host.Outcome State Fault Refusal := .next (zoneCompact nsx zone s)

/-- WEAR_LEVEL_START (R174): the CLOSED band with the lowest ERASES is collected, one victim at a time (R166). Among equal counts it is the first
of the group's list of bands, which the spec leaves open, and RETIRED bands do not count (DESIGN CHOICE, log 129). -/
def wearLevelStart (gi : Nat) (s : State) : State :=
  let g := s.group gi
  let es := (g.bandNums.filter fun n => (g.band n).st != .retired).map fun n => (g.band n).erases
  let hi := es.foldl Nat.max 0
  let lo := es.foldl Nat.min hi
  let best := (g.bands.filter fun b => b.st == .closed).foldl (fun (a : Option Band) b => match a with
    | none => some b
    | some x => if b.erases < x.erases then some b else some x) none
  match best with
  | some b => if g.role.owns && s.paramN 0x300A < hi - lo && !(g.bands.any fun b => b.st == .victim) then startVictim gi b.num s else s
  | none => s

def execWearLevelStart (gi : Nat) (s : State) : Host.Outcome State Fault Refusal := .next (wearLevelStart gi s)

/-- Mean ERASES of a group's bands in percent of the lowest rating of its members (R175). -/
def State.wearPct (s : State) (gi : Nat) : Nat :=
  let g := s.group gi
  let es := g.bandNums.map fun n => (g.band n).erases
  let rated := (g.bays.map fun b => (s.desc b).ratedPe).filter (0 < ·)
  let low := rated.foldl Nat.min 65535
  es.sum * 100 / Nat.max 1 (es.length * low)

/-- EV_FTL_WEAR when a group's wear crosses 80 % or 95 % (R175). -/
def wearCheck (gi : Nat) (s : State) : State :=
  let w := s.wearPct gi
  let g := s.group gi
  let s1 := if 80 ≤ w && !g.wear80 then
      raise Code.evFtlWear Kind.group gi [80] (s.modGroup gi fun g => { g with wear80 := true }) else s
  if 95 ≤ w && !g.wear95 then
    raise Code.evFtlWear Kind.group gi [95] (s1.modGroup gi fun g => { g with wear95 := true }) else s1

/-! ### Delta log and checkpoints (R169, R170) -/

/-- DELTA_LOG_APPEND (R169). -/
def deltaLogAppend (gi : Nat) (s : State) : State :=
  if (s.group gi).role.owns then wearCheck gi (appendLog gi s) else s

def execDeltaLogAppend (gi : Nat) (s : State) : Host.Outcome State Fault Refusal := .next (deltaLogAppend gi s)

/-- CHECKPOINT_TIMER (R170). -/
def checkpointTimer (gi : Nat) (s : State) : State := if (s.group gi).role.owns then startCheckpoint gi s else s

def execCheckpointTimer (gi : Nat) (s : State) : Host.Outcome State Fault Refusal := .next (checkpointTimer gi s)

end Sys2Proof.Machine
end

