-- ==== Sys2Proof/Machine/Flush.lean ====
section
/-! DEFINITION. The power-fail flush and the journal image (R16, R251 to R253, R491, R494). -/

namespace Sys2Proof.Machine

/-! ### The image (R252, R253) -/

/-- Content pages 0 to 255: the journal records of every group, 256 to a page. -/
def State.imageRecords (s : State) : List Byte :=
  ((List.range 6).map fun g => ((s.group g).journal.map (recBytes g)).flatten).flatten

/-- The die-parity accumulators whose row is not complete, at most 240, with their groups. -/
def State.imageAccs (s : State) : List DieAcc := ((s.groups.map Group.dieAccs).flatten).take 240

/-- A content page (R253): a page of records, or one unit of an accumulator. -/
def State.imagePage (s : State) (i : Nat) : Unit16 :=
  if i < 256 then { data := leNat (slice s.imageRecords (i * 16384) 16384) }
  else match s.imageAccs[(i - 256) / 4]? with
    | some a => nth a.units ((i - 256) % 4)
    | none => Unit16.filler

/-- GROUPS of the header: EPOCH, record count, LAST_JSEQ. -/
def Group.imageEntry (g : Group) : List Byte :=
  match g.journal.getLast? with
  | none => leBytes 16 0
  | some r => leBytes 4 r.epoch ++ leBytes 4 g.journal.length ++ leBytes 8 r.jseq

/-- ACC_DIR of the header. -/
def accEntry (a : DieAcc) : List Byte :=
  leBytes 2 a.band ++ leBytes 1 a.member ++ leBytes 1 0 ++ leBytes 4 a.row ++ leBytes 4 a.folded ++ leBytes 4 0

/-- The header page (R253). -/
def State.imageHeader (s : State) : List Byte :=
  let b := padTo 16380 (asciiBytes "SJIM" ++ leBytes 4 0x5A5AA5A5 ++ leBytes 8 s.fuse.deviceId ++
    (s.groups.map Group.imageEntry).flatten ++ leBytes 4 s.imageAccs.length ++ (s.imageAccs.map accEntry).flatten)
  b ++ leBytes 4 (crc32 b)

/-- One chunk program of the image on a die: four pages in fresh slots. -/
def imageChunk (gi m bay die block pos : Nat) (us : List Unit16) (s : State) : State :=
  let (src, s1) := us.foldl (fun (a : List Nat × State) u =>
    let (n, s1) := putSlot { unit := u, g := gi } a.2; (a.1 ++ [n], s1)) ([], s)
  enqueue { bay, die, opc := 0x10, qcls := 0, block, page := 4 * pos, src, use := .image gi m } s1

/-- The set that an image goes to: the block on each of dies 1 to 64, and whether it is SET0. A member's erased set, SET0 first (R250), none
when neither is erased (R534); a spare bay's SET0, by its own block count (DESIGN CHOICE, log 47). -/
def State.imageSet (s : State) (bay : Nat) : Option (Nat × Bool) :=
  match s.bayMember bay with
  | some (gi, m) =>
    let g := s.group gi
    if (g.member m).set0 then some (g.topBlock, true) else if (g.member m).set1 then some (g.topBlock - 1, false) else none
  | none => some ((s.desc bay).blocks - 1, true)

/-- A spare bay's set has not been erased for the image before: its blocks are, and the programs wait for them (R534; DESIGN CHOICE,
log 47). The bay's module takes an epoch of this controller first (R225). -/
def readySpare (bay block : Nat) (s : State) : State :=
  match s.bayMember bay with
  | some _ => s
  | none =>
    let s1 := submitNow { bay, opc := 0x60, use := .epochSet ((s.bay bay).modEpoch + 1) } s
    (List.range 64).foldl (fun s d => enqueue { bay, die := d + 1, opc := 0x20, qcls := 0, block, use := .erase 6 0 .image } s) s1

/-- The image goes to one bay: five chunks on each of dies 1 to 64, then the header on die 1. -/
def writeImage (bay : Nat) (s : State) : State :=
  let (gi, m) := (s.bayMember bay).getD (6, 0)
  match s.imageSet bay with
  | none => s
  | some (block, first) =>
    let content := (List.range 64).foldl (fun s d => (List.range 5).foldl (fun s p =>
      imageChunk gi m bay (d + 1) block p ((List.range 4).map fun u =>
        let i := (4 * p + u) * 64 + d
        if i < 1216 then s.imagePage i else Unit16.filler) s) s) (readySpare bay block s)
    let s1 := imageChunk gi m bay 1 block 5
      [{ data := leNat s.imageHeader }, Unit16.filler, Unit16.filler, Unit16.filler] content
    s1.modGroup gi fun g => g.modMember m fun x => if first then { x with set0 := false } else { x with set1 := false }

/-! ### The flush (R252, R491) -/

/-- PROGRAMs not yet completed. -/
def State.programsLeft (s : State) : Nat := (s.flash.ops.filter fun o => o.opc == 0x10 && o.st != .quarantine).length

/-- Every open stripe is closed, with filler for what it has not been given: the places of a zoned write whose data will not come among them
(R252 step 2). -/
def closeOpen (gi : Nat) (s : State) : State :=
  let given (x : Stripe) : Stripe := { x with units := x.units.filter fun p => !x.waiting.contains p.1, waiting := [] }
  ((s.group gi).stripes.filter fun x => !x.formed).foldl (fun s x =>
    closeStripe gi x.band x.q (s.modGroup gi fun g => g.modStripe x.band x.q given)) s

/-- Programs on the image dies and erases everywhere are suspended. -/
def suspendForFlush (bays : List Nat) (s : State) : State :=
  (s.flash.dies.filter fun d => d.op.isSome && d.suspAt.isNone && !d.unknown &&
      (d.erase || (bays.contains d.bay && decide (1 ≤ d.die ∧ d.die ≤ 64)))).foldl (fun s d =>
    match s.bayMember d.bay with
    | some (gi, _) => suspendDie gi d.bay d.die s
    | none => s) s

/-- PF_WARN asserts (R16): the data die, when it runs, begins the flush. It is never withdrawn. -/
def pfWarn (s : State) : State :=
  let s0 := { s with pins := { s.pins with pfWarn := true } }
  if !s.ddUp || s.flush.active then s0
  else
    let bays := [s.imageBays.1, s.imageBays.2.1].filterMap id
    let s1 := { s0 with flush := { s0.flush with active := true, programmed := 0, image := false, start := s.clock } }
    let s2 := suspendForFlush bays s1
    let s3 := s.ownedGroups.foldl (fun s g => closeOpen g s) s2
    let s4 := bays.foldl (fun s b => writeImage b s) s3
    { s4 with flush := { s4.flush with left := s4.programsLeft } }

/-- PWRFAIL_N_FALL. -/
def execPwrfailNFall (s : State) : Host.Outcome State Fault Refusal := .next (pfWarn s)

/-- A die takes its next operation of the flush: the image first, with the erase that it waits for, then the program suspended for it, then
staging (R214, R491, R534). -/
def flushDispatch (bay die : Nat) (s : State) : State :=
  let d := s.die bay die
  let gi := ((s.bayMember bay).getD (6, 0)).1
  let q := s.flash.ops.filter fun o => o.bay == bay && o.die == die && o.st == .queued && (o.opc == 0x10 || o.use == .erase 6 0 .image)
  let image := q.filter fun o => match o.use with | .image _ _ => true | _ => o.opc == 0x20
  let start (o : FlashOp) (s : State) : State :=
    let under := if d.erase then none else d.op
    (submit o.tag s).modDie bay die fun d =>
      { d with op := some o.tag, erase := o.opc == 0x20, suspAt := none, start := s.micros, suspTotal := 0, suspends := 0,
               held := false, overrun := false, below := if under.isSome then under else d.below }
  if d.unknown || (d.op.isSome && d.suspAt.isNone) || !s.ringRoom bay then s
  else match image.head?, d.below with
    | some o, _ => start o s
    | none, some t => resumeDie bay die (s.modDie bay die fun d => { d with op := some t, below := none, erase := false })
    | none, none =>
      if d.op.isSome && !d.erase then resumeDie bay die s
      else match pickOp false (q.filter (s.blockReady gi)) with
        | some o => start o s
        | none => s

/-- DIE_DISPATCH. In a flush the turn table is suspended and only programs go (R491). -/
def execDieDispatch (bay die : Nat) (s : State) : Host.Outcome State Fault Refusal :=
  .next (if s.flush.active then flushDispatch bay die s else dieDispatch bay die s)

/-- FLUSH_PROGRESS_TICK: the data die reports the chunks still to program (R488). -/
def flushProgressTick (s : State) : State :=
  if s.flush.active then
    { s with flush := { s.flush with programmed := s.flush.programmed + (s.flush.left - s.programsLeft), left := s.programsLeft },
             bbx := { s.bbx with flushLeft := s.programsLeft } }
  else s

def execFlushProgressTick (s : State) : Host.Outcome State Fault Refusal := .next (flushProgressTick s)

/-- No image program is left: its header is on flash. -/
def State.imageDone (s : State) : Bool :=
  s.imageBays.1.isSome && !s.flash.ops.any fun o => match o.use with | .image _ _ => o.st != .quarantine | _ => false

/-- PFAIL_FLUSH_DONE: the flush has run to its end, and FC_PFAIL_FLUSH is appended with the result (R491). -/
def pfailFlushDone (s : State) : State :=
  if s.flush.active then
    let s1 := flushProgressTick s
    let r : List Int := [flag s1.imageDone 0, s1.flush.programmed, s1.flush.left, ((s1.clock - s1.flush.start) / 1600 : Nat)]
    bbx 1 Code.fcPfailFlush Kind.none 0 r
      { s1 with flush := { s1.flush with image := s1.imageDone, before := some r },
                bbx := { s1.bbx with flushLeft := 0xFFFFFFFF } }
  else s

end Sys2Proof.Machine
end

