-- ==== Sys2Proof/Machine/BayPower.lean ====
section
/-! DEFINITION. Bay power channels (14 Bay power): the hot-swap state machine, its timers and protections, power-good, and
the FET model. -/

namespace Sys2Proof.Machine

/-! ### One channel -/

/-- A bay's power channel. -/
def State.pchan (s : State) (bay : Nat) : PwrChan := nth s.pwr.chans bay

/-- A bay's power channel changed. -/
def State.modPchan (s : State) (bay : Nat) (f : PwrChan → PwrChan) : State :=
  { s with pwr := { s.pwr with chans := upd s.pwr.chans bay f } }

/-- GATE_HS is on in this state (R429). -/
def PwrSt.gateOn : PwrSt → Bool
  | .ramp | .on | .unseating => true
  | _ => false

/-- Both gates off (R427): the comparators see no current. -/
def PwrChan.gatesOff (c : PwrChan) : PwrChan :=
  { c with hsOn := false, orOn := false, enhancing := false, breaker := false, limit := false }

/-- Power-good withdrawn, with PG_FALL when it was asserted (R437). -/
def PwrChan.pgOff (c : PwrChan) : PwrChan := if c.pg then { c with pg := false, evt := setBit c.evt 1 } else c

/-- The fault timer's count at a 16 MHz tick: up by one in each tick with the comparator set, down by one in every
sixteenth tick with it clear, never below 0 (R433). -/
def PwrChan.timerNow (c : PwrChan) (tick : Nat) : Nat :=
  if c.breaker then c.timer + (tick - c.timerAt) else c.timer - (tick - c.timerAt) / 16

/-- Both gates off and power-good withdrawn, into a state. The fault timer counts on from where it is. -/
def PwrChan.stop (tick : Nat) (c : PwrChan) (st : PwrSt) : PwrChan :=
  { c.gatesOff.pgOff with st := st, timer := c.timerNow tick, timerAt := tick }

/-- The state that the presence pins give (R430). -/
def PwrChan.presence (c : PwrChan) : PwrSt := if !c.long then .empty else if c.stable then .seated else .detected

/-- BAYPWR_STATUS at a 16 MHz tick (R453). -/
def PwrChan.status (c : PwrChan) (tick : Nat) : Nat :=
  field c.st.ctorIdx 0 4 + flag c.long 4 + flag c.short 5 + flag c.pg 6 + flag c.hsOn 7 + flag c.orOn 8 +
    flag (c.timerNow tick != 0) 9 + flag c.limit 10 + flag c.diodeOk 11 + field c.retries 12 3 + field c.lastFc 16 16

/-- VCH is at least VOUT in the latest sample (R427, log 136). -/
def PwrChan.orMay (c : PwrChan) : Bool :=
  match c.samples.getLast? with
  | some x => decide (x.vout ≤ x.vch)
  | none => true

/-- RAMP is entered: GATE_HS is charged, and GATE_OR is on while VCH is at least VOUT (R427, R431). -/
def PwrChan.enterRamp (c : PwrChan) : PwrChan :=
  { c with st := .ramp, hsOn := true, orOn := c.orMay, enhancing := false, offDone := false }

/-- A SEATED channel starts by autostart once LOADED is 1 (R430, R450). -/
def PwrChan.autostart (auto : Bool) (c : PwrChan) : PwrChan := if c.st = .seated && auto then c.enterRamp else c

/-- ISLAND, or the way into it past the bay channels' step, holds the gates off (R15, R461). -/
def State.islandHolds (s : State) : Bool :=
  decide (s.mode.mode = .island) && !s.ddUp || decide (s.mode.entering = some .island) && s.pins.ddReset

/-- Autostart is in force: `baypwr.autostart` and BAYPWR_GLOBAL.LOADED are 1, and ISLAND does not hold the gates off
(R15, R430, R450). -/
def State.autoOn (s : State) : Bool := s.paramN 0x9001 == 1 && s.pwr.loaded && !s.islandHolds

/-! ### Trips (R430, R442, R449) -/

/-- EV_BAYPWR_FAULT with the FC code and the retry count, at most once per minute per bay (R452). -/
def tellFault (bay fc : Nat) (s : State) : State :=
  let c := s.pchan bay
  if s.passed c.faultTold 60000000 then
    raise Code.evBaypwrFault Kind.bay bay [fc, c.retries]
      (s.modPchan bay fun c => { c with faultTold := some s.clock })
  else s

/-- A trip: gates off and power-good withdrawn in the same tick, the fault recorded, then FAULT_OFF, or LATCHED when
the retry count equals `baypwr.retry.max` (R430, R442). -/
def trip (bay fc : Nat) (detail : List Int) (s : State) : State :=
  let c := s.pchan bay
  let last := decide (s.paramN 0x9008 ≤ c.retries)
  let s1 := s.modPchan bay fun c =>
    let d := c.stop s.aonTick (if last then .latched else .faultOff)
    { d with lastFc := fc, byFet := false, offDone := false, evt := setBit d.evt 0 }
  let s2 := tellFault bay fc (bbx 0 fc Kind.bay bay detail s1)
  if last then
      raise Code.evBaypwrLatched Kind.bay bay []
        (bbx 0 Code.fcRetryExhausted Kind.bay bay []
          (s2.modPchan bay fun c => { c with lastFc := Code.fcRetryExhausted, evt := setBit c.evt 3 }))
    else s2

/-! ### Presence (R428, R430) -/

/-- The long pin seats or is lost. -/
def prslChange (bay : Nat) (seated : Bool) (s : State) : State :=
  s.modPchan bay fun c =>
    let c := { c with long := seated, stable := c.stable && seated, evt := setBit c.evt 2 }
    if (c.st = .latched && c.byFet) || c.st = .disabled then c
    else if seated then (if c.st = .empty then { c with st := .detected } else c)
    else { c.stop s.aonTick .empty with retries := 0, offDone := false }

def execPrslChange (bay : Nat) (seated : Bool) (s : State) : Host.Outcome State Fault Refusal :=
  .next (prslChange bay seated s)

/-- The short pin changes. A loss is reported to the bay link controller as a departure (R227, R428); a bay whose bring-up was given up
may be tried again (R210). -/
def prssChange (bay : Nat) (seated : Bool) (s : State) : State :=
  let c0 := s.pchan bay
  let s1 := s.modPchan bay fun c =>
    let c := { c with short := seated, stable := c.stable && seated, evt := setBit c.evt 2 }
    if seated then (if c.st = .unseating then { c with st := .on } else c)
    else match c.st with
      | .seated => { c with st := .detected }
      | .ramp => c.stop s.aonTick .detected
      | .on => { c with st := .unseating }
      | .faultOff => { c with st := .detected }
      | _ => c
  let s2 := if c0.short == seated then s1 else s1.modBay bay fun b => { b with stopped := false, attempts := 0 }
  if c0.short && !seated then departBay bay s2 else s2

def execPrssChange (bay : Nat) (seated : Bool) (s : State) : Host.Outcome State Fault Refusal :=
  .next (prssChange bay seated s)

/-- The short pin has been low for 50 ms: SEATED, starting if autostart is in force. -/
def seatTimer (bay : Nat) (s : State) : State :=
  let auto := s.autoOn
  s.modPchan bay fun c =>
    if c.long && c.short then
      let c := { c with stable := true }
      if c.st = .detected then PwrChan.autostart auto { c with st := .seated } else c
    else c

def execSeatTimer (bay : Nat) (s : State) : Host.Outcome State Fault Refusal := .next (seatTimer bay s)

/-- The short pin has been high for `baypwr.unseat_ms`: both gates off (R428). -/
def unseatTimer (bay : Nat) (s : State) : State :=
  s.modPchan bay fun c => if c.st = .unseating && !c.short then c.stop s.aonTick .detected else c

def execUnseatTimer (bay : Nat) (s : State) : Host.Outcome State Fault Refusal := .next (unseatTimer bay s)

/-! ### Ramp (R431) -/

/-- VCH is within 300 mV of the bus: the gate is driven to full enhancement; GATE_OR is on only while VCH is at least
VOUT (R427). -/
def rampComplete (bay : Nat) (vchAtLeastVout : Bool) (s : State) : State :=
  s.modPchan bay fun c => if c.st = .ramp then { c with enhancing := true, orOn := vchAtLeastVout } else c

def execRampComplete (bay : Nat) (vchAtLeastVout : Bool) (s : State) : Host.Outcome State Fault Refusal :=
  .next (rampComplete bay vchAtLeastVout s)

/-- GATE_HS is 9 V above BAYn_CH: ON. GATE_OR is on as VCH and VOUT have it (R427). -/
def gateEnhanced (bay : Nat) (s : State) : State :=
  s.modPchan bay fun c => if c.st = .ramp && c.enhancing then { c with st := .on } else c

def execGateEnhanced (bay : Nat) (s : State) : Host.Outcome State Fault Refusal := .next (gateEnhanced bay s)

/-- The ramp is not complete in time. -/
def rampTimeout (bay : Nat) (s : State) : State :=
  let c := s.pchan bay
  if c.st = .ramp && !c.enhancing then trip bay Code.fcRampTimeout [] s else s

def execRampTimeout (bay : Nat) (s : State) : Host.Outcome State Fault Refusal := .next (rampTimeout bay s)

/-! ### Current protection (R433 to R435) -/

/-- The breaker or active-limit comparator sets or clears. The tick in which the breaker sets is the first that counts up, and the tick in
which it clears counts up no more (R433). -/
def breakerCrossing (bay : Nat) (breaker limit : Bool) (s : State) : State :=
  let tick := s.aonTick
  s.modPchan bay fun c =>
    let n := c.timerNow tick
    if breaker == c.breaker then { c with limit := limit }
    else { c with breaker := breaker, limit := limit, timer := if breaker then n + 1 else n - 1, timerAt := tick }

def execBreakerCrossing (bay : Nat) (breaker limit : Bool) (s : State) : Host.Outcome State Fault Refusal :=
  .next (breakerCrossing bay breaker limit s)

/-- The fault timer reaches `baypwr.fault_us` × 16, by counting up or because the fault time was lowered (R433, R451): FC_SHORT_RAMP in
RAMP, else FC_BREAKER with the peak current. -/
def faultTimerExpiry (bay peakMa : Nat) (s : State) : State :=
  let c := s.pchan bay
  if c.st.gateOn && (c.breaker || decide (s.paramN 0x9005 * 16 ≤ c.timerNow s.aonTick)) then
    let s := s.modPchan bay fun c => { c with timer := s.paramN 0x9005 * 16, timerAt := s.aonTick }
    if c.st = .ramp then trip bay Code.fcShortRamp [0] s else trip bay Code.fcBreaker [peakMa] s
  else s

def execFaultTimerExpiry (bay peakMa : Nat) (s : State) : Host.Outcome State Fault Refusal :=
  .next (faultTimerExpiry bay peakMa s)

/-- The fast-trip comparator has pulled GATE_HS down: the shell records it in the next tick (R434, R435). -/
def fastTrip (bay : Nat) (s : State) : State :=
  let c := s.pchan bay
  if c.st.gateOn then
    if c.st = .ramp then trip bay Code.fcShortRamp [1] s else trip bay Code.fcFastTrip [] s
  else s

def execFastTrip (bay : Nat) (s : State) : Host.Outcome State Fault Refusal := .next (fastTrip bay s)

/-! ### Power-good (R437) -/

/-- Power-good asserts in a tick with the channel ON, VOUT high enough, the fault timer at 0 and the comparator
clear. -/
def powerGoodAssert (bay voutMv : Nat) (s : State) : State :=
  let tick := s.aonTick
  let pg := s.paramN 0x9007
  s.modPchan bay fun c =>
    if c.st = .on && decide (pg + 100 ≤ voutMv) && c.timerNow tick == 0 && !c.breaker then { c with pg := true } else c

def execPowerGoodAssert (bay voutMv : Nat) (s : State) : Host.Outcome State Fault Refusal :=
  .next (powerGoodAssert bay voutMv s)

/-- VOUT has been below `baypwr.pg_mv` for 16 ticks. -/
def pgUndervolt (bay : Nat) (s : State) : State :=
  s.modPchan bay PwrChan.pgOff

def execPgUndervolt (bay : Nat) (s : State) : Host.Outcome State Fault Refusal := .next (pgUndervolt bay s)

/-! ### Telemetry and the FET model (R438, R447) -/

/-- One pole of the thermal model over 128 µs, in 10^-9 K; `tau` in µs. -/
def poleStep (dt p rth tau : Int) : Int := dt + (p * rth - dt) * 128 / tau

/-- The channel after a sample: telemetry, energy, thermal terms, and the ideal-diode state of GATE_OR (R427). -/
def PwrChan.sampled (s : State) (t : Payload.Telemetry) (c : PwrChan) : PwrChan :=
  let p : Int := t.ma * ((t.vSnsn : Int) - t.vch)
  let dt1 := poleStep c.dt1 p (s.param 0x9012) (s.param 0x9013)
  let dt2 := poleStep c.dt2 p (s.param 0x9014) (s.param 0x9015 * 1000)
  let fitted := s.paramN 0x9011 == 1
  let use := fitted && !c.diodeBad
  let tj := match use, t.diode with
    | true, some d => d * 125000000 + dt1
    | _, _ => t.powerDie * 125000000 + s.param 0x9016 * 1000000000 + dt1 + dt2
  let ss := c.samples ++ [{ ma := t.ma, vch := t.vch, vout := t.vout }]
  { c with dt1 := dt1, dt2 := dt2, tj := tj,
           diodeOk := use && t.diode.isSome, diodeBad := c.diodeBad || (fitted && t.diode.isNone),
           diode := (if fitted then (match t.diode with | some d => twos 16 d | none => 0x8000) else 0x8000),
           samples := ss.drop (ss.length - 8),
           energy := c.energy + (t.ma * t.vout * 128).toNat,
           orOn := c.st.gateOn && decide (t.vout ≤ t.vch) }

/-- The bus voltage as measured; a bus at or above the threshold ends COLLAPSE (R453). -/
def State.sawBus (s : State) (mv : Nat) : State :=
  { s with pwr := { s.pwr with collapse := s.pwr.collapse && decide (mv < s.paramN 0x9020) } }

/-- A sample of the feeds and the bus, where the sequence took one; the last 8 are kept (R447). -/
def feedSample (f : Option (Nat × Nat × Nat)) (s : State) : State :=
  match f with
  | some x =>
    let l := s.pwr.feedSamples ++ [x]
    State.sawBus { s with pwr := { s.pwr with feedSamples := l.drop (l.length - 8) } } x.2.2
  | none => s

/-- Each 128 µs sample: the estimate, a diode fault once, a retry that waited for the FET to cool, and the thermal
trip. -/
def thermalSample (bay : Nat) (t : Payload.Telemetry) (s0 : State) : State :=
  let s := feedSample t.feeds s0
  let c0 := s.pchan bay
  let s1 := s.modPchan bay (PwrChan.sampled s t)
  let c := s1.pchan bay
  let s2 := if c.diodeBad && !c0.diodeBad then
      bbx 0 Code.fcDiodeFault Kind.bay bay [] (s1.modPchan bay fun c => { c with lastFc := Code.fcDiodeFault }) else s1
  let trip_c := s.param 0x900B
  if c.st.gateOn && decide (trip_c * 1000000000 < c.tj) then
    let s3 := if c.st = .ramp then bbx 0 Code.fcShortRamp Kind.bay bay [2] s2 else s2
    trip bay Code.fcThermal [c.tj / 1000000000] s3
  else if c.st = .faultOff && c.offDone && decide (c.tj < (trip_c - 20) * 1000000000) then
    s2.modPchan bay fun c => { c.enterRamp with retries := Nat.min 7 (c.retries + 1) }
  else s2

def execThermalSample (bay : Nat) (t : Payload.Telemetry) (s : State) : Host.Outcome State Fault Refusal :=
  .next (thermalSample bay t s)

/-- VCH has stayed above 1 V with GATE_HS off for 10 ms: a damaged FET latches the channel (R440). -/
def fetDamageDetect (bay : Nat) (nearVout : Bool) (s : State) : State :=
  let c := s.pchan bay
  if c.hsOn || (c.st = .latched && c.byFet) then s
  else
    raise Code.evBaypwrFetDamaged Kind.bay bay []
      (bbx 0 Code.fcFetDamaged Kind.bay bay [if nearVout then 1 else 0]
        (s.modPchan bay fun c =>
          { c.stop s.aonTick .latched with byFet := true, lastFc := Code.fcFetDamaged, evt := setBit (setBit c.evt 3) 4 }))

def execFetDamageDetect (bay : Nat) (nearVout : Bool) (s : State) : Host.Outcome State Fault Refusal :=
  .next (fetDamageDetect bay nearVout s)

/-! ### Retries (R430, R442) -/

/-- The off-time of FAULT_OFF ends: RAMP with the retry count raised when the modelled temperature is below the trip
less 20 °C, else the channel waits for it to be. -/
def retryOfftimeExpiry (bay : Nat) (s : State) : State :=
  let cool := (s.param 0x900B - 20) * 1000000000
  s.modPchan bay fun c =>
    if c.st = .faultOff then
      if c.tj < cool then { c.enterRamp with retries := Nat.min 7 (c.retries + 1) } else { c with offDone := true }
    else c

def execRetryOfftimeExpiry (bay : Nat) (s : State) : Host.Outcome State Fault Refusal :=
  .next (retryOfftimeExpiry bay s)

/-- ON with power-good for `baypwr.retry.reset_s`: the retry count returns to 0. -/
def retryCountReset (bay : Nat) (s : State) : State :=
  s.modPchan bay fun c => if c.st = .on && c.pg then { c with retries := 0 } else c

def execRetryCountReset (bay : Nat) (s : State) : Host.Outcome State Fault Refusal := .next (retryCountReset bay s)

/-! ### Commands (R430, R443) -/

/-- 1,000 ms after a cycle command: back to SEATED, as presence gives. -/
def cycleReturn (bay : Nat) (s : State) : State :=
  let auto := s.autoOn
  s.modPchan bay fun c =>
    if c.st = .disabled && c.offBy = .cycle then PwrChan.autostart auto { c with st := c.presence } else c

def execCycleReturn (bay : Nat) (s : State) : Host.Outcome State Fault Refusal := .next (cycleReturn bay s)

/-- The on command to one channel: a SEATED channel starts, and a DISABLED one or one latched by retries goes to what
presence gives and starts from there; FAULT_OFF only forgets its retries (R430, R450). `held` says that ISLAND holds the
gates off (R15). -/
def PwrChan.commandOn (held : Bool) (c : PwrChan) : PwrChan :=
  let start (c : PwrChan) : PwrChan := if c.st = .seated && !held then c.enterRamp else c
  match c.st with
  | .seated => start c
  | .faultOff => { c with retries := 0 }
  | .disabled => start { c with st := c.presence, retries := 0 }
  | .latched => if c.byFet then c else start { c with st := c.presence, retries := 0 }
  | _ => c

/-- The on command. -/
def baypwrOn (bay : Nat) (s : State) : State := s.modPchan bay (PwrChan.commandOn s.islandHolds)

def execBaypwrOn (bay : Nat) (s : State) : Host.Outcome State Fault Refusal := .next (baypwrOn bay s)

/-- The off command: any state but EMPTY and LATCHED goes to DISABLED. -/
def PwrChan.commandOff (tick : Nat) (c : PwrChan) : PwrChan :=
  match c.st with
  | .empty | .latched => c
  | _ => { c.stop tick .disabled with offBy := .command }

/-- The off command to this controller's channel only (R443). -/
def baypwrOff (bay : Nat) (s : State) : State := s.modPchan bay (PwrChan.commandOff s.aonTick)

def execBaypwrOff (bay : Nat) (s : State) : Host.Outcome State Fault Refusal := .next (baypwrOff bay s)

/-- The cycle command: ON goes to DISABLED and comes back after 1,000 ms. -/
def baypwrCycle (bay : Nat) (s : State) : State :=
  s.modPchan bay fun c => if c.st = .on then { c.stop s.aonTick .disabled with offBy := .cycle } else c

def execBaypwrCycle (bay : Nat) (s : State) : Host.Outcome State Fault Refusal := .next (baypwrCycle bay s)

/-- BAYPWR_CTRL.CLEAR: a latch by retries is cleared. -/
def baypwrClear (bay : Nat) (s : State) : State :=
  let auto := s.autoOn
  s.modPchan bay fun c =>
    if c.st = .latched && !c.byFet then PwrChan.autostart auto { c with st := c.presence, retries := 0 } else c

def execBaypwrClear (bay : Nat) (s : State) : Host.Outcome State Fault Refusal := .next (baypwrClear bay s)

/-- A write of BAYPWR_CTRL: OFF wins over CYCLE, and CYCLE over ON and CLEAR (R453). -/
def baypwrCtrl (bay v : Nat) (s : State) : State :=
  if bit v 1 then baypwrOff bay s
  else if bit v 2 then baypwrCycle bay s
  else
    let s := if bit v 3 then baypwrClear bay s else s
    if bit v 0 then baypwrOn bay s else s

/-- A channel at the entry into ISLAND: any state but EMPTY and LATCHED goes to DISABLED; one that was commanded off
stays so (R430). -/
def PwrChan.islandOff (tick : Nat) (c : PwrChan) : PwrChan :=
  match c.st with
  | .empty | .latched => c
  | .disabled => if c.offBy = .cycle then { c with offBy := .island } else c
  | _ => { c.stop tick .disabled with offBy := .island }

/-- Every channel to DISABLED by ISLAND (R430, R461 step 2). -/
def disableAllBays (s : State) : State :=
  { s with pwr := { s.pwr with chans := s.pwr.chans.map (PwrChan.islandOff s.aonTick) } }

/-- Exit from ISLAND: channels that ISLAND disabled go to what presence gives, and SEATED ones start when autostart is in
force (R430). -/
def releaseAllBays (s : State) : State :=
  let auto := s.autoOn
  let cs := s.pwr.chans.map fun c =>
    PwrChan.autostart auto (if c.st = .disabled && c.offBy = .island then { c with st := c.presence } else c)
  { s with pwr := { s.pwr with chans := cs } }

/-- Every SEATED channel starts when autostart comes into force (R450). -/
def autostartAll (s : State) : State :=
  if s.autoOn then { s with pwr := { s.pwr with chans := s.pwr.chans.map (PwrChan.autostart true) } } else s

/-- VOUT exceeds VCH: GATE_OR turns off (R426, R427). -/
def bayOrReverse (bay : Nat) (s : State) : State :=
  s.modPchan bay fun c => if c.orOn then { c with orOn := false, evt := setBit c.evt 5 } else c

def execBayOrReverse (bay : Nat) (s : State) : Host.Outcome State Fault Refusal := .next (bayOrReverse bay s)

end Sys2Proof.Machine
end

