-- ==== Sys2Proof/Machine/MbxOps.lean ====
section
/-! DEFINITION. How a mailbox request is taken, checked and answered (R372 to R386): shared by every command. -/

namespace Sys2Proof.Machine

/-- What a command answers: STATUS, DETAIL and the body (R376). -/
structure Answer where
  status : Nat := 0
  detail : Nat := 0
  body : List Byte := []
  deriving DecidableEq, Repr, Inhabited

/-- A bare status. -/
def Answer.st (status : Nat) : Answer := { status }

/-- ST_OK with a body. -/
def Answer.ok (body : List Byte := []) : Answer := { status := Code.stOk, body }

/-- A row of the command catalogue (R394, R389, R397, R475, R502): opcode, least privilege, PROVISION only, served by
the AON controller (R382), and body length. -/
structure CmdRow where
  opcode : Nat
  priv : Nat
  provision : Bool
  aon : Bool
  len : Nat
  deriving DecidableEq, Repr, Inhabited

/-- The System, fuse and OTP commands. -/
def catalogue0 : List CmdRow :=
  [ ⟨0x0101, 0, false, true, 0⟩, ⟨0x0102, 0, false, false, 6⟩, ⟨0x0103, 0, false, false, 4⟩,
    ⟨0x0104, 1, false, false, 32⟩, ⟨0x0105, 0, false, false, 6⟩, ⟨0x0106, 2, false, false, 1⟩,
    ⟨0x0107, 2, false, false, 36⟩, ⟨0x0108, 0, false, false, 2⟩, ⟨0x0110, 0, false, true, 0⟩,
    ⟨0x0111, 2, true, false, 32⟩, ⟨0x0112, 2, true, false, 52⟩, ⟨0x0113, 2, true, false, 1⟩,
    ⟨0x0114, 2, true, false, 0⟩, ⟨0x0118, 2, true, false, 124⟩, ⟨0x0119, 2, true, false, 0⟩,
    ⟨0x011A, 2, true, false, 1⟩ ]

/-- The namespace, bay and group commands. -/
def catalogue1 : List CmdRow :=
  [ ⟨0x0201, 1, false, false, 32⟩, ⟨0x0202, 1, false, false, 2⟩, ⟨0x0203, 1, false, false, 16⟩,
    ⟨0x0204, 1, false, false, 48⟩, ⟨0x0205, 1, false, false, 408⟩, ⟨0x0206, 1, false, false, 224⟩,
    ⟨0x0207, 0, false, false, 2⟩, ⟨0x0301, 0, false, true, 1⟩, ⟨0x0302, 1, false, true, 2⟩,
    ⟨0x0303, 1, false, false, 2⟩, ⟨0x0401, 1, false, false, 100⟩, ⟨0x0402, 2, false, false, 1⟩,
    ⟨0x0403, 1, false, false, 4⟩, ⟨0x0404, 2, false, false, 8⟩, ⟨0x0405, 0, false, false, 1⟩,
    ⟨0x0406, 0, false, false, 10⟩ ]

/-- The Scrim, Keying, mode, black-box, parameter, firmware and event commands. PARAM_SET's privilege is per entry
(R388); the lists' lengths follow from their counts (`lengthOk`). -/
def catalogue2 : List CmdRow :=
  [ ⟨0x0501, 1, false, false, 4⟩, ⟨0x0502, 2, false, false, 8⟩, ⟨0x0503, 1, false, false, 1⟩,
    ⟨0x0601, 2, false, false, 36⟩, ⟨0x0602, 0, false, false, 2⟩, ⟨0x0603, 2, false, false, 8⟩,
    ⟨0x0604, 2, false, false, 2⟩, ⟨0x0701, 0, false, true, 0⟩, ⟨0x0702, 1, false, true, 1⟩,
    ⟨0x0703, 1, false, true, 16⟩, ⟨0x0704, 0, false, true, 0⟩, ⟨0x0801, 0, false, true, 6⟩,
    ⟨0x0802, 2, true, false, 0⟩, ⟨0x0901, 0, false, false, 4⟩, ⟨0x0902, 1, false, false, 4⟩,
    ⟨0x0903, 1, false, false, 0⟩, ⟨0x0904, 1, false, false, 0⟩, ⟨0x0905, 0, false, false, 4⟩,
    ⟨0x0906, 1, false, false, 0⟩, ⟨0x0907, 2, false, false, 0⟩, ⟨0x0A01, 2, false, false, 4⟩,
    ⟨0x0A02, 2, false, false, 8⟩, ⟨0x0A03, 2, false, false, 0⟩, ⟨0x0A04, 2, false, false, 1⟩,
    ⟨0x0A05, 2, false, false, 1⟩, ⟨0x0A06, 0, false, false, 0⟩, ⟨0x0A07, 2, false, false, 0⟩,
    ⟨0x0B01, 0, false, false, 28⟩, ⟨0x0B02, 0, false, false, 32⟩ ]

/-- The command catalogue. -/
def catalogue : List CmdRow := catalogue0 ++ catalogue1 ++ catalogue2

/-- The row of an opcode. -/
def cmdRow (opcode : Nat) : Option CmdRow := catalogue.find? fun r => r.opcode == opcode

/-- LENGTH is right for the command: the row's, or the row's plus what the request's own count asks for. -/
def lengthOk (r : CmdRow) (m : List Byte) : Bool :=
  let b := reqBody m
  let n := reqLength m
  if r.opcode = 0x0901 then n == 4 + 2 * leAt b 0 2
  else if r.opcode = 0x0902 then n == 4 + 16 * leAt b 0 2
  else if r.opcode = 0x0A02 then n == 8 + leAt b 4 4
  else n == r.len

/-- Fields of a body that its layout calls reserved are zero (R377 check 1, R389, R475). -/
def bodyClean (m : List Byte) : Bool :=
  let b := reqBody m
  let op := reqOpcode m
  if op = 0x0901 then leAt b 3 1 == 0
  else if op = 0x0902 then leAt b 3 1 == 0 && (List.range (leAt b 0 2)).all fun i => leAt b (4 + 16 * i + 2) 2 == 0
  else if op = 0x0703 then leAt b 3 1 == 0
  else true

/-- The commands that recovery serves (R507). -/
def recoveryCommands : List Nat := [0x0101, 0x0A01, 0x0A02, 0x0A03, 0x0A04, 0x0A06]

/-- The command is allowed in the current mode (R384, R394, R507). -/
def modeAllows (r : CmdRow) (c : Nat) (s : State) : Bool :=
  (!r.provision || decide (s.mode.mode = .provision)) &&
    (!s.fw.recovery || (c == 0 && recoveryCommands.contains r.opcode))

/-- Privilege that a channel has: CUSTODIAN on BAR2 channel 0 in recovery (R507), else its parameter. -/
def State.chanPriv (s : State) (c : Nat) : Nat := if s.fw.recovery && c == 0 then 2 else s.privilege c

/-- The first failure of the checks of R377, in their order. -/
def requestError (c : Nat) (m : List Byte) (s : State) : Option Nat :=
  if reqChannel m ≠ c || !reqHeaderClean m || !bodyClean m then some Code.stBadField
  else if 4064 < reqLength m then some Code.stBadLength
  else match cmdRow (reqOpcode m) with
    | none => some Code.stBadOpcode
    | some r =>
      if !lengthOk r m then some Code.stBadLength
      else if s.chanPriv c < reqPriv m || s.chanPriv c < r.priv || reqPriv m < r.priv then some Code.stPrivilege
      else if !modeAllows r c s then some Code.stMode
      else none

/-- The channel carries a taken request of this opcode, it is the first in the command order, and the data die runs it (R383). -/
def readyFor (c opcode : Nat) (s : State) : Bool :=
  let ch := s.chan c
  decide (ch.state = .busy) && !ch.waiting && !ch.aonHeld && reqOpcode ch.req == opcode && s.ddRuns && s.mbx.order.head? == some c

/-- A request is executed: the checks of R377, the command's own effect, its answer, and what follows the answer. A
command that answers nothing yet (EVENT_WAIT) gives none. -/
def serveThen (c opcode : Nat) (run : List Byte → State → Option Answer × State) (after : State → State) (s : State) :
    State :=
  if readyFor c opcode s then
    match requestError c (s.chan c).req s with
    | some st => answer c st 0 [] s
    | none =>
      match run (reqBody (s.chan c).req) s with
      | (some a, s') => after (answer c a.status a.detail a.body s')
      | (none, s') => s'
  else s

/-- A request is executed and answered. -/
def serve (c opcode : Nat) (run : List Byte → State → Answer × State) (s : State) : State :=
  serveThen c opcode (fun b s => let r := run b s; (some r.1, r.2)) id s

/-- A request that only reads. -/
def serveRead (c opcode : Nat) (f : List Byte → State → Answer) (s : State) : State :=
  serve c opcode (fun b s => (f b s, s)) s

/-! ### Jobs (R383) -/

/-- A job starts: ST_STARTED with its number, or ST_BUSY while 8 run. `begin` is what the job does at once, given its
number; `final` is the status it will finish with. -/
def startJob (opcode subject arg final : Nat) (start : Nat → State → State) (body : List Byte) (s : State) :
    Answer × State :=
  if 8 ≤ (s.mbx.jobs.filter Job.running).length then (.st Code.stBusy, s)
  else
    let n := s.mbx.nextJob
    let j : Job := { num := n, opcode, status := final, subject, arg }
    let s1 := { s with mbx := { s.mbx with jobs := s.mbx.jobs ++ [j], nextJob := n % 65535 + 1,
                                           jobsRun := (s.mbx.jobsRun + 1) % 2 ^ 64 } }
    ({ status := Code.stStarted, detail := n, body }, start n s1)

/-! ### Taking a request (R373, R379 to R382) -/

/-- The message in a channel's BAR2 request area: header, and as much body as LENGTH states. -/
def areaMessage (c : Nat) (m : Memory) : List Byte :=
  let h := Memory.readN m (c * 0x2000) 32
  h ++ Memory.readN m (c * 0x2000 + 32) (Nat.min 4064 (reqLength h))

/-- Core 0 takes a channel's request: it is the last in the command order (R383). -/
def enqueueReq (c : Nat) (s : State) : State := { s with mbx := { s.mbx with order := s.mbx.order.filter (· != c) ++ [c] } }

/-- A request is taken: the channel is BUSY with it. -/
def takeRequest (c : Nat) (m : List Byte) (s : State) : State :=
  let s1 := s.modChan c fun h => { h with state := .busy, req := m }
  enqueueReq c { s1 with mbx := { s1.mbx with requests := (s1.mbx.requests + 1) % 2 ^ 64 } }

/-- A taken request that fails R377 is answered at once. -/
def rejectBad (c : Nat) (s : State) : State :=
  match requestError c (s.chan c).req s with
  | some st => answer c st 0 [] s
  | none => s

/-- EV_MBX_AUTH_FAIL, at most once per minute per channel (R379). -/
def authFailed (c : Nat) (s : State) : State :=
  let s := { s with mbx := { s.mbx with authFail := (s.mbx.authFail + 1) % 2 ^ 64 } }
  if s.passed (s.chan c).authTold 60000000 then
    raise Code.evMbxAuthFail Kind.chan c [] (s.modChan c fun h => { h with authTold := some s.clock })
  else s

/-- How SEQ is handled on MP, SMBus and Scrim (R379): a new SEQ is accepted, an equal one gets the cached response
again, a lower one is dropped. A message that arrives while the channel carries one is dropped, and so is a repeated one whose
answer was lost with a reset of the data die (log 14). -/
def acceptSeq (c addr port : Nat) (m : List Byte) (held : Bool) (s : State) : State :=
  let ch := s.chan c
  let fresh := match ch.lastSeq with | none => true | some q => decide (q < reqSeq m)
  if fresh then
    if ch.state = .idle then
      let s1 := s.modChan c fun h => { h with lastSeq := some (reqSeq m), fromAddr := addr, fromPort := port }
      let s2 := takeRequest c m s1
      if held then (s2.unqueue c).modChan c fun h => { h with aonHeld := true } else rejectBad c s2
    else s
  else if ch.lastSeq = some (reqSeq m) then
    if ch.cached = [] || ch.state ≠ .idle || leAt ch.cached 4 4 ≠ reqSeq m then s
    else deliver c ch.cached (s.modChan c fun h => { h with fromAddr := addr, fromPort := port })
  else authFailed c s

/-- MBX_DOORBELL.RING (R373, R401): an IDLE channel takes the request in its area; a BUSY or DONE one sets OVERRUN; a
channel not bound to BAR2 drops the write. -/
def mbxDoorbell (c : Nat) (s : State) : State :=
  if s.transport c = 1 && decide (c < 64) && s.ddRuns then
    if (s.chan c).state = .idle then rejectBad c (takeRequest c (areaMessage c s.mbx.bar2) s)
    else s.modChan c fun h => { h with overrun := true }
  else s

def execMbxDoorbell (c : Nat) (s : State) : Host.Outcome State Fault Refusal := .next (s.hostWrite (mbxDoorbell c s))

/-- MBX_ACK.ACK (R373, R401). -/
def mbxAck (c : Nat) (s : State) : State :=
  if s.transport c = 1 && (s.chan c).state = .done then s.modChan c fun h => { h with state := .idle } else s

def execMbxAck (c : Nat) (s : State) : Host.Outcome State Fault Refusal := .next (s.hostWrite (mbxAck c s))

/-- A write into BAR2 (R372, R374): the request area of a BAR2 channel takes it byte by byte unless the channel is
BUSY, when it is dropped and counted; response areas and areas of other channels drop it. -/
def bar2AreaWrite (off : Nat) (data : List Byte) (s : State) : State :=
  let c := off / 0x2000
  if off % 0x2000 < 0x1000 && s.transport c = 1 && decide (c < 64) then
    if (s.chan c).state = .busy then { s with mbx := { s.mbx with areaDrops := (s.mbx.areaDrops + 1) % 2 ^ 64 } }
    else { s with mbx := { s.mbx with bar2 := Memory.writeN s.mbx.bar2 off (data.take (0x1000 - off % 0x2000)) } }
  else s

def execBar2AreaWrite (off : Nat) (data : List Byte) (s : State) : Host.Outcome State Fault Refusal :=
  .next (s.hostWrite (bar2AreaWrite off data s))

/-- A read of BAR2 (R372): a channel not bound to BAR2 reads as zero. -/
def State.bar2Read (s : State) (off : Nat) : Byte :=
  if s.transport (off / 0x2000) = 1 then Memory.read s.mbx.bar2 off else 0

/-- A mailbox datagram on MP: the message and its CMAC (R379). It reaches the AON controller first, which holds it
(R382). -/
def mbxMpRequest (addr port : Nat) (datagram : List Byte) (s : State) : State :=
  let m := datagram.take (datagram.length - 16)
  let c := reqChannel m
  if s.transport c = 2 && 48 ≤ datagram.length then
    let cred := (s.chan c).credential
    if cred = [] || messageMac cred m ≠ datagram.drop (datagram.length - 16) then authFailed c s
    else acceptSeq c addr port m true s
  else s

def execMbxMpRequest (addr port : Nat) (datagram : List Byte) (s : State) : Host.Outcome State Fault Refusal :=
  .next (mbxMpRequest addr port datagram s)

/-- An MCTP message on SMBus: message type 0x7F, the enterprise number first, and the packet error code right, else it
is dropped (R380). -/
def mbxSmbusRequest (pecOk : Bool) (msgType : Nat) (bytes : List Byte) (s : State) : State :=
  let m := bytes.drop 4
  let c := reqChannel m
  if pecOk && msgType == 0x7F && leAt bytes 0 4 == s.paramN 0x11C2 && s.transport c == 3 && 32 ≤ m.length then
    acceptSeq c 0 0 m true s
  else s

def execMbxSmbusRequest (pecOk : Bool) (msgType : Nat) (bytes : List Byte) (s : State) : Host.Outcome State Fault Refusal :=
  .next (mbxSmbusRequest pecOk msgType bytes s)

/-- A MAILBOX Scrim frame: accepted only from the controller that `mbx.chan.<c>.peer` names, or any when it is 0
(R381). -/
def mbxScrimRequest (src devId : Nat) (m : List Byte) (s : State) : State :=
  let c := reqChannel m
  let peer := s.paramN (0x1180 + c)
  if s.transport c = 4 && (peer == 0 || peer == devId) && 32 ≤ m.length && s.ddRuns then acceptSeq c src 0 m false s else s

def execMbxScrimRequest (src devId : Nat) (m : List Byte) (s : State) : Host.Outcome State Fault Refusal :=
  .next (mbxScrimRequest src devId m s)

/-- The data die takes a request that the AON controller holds, in one exchange (R382). -/
def mbxDataDieTake (c : Nat) (s : State) : State :=
  if (s.chan c).aonHeld && s.ddRuns then rejectBad c (enqueueReq c (s.modChan c fun h => { h with aonHeld := false })) else s

def execMbxDataDieTake (c : Nat) (s : State) : Host.Outcome State Fault Refusal := .next (mbxDataDieTake c s)

/-- A background job finishes: EV_MBX_JOB_DONE with the job number, the opcode and the final status (R383). -/
def jobFinish (n : Nat) (s : State) : State :=
  match s.mbx.jobs.find? fun j => j.num == n && j.running with
  | none => s
  | some j =>
    raise Code.evMbxJobDone Kind.none 0 [j.num, j.opcode, j.status]
      { s with mbx := { s.mbx with jobs := updWhere (fun j => j.num == n && j.running)
                                             (fun j => { j with running := false, percent := 100 }) s.mbx.jobs } }

end Sys2Proof.Machine
end

