-- ==== Sys2Proof/Machine/BlackBox.lean ====
section
/-! DEFINITION. The black box (R480 to R489): commits, erases, reads, the clear, last gasps, and what a power-die
reset does with them. -/

namespace Sys2Proof.Machine

/-- A code of an FC_ table, not an EV_ table (R486: the two never share a value). -/
def isFc (code : Nat) : Bool := decide (0x0C00 ≤ code) && decide (0x11 ≤ code % 256)

/-- Sectors of the ring (R480): 510 of 16 records. -/
def ringSlots : Nat := 8160

/-- The 248 bytes of a record under its CRC (R480). -/
def bbxBody (r : BbxRec) : List Byte :=
  leBytes 2 r.code ++ leBytes 1 r.origin ++ leBytes 1 (flag r.lastGasp 0 + flag r.unlocked 1 + flag r.estimated 2) ++
    leBytes 4 r.seq ++ leBytes 8 r.ftime ++ leBytes 6 r.island ++ leBytes 1 r.kind ++ leBytes 1 0 ++ leBytes 4 r.subject ++
    leBytes 4 r.ddResets ++ padTo 208 ((r.detail.map fun d => leBytes 8 (twos 64 d)).flatten) ++ leBytes 8 0

/-- The 256 bytes of a committed record (R480). -/
def bbxBytes (r : BbxRec) : List Byte := bbxBody r ++ leBytes 4 (crc32 (bbxBody r)) ++ leBytes 4 0x3C3CC3C3

/-- The write position moves on by one slot. When it enters a sector, the next ring sector is erased, which discards the
records in it (R481). -/
def advancePos (b : BbxState) : BbxState :=
  let p := (b.pos + 1) % ringSlots
  if p % 16 = 0 then
    let ahead := (p / 16 + 1) % 510
    { b with pos := p, erasing := true, ring := b.ring.filter fun r => r.pos / 16 ≠ ahead }
  else { b with pos := p }

/-- The head record is programmed, read back and, only on a match, committed; a mismatch leaves its SEQ unused (R481).
Appends wait while a sector is being erased. -/
def bbxCommit (readBackOk : Bool) (s : State) : State :=
  match s.bbx.queue with
  | [] => s
  | r :: rest =>
    if s.bbx.erasing then s
    else
      let b := { s.bbx with queue := rest }
      let b := if readBackOk then
          { b with ring := b.ring ++ [{ r with pos := b.pos }],
                   lastFc := if isFc r.code then r.code else b.lastFc,
                   lastFcSeq := if isFc r.code then r.seq else b.lastFcSeq }
        else b
      { s with bbx := advancePos b }

def execBbxRecordCommit (readBackOk : Bool) (s : State) : Host.Outcome State Fault Refusal := .next (bbxCommit readBackOk s)

/-- The erase of the next ring sector finishes and appends resume (R481). -/
def bbxEraseDone (s : State) : State := { s with bbx := { s.bbx with erasing := false } }

def execBbxEraseDone (s : State) : Host.Outcome State Fault Refusal := .next (bbxEraseDone s)

/-- A record from firmware or Primer reaches the AON queue or is dropped (R483). -/
def execBbxRecordSubmit (r : Payload.BbxSubmit) (s : State) : Host.Outcome State Fault Refusal :=
  .next (bbx (if r.primer then 2 else 1) r.code r.kind r.subject r.detail s)

/-- BBX_OLDEST and BBX_NEWEST: SEQ of the oldest and newest committed record, 0 when there is none (R511). -/
def BbxState.oldest (b : BbxState) : Nat := match b.ring with | [] => 0 | r :: _ => r.seq
def BbxState.newest (b : BbxState) : Nat := (b.ring.getLast?.map BbxRec.seq).getD 0

/-- BBX_READ: records from the lowest committed SEQ at or above FIRST (R484, R394). COUNT is 1 to 15. -/
def bbxReadBody (b : List Byte) (s : State) : Answer :=
  let n := leAt b 4 2
  if n = 0 || 15 < n then .st Code.stRange
  else .ok (leBytes 4 s.bbx.oldest ++ leBytes 4 s.bbx.newest ++
    (((s.bbx.ring.filter fun r => leAt b 0 4 ≤ r.seq).take n).map bbxBytes).flatten)

def execBbxRead (chan : Nat) (s : State) : Host.Outcome State Fault Refusal := .next (serveRead chan 0x0801 bbxReadBody s)

/-- BBX_CLEAR: all 512 sectors erased, then FC_BBX_CLEARED with the channel and the newest SEQ before (R485). -/
def bbxClear (chan : Nat) (s : State) : State :=
  bbx 0 Code.fcBbxCleared Kind.chan chan [chan, s.bbx.newest] { s with bbx := { s.bbx with ring := [], gasps := [] } }

def execBbxClear (chan : Nat) (s : State) : Host.Outcome State Fault Refusal :=
  .next (serve chan 0x0802 (fun _ s => (.ok, bbxClear chan s)) s)

/-! ### Last gasp (R487 to R489) -/

/-- The bay channel state codes, one byte each, as the DETAIL values 4 to 6 (R488). -/
def bayStateWord (s : State) (k : Nat) : Int :=
  ((List.range 8).foldl (fun acc i => acc + (nth s.pwr.chans (8 * k + i)).st.ctorIdx * 256 ^ i) 0 : Nat)

/-- PWR_MODE as the register reads (R479). -/
def pwrModeReg (s : State) : Nat :=
  field s.mode.mode.ctorIdx 0 3 + flag s.mode.entering.isSome 3 +
    field (match s.mode.entering with | some m => m.ctorIdx | none => 0) 4 3 + flag s.mode.hold 7 + field s.mode.cause 8 8

/-- The mean of up to 8 samples; 0 with none (R447). -/
def meanOf (l : List Nat) : Nat := l.sum / l.length

/-- BAYPWR_FEED_STATUS as the register reads (R453). -/
def feedStatusReg (s : State) : Nat :=
  field s.pwr.feedA.st.ctorIdx 0 3 + field s.pwr.feedB.st.ctorIdx 3 3 + flag s.pwr.collapse 6 + field (meanOf (s.pwr.feedSamples.map fun x => x.2.2)) 16 16

/-- The last-gasp record is committed straight into the open area (R487, R488): 16 slots of one sector. -/
def lastGasp (s : State) : State :=
  let r := bbxStamp 0 Code.fcLastGasp Kind.none 0
    [pwrModeReg s, s.mode.latch, feedStatusReg s, bayStateWord s 0, bayStateWord s 1, bayStateWord s 2,
     s.bbx.lastFc + s.bbx.lastFcSeq * 2 ^ 32, s.bbx.flushLeft] s
  if s.bbx.gasps.length < 16 then
    { s with bbx := { s.bbx with gasps := s.bbx.gasps ++ [{ r with lastGasp := true }], seq := (s.bbx.seq + 1) % 2 ^ 32 } }
  else s

/-- A record placed in the ring as it stands, with its own SEQ (R489). -/
def placeRecord (b : BbxState) (r : BbxRec) : BbxState := advancePos { b with ring := b.ring ++ [{ r with pos := b.pos }] }

/-- What a power-die reset does with the black box: queued records are gone, an erase cut short runs again, SEQ resumes after the highest committed
one, and committed last gasps are copied into the ring and their area erased (R481, R489). -/
def bbxScan (b : BbxState) : BbxState :=
  let top := (b.ring ++ b.gasps).foldl (fun m r => max m r.seq) 0
  let b1 := { b with queue := [], bucket := 256, bucketAt := 0, dropped := 0, dropTold := none,
                     seq := if b.ring.isEmpty && b.gasps.isEmpty then b.seq else (top + 1) % 2 ^ 32 }
  let b2 := b.gasps.foldl placeRecord b1
  if b.gasps.isEmpty then b2 else { b2 with gasps := [], lgOpenB := !b.lgOpenB }

end Sys2Proof.Machine
end

