-- ==== Sys2Proof/Machine/Fuses.lean ====
section
/-! DEFINITION. OTP settings, security fuses and their commands (R497 to R502). -/

namespace Sys2Proof.Machine

/-! ### OTP (R497, R498) -/

/-- A generation is entirely zero, so unused (R498). -/
def otpUnused (g : List Byte) : Bool := allZero g

/-- A generation qualifies: MARKER 0xA5, VOID 0, CRC over bytes 4 to 127 right (R498). -/
def otpQualifies (g : List Byte) : Bool :=
  leAt g 0 1 == 0xA5 && leAt g 1 1 == 0 && leAt g 2 2 == crc16 (slice g 4 124)

/-- The generation in force: the highest-numbered one that qualifies; 7 when none does (R498, R511). -/
def otpInForce (gens : List (List Byte)) : Nat :=
  match [3, 2, 1, 0].find? fun i => otpQualifies (nth gens i) with
  | some i => i
  | none => 7

/-- Field `n` of the generation read at the last power-die reset, when its valid bit is 1 (R497). -/
def FuseState.otpField (f : FuseState) (n off len : Nat) : Option Nat :=
  if f.otpGen < 4 && (leAt f.otpBytes 4 4).testBit n then some (leAt f.otpBytes off len) else none

/-- OTP_STATUS (R511). -/
def otpStatusReg (f : FuseState) : Nat :=
  otpInForce f.otp +
    (List.range 4).foldl (fun v i => v + flag (!otpUnused (nth f.otp i)) (3 + i)
      + flag ((leAt (nth f.otp i) 1 1).testBit 0) (7 + i)) 0

/-- The LOCKED bay-power values that OTP gives: parameter number, OTP field, offset, length, signed (R450, R497). -/
def otpParams : List (Nat × Nat × Nat × Nat × Bool) :=
  [(0x9010, 4, 16, 2, false), (0x9011, 5, 18, 1, false), (0x9016, 6, 19, 1, true), (0x9012, 7, 20, 2, false),
   (0x9014, 8, 22, 2, false), (0x9013, 9, 24, 4, false), (0x9015, 10, 28, 2, false)]

/-- The generation in force is read, and its bay-power fields become the LOCKED values (R450, R498). -/
def loadOtp (s : State) : State :=
  let g := otpInForce s.fuse.otp
  let s1 := { s with fuse := { s.fuse with otpGen := g, otpBytes := nth s.fuse.otp g } }
  otpParams.foldl (fun s p =>
    match s.fuse.otpField p.2.1 p.2.2.1 p.2.2.2.1 with
    | some v => s.putParam p.1 (if p.2.2.2.2 then ofTwos 8 v else v) 1
    | none => s.putParam p.1 (paramDefault p.1) 1) s1

/-! ### Fuses (R499 to R501) -/

/-- A hash's two bits in FUSE_STATUS.HASHES (R511). -/
def hashCode (f : FuseState) (i : Nat) : Nat :=
  let h := nth f.hashes i
  if h.bad then 3 else if !h.programmed then 0 else if blown (nth f.revoke i) then 2 else 1

/-- FUSE_STATUS (R511). -/
def fuseStatusReg (f : FuseState) : Nat :=
  f.lifecycle + flag (blown f.debugLock) 2 + flag (blown f.writeLock) 3 + field f.rootSt.ctorIdx 4 2 +
    (List.range 4).foldl (fun v i => v + field (hashCode f i) (6 + 2 * i) 2) 0 + field f.rollbackCount 16 8

/-- A fuse write reported: FC_FUSE_WRITE with the command, the channel and the result, and the command's status
(R501, R502). -/
def fuseDone (opcode chan : Nat) (ok : Bool) (s : State) : Answer × State :=
  (.st (if ok then Code.stOk else Code.stInternal),
   bbx 0 Code.fcFuseWrite Kind.chan chan [opcode, chan, if ok then 0 else 1] s)

/-- The fuses of a majority group that a blow adds: all of them when the read-back matches, an open pattern when it does
not (R501). A blown fuse stays blown. -/
def blowGroup (ok : Bool) (s : State) : Nat := if ok then 0xFF else s.freeNat % 256

/-- The fuse bank changed. -/
def State.modFuse (s : State) (f : FuseState → FuseState) : State := { s with fuse := f s.fuse }

/-- FUSE_STATUS: the registers, the device ID and the raw rollback fuses (R502). -/
def fuseStatusBody (_ : List Byte) (s : State) : Answer :=
  .ok (leBytes 4 (fuseStatusReg s.fuse) ++ leBytes 4 (otpStatusReg s.fuse) ++ leBytes 8 s.fuse.deviceId ++
    leBytes 16 s.fuse.rollback)

def execFuseStatus (chan : Nat) (s : State) : Host.Outcome State Fault Refusal :=
  .next (serveRead chan 0x0110 fuseStatusBody s)

/-- FUSE_ROOT_KEY: only in BLANK and only once (R502). A read-back mismatch is within what the ECC corrects, or not: open (R501). -/
def fuseRootKey (chan : Nat) (ok : Bool) (b : List Byte) (s : State) : Answer × State :=
  if s.fuse.lifecycle ≠ 0 || s.fuse.rootSt ≠ .unprogrammed || blown s.fuse.writeLock then (.st Code.stLocked, s)
  else
    let lost := !ok && s.freeNat / 2 ^ 256 % 2 = 1
    fuseDone 0x0111 chan ok
      ((s.modFuse fun f => { f with root := if lost then s.freeNat % 2 ^ 256 else leAt b 0 32,
                                    rootSt := if ok then .good else if lost then .uncorrectable else .corrected }).drew)

def execFuseRootKey (chan : Nat) (readBackOk : Bool) (s : State) : Host.Outcome State Fault Refusal :=
  .next (serve chan 0x0111 (fuseRootKey chan readBackOk) s)

/-- FUSE_KEY_HASH: only an unprogrammed hash, before WRITE_LOCK (R502). A mismatch is within what the ECC corrects, or not: open. -/
def fuseKeyHash (chan : Nat) (ok : Bool) (b : List Byte) (s : State) : Answer × State :=
  let i := leAt b 0 1
  if 3 < i then (.st Code.stRange, s)
  else if (nth s.fuse.hashes i).programmed || blown s.fuse.writeLock then (.st Code.stLocked, s)
  else fuseDone 0x0112 chan ok
    ((s.modFuse fun f => { f with hashes := upd f.hashes i fun _ =>
      { programmed := true, bad := !ok && s.freeNat % 2 == 1, value := leAt b 4 48 } }).drew)

def execFuseKeyHash (chan : Nat) (readBackOk : Bool) (s : State) : Host.Outcome State Fault Refusal :=
  .next (serve chan 0x0112 (fuseKeyHash chan readBackOk) s)

/-- FUSE_LIFECYCLE: the transitions of R500 that the command makes, none once WRITE_LOCK is blown (R501). -/
def fuseLifecycle (chan : Nat) (ok : Bool) (b : List Byte) (s : State) : Answer × State :=
  let tgt := leAt b 0 1
  let now := s.fuse.lifecycle
  let g := blowGroup ok s
  if blown s.fuse.writeLock then (.st Code.stLocked, s)
  else if tgt = 1 && now = 0 && (s.fuse.rootSt = .good || s.fuse.rootSt = .corrected) &&
      s.fuse.hashes.any (fun h => h.programmed && !h.bad) then
    fuseDone 0x0113 chan ok ((s.modFuse fun f => { f with provisioned := f.provisioned ||| g }).drew)
  else if tgt = 2 && now = 1 then
    fuseDone 0x0113 chan ok ((s.modFuse fun f =>
      { f with deployed := f.deployed ||| g, debugLock := f.debugLock ||| g, writeLock := f.writeLock ||| g }).drew)
  else if tgt = 3 && now ≤ 1 then fuseDone 0x0113 chan ok ((s.modFuse fun f => { f with retired := f.retired ||| g }).drew)
  else (.st Code.stLocked, s)

def execFuseLifecycle (chan : Nat) (readBackOk : Bool) (s : State) : Host.Outcome State Fault Refusal :=
  .next (serve chan 0x0113 (fuseLifecycle chan readBackOk) s)

/-- FUSE_DEBUG_LOCK: only before WRITE_LOCK (R501, R502). -/
def fuseDebugLock (chan : Nat) (ok : Bool) (_ : List Byte) (s : State) : Answer × State :=
  if blown s.fuse.writeLock then (.st Code.stLocked, s)
  else fuseDone 0x0114 chan ok ((s.modFuse fun f => { f with debugLock := f.debugLock ||| blowGroup ok s }).drew)

def execFuseDebugLock (chan : Nat) (readBackOk : Bool) (s : State) : Host.Outcome State Fault Refusal :=
  .next (serve chan 0x0114 (fuseDebugLock chan readBackOk) s)

/-- OTP_WRITE: the lowest-numbered generation that is entirely zero; MARKER last. A read-back mismatch leaves it
without a marker, some of its bits programmed (R498, log 3). -/
def otpWrite (chan : Nat) (ok : Bool) (b : List Byte) (s : State) : Answer × State :=
  match lowest (fun i => otpUnused (nth s.fuse.otp i)) 4 with
  | none => (.st Code.stLocked, s)
  | some i =>
    let data := padTo 124 b
    let body : List Byte := leBytes 1 0 ++ leBytes 2 (crc16 data) ++ data
    let torn : List Byte := leBytes 127 (leNat body &&& s.freeNat)
    let g : List Byte := if ok then leBytes 1 0xA5 ++ body else leBytes 1 0 ++ torn
    let s1 := s.modFuse fun f => { f with otp := upd f.otp i fun _ => g }
    if ok then (.ok (leBytes 1 i), bbx 0 Code.fcOtpWrite Kind.chan chan [i, chan] s1)
    else (.st Code.stInternal, bbx 1 Code.fcInternal Kind.chan chan [s.freeNat % 2 ^ 32] s1.drew)

def execOtpWrite (chan : Nat) (readBackOk : Bool) (s : State) : Host.Outcome State Fault Refusal :=
  .next (serve chan 0x0118 (otpWrite chan readBackOk) s)

/-- OTP_VOID: VOID in the generation in force; answers the generation now in force, 0xFF for none (R498, R502). With
none in force there is nothing to void: ST_LOCKED. -/
def otpVoid (chan : Nat) (ok : Bool) (_ : List Byte) (s : State) : Answer × State :=
  let g := otpInForce s.fuse.otp
  if 3 < g then (.st Code.stLocked, s)
  else if ok then
    let s1 := s.modFuse fun f => { f with otp := upd f.otp g fun x => x.take 1 ++ [1] ++ x.drop 2 }
    let now := otpInForce s1.fuse.otp
    (.ok (leBytes 1 (if now < 4 then now else 0xFF)), bbx 0 Code.fcOtpWrite Kind.chan chan [g, chan] s1)
  else (.st Code.stInternal, bbx 1 Code.fcInternal Kind.chan chan [s.freeNat % 2 ^ 32] s.drew)

def execOtpVoid (chan : Nat) (readBackOk : Bool) (s : State) : Host.Outcome State Fault Refusal :=
  .next (serve chan 0x0119 (otpVoid chan readBackOk) s)

/-- OTP_READ: one generation's bytes (R502). -/
def otpReadBody (b : List Byte) (s : State) : Answer :=
  let i := leAt b 0 1
  if 3 < i then .st Code.stRange else .ok (nth s.fuse.otp i)

def execOtpRead (chan : Nat) (s : State) : Host.Outcome State Fault Refusal := .next (serveRead chan 0x011A otpReadBody s)

end Sys2Proof.Machine
end

