-- ==== Sys2Proof/Machine/Resets.lean ====
section
/-! DEFINITION. What a reset of the data die clears and what it keeps (R16, R382, R393, R456, R476, R490, R508). -/

namespace Sys2Proof.Machine

/-- Parameters that the AON controller holds: they stay through data-die resets (R450, R476, R508). -/
def aonParam (n : Nat) : Bool :=
  (0x9001 ≤ n && n ≤ 0x9022) || (0x9200 ≤ n && n ≤ 0x9207) || (0xA001 ≤ n && n ≤ 0xA002)

/-- A mailbox channel after a data-die reset: idle, its stage gone (R392). What MP and SMBus keep in the AON controller, the
credential, the last SEQ and the cached response, stays (R379, R382; log 14). -/
def Chan.afterReset (aon : Bool) (c : Chan) : Chan :=
  if aon then { lastSeq := c.lastSeq, cached := c.cached, credential := c.credential, fromAddr := c.fromAddr, fromPort := c.fromPort }
  else { credential := c.credential }

/-- Everything that the data die holds goes: the power die, the SPI NOR, OTP and the fuses keep theirs. -/
def clearDataDie (s : State) : State :=
  { s with
    sys := { s.sys with linkUp := false, linkTimeout := false, linkDownSeen := false, replays := 0, trains := 0, posted := [] }
    time := {}
    tregs := {}
    par := { vals := s.par.vals.filter fun v => aonParam v.num, store := s.par.store, defaultsMark := s.par.defaultsMark }
    mbx := { chans := s.mbx.chans.zipIdx.map fun p => p.1.afterReset (s.transport p.2 == 2 || s.transport p.2 == 3) }
    fw := { imageA := s.fw.imageA, imageB := s.fw.imageB, recs := s.fw.recs, reason := s.fw.reason,
            trialGaveUp := s.fw.trialGaveUp, halted := s.fw.halted }
    ep := { perst := s.ep.perst }
    flush := { before := s.flush.before }
    groups := List.replicate 6 {}
    flash := {}
    host := {}
    net := {}
    scrim := {}
    ciph := {} }

/-- DD_RST_N is asserted with a reason for SYS_BOOT: HOLD is loaded with the inverse of `pwr.service.auto`, CAUSE returns to
0, the fabric time last known is kept with the island counter of that instant while the data die still ran (R34), the data-die reset count rises, and the controller is on its way to STANDBY (R394, R456, R457, R511). -/
def dataDieReset (reason : Nat) (s : State) : State :=
  let s1 := clearDataDie s
  { s1 with
    fw := { s1.fw with reason }
    mode := { s1.mode with lastFab := if s.pins.ddReset then s.mode.lastFab else s.aonStamp,
                           lastIsl := if s.pins.ddReset then s.mode.lastIsl else s.island, entering := some .standby, hold := decide (s.paramN 0x9200 = 0), cause := 0, toHand := [],
                           resetAfter := none, avs := none, avsLower := none, resumeOpen := false }
    pins := { s1.pins with ddReset := true, pfWarn := false, statusLed := 0, bayLed := 0 }
    bbx := { s1.bbx with ddResets := (s1.bbx.ddResets + 1) % 2 ^ 32, flushLeft := 0xFFFFFFFF } }

end Sys2Proof.Machine
end

