-- ==== Sys2Proof/Machine/ModeOps.lean ====
section
/-! DEFINITION. Steps that mode changes share: entry into ISLAND, wakes (R461 to R464). -/

namespace Sys2Proof.Machine

def State.modMode (s : State) (f : ModeState → ModeState) : State := { s with mode := f s.mode }

/-- An island supply is present: AUX_12V or PoE (R470). -/
def ModeState.islandSupply (m : ModeState) : Bool := m.aux || m.poe

/-- Steps 3 and 4 of R461: T_e and C_e recorded, DD_RST_N low, MAIN_EN removed. From C_e on the counter counts a stay unbroken:
CNT_VALID (R472; DESIGN CHOICE, log 38). -/
def islandTail (s : State) : State :=
  let te := s.aonStamp
  let s2 := s.modMode fun m => { m with te, ce := s.island, lastFab := te, lastIsl := s.island, cntValid := true }
  let s3 := bbx 0 Code.fcIslandEntry Kind.none 0 [te, s.island] s2
  let s4 := dataDieReset 4 s3
  { s4 with mode := { s4.mode with entering := some .island },
            pins := { s4.pins with mainEn := false } }

/-- Steps 2 to 4 of R461: bay channels DISABLED, then the rest. -/
def islandSteps (s : State) : State := islandTail (disableAllBays s)

/-- Both feeds are lost (R446, R459, R460): the flush runs first when the data die can run one and has not yet, and with an island supply the
controller is on its way to ISLAND; without one VAON goes too. -/
def feedsLost (s : State) : State :=
  if s.mode.mode = .island && s.mode.entering.isNone then s
  else if s.mode.islandSupply then
    let s1 := s.modMode fun m => { m with entering := some .island, byFeedLoss := true, toHand := [] }
    if s.ddUp && !(s.flush.active && s.flush.before.isSome) then pfWarn s1 else islandSteps s1
  else pfWarn s

/-- Qualified wakes set their bits; the AON controller acts in the next tick unless an entry is under way (R464). Wakes are
refused after an overtemperature shutdown (R523). -/
def latchWakes (bits : Nat) (s : State) : State :=
  if s.pins.overtempHold || bits = 0 then s
  else
    let s1 := s.modMode fun m => { m with latch := m.latch ||| bits }
    if s.mode.entering.isSome then s1 else actOnWake false s1

/-- One qualified wake (R463). -/
def latchWake (i : Nat) (s : State) : State := latchWakes (2 ^ i) s

end Sys2Proof.Machine
end

