-- ==== Sys2Proof/Machine/Endpoint.lean ====
section
/-! DEFINITION. The attached-host endpoint (13): configuration space, the peer window, MSI-X, power states and resets. -/

namespace Sys2Proof.Machine

/-- The endpoint changed. -/
def State.modEp (s : State) (f : EpState → EpState) : State := { s with ep := f s.ep }

/-! ### Readiness and BAR4's size (R404, R406) -/

/-- The newest valid copy of the parameter store (R393). -/
def ParamState.newest (p : ParamState) : Option StoreCopy :=
  p.store.foldl (fun best c => if c.valid then
    (match best with | none => some c | some b => if b.seq < c.seq then some c else best) else best) none

/-- BAR4's size code, from the first source that exists: a valid copy of the parameter store, OTP, 16 MiB (R406).
`stored` says that firmware has loaded the store. -/
def bar4Size (stored : Bool) (s : State) : Nat :=
  let otp := match s.fuse.otpField 2 12 1 with | some v => if v ≤ 5 then v else 2 | none => 2
  if stored then
    match s.par.newest with
    | some c => (match c.values.find? fun v => v.num == 0x1200 with | some v => v.val.toNat | none => 2)
    | none => otp
  else otp

/-- CFG_READY is set. BAR4's size is latched with it unless it has been since the last fundamental reset (R404, R406). -/
def setCfgReady (stored : Bool) (s : State) : State :=
  if s.ep.cfgReady then s else s.modEp fun e =>
    { e with cfgReady := true, bar4Held := true, bar4Code := if e.bar4Held then e.bar4Code else bar4Size stored s }

/-- Bytes in BAR4: 4 MiB × 2^code (R424). -/
def EpState.bar4Bytes (e : EpState) : Nat := 2 ^ (22 + e.bar4Code)

/-! ### Configuration space (R403, R405) -/

/-- A BAR's low dword: the writable address bits and the type bits (R405). -/
def barLow (addr type : Nat) : Nat := addr % 2 ^ 32 + type

/-- A register of which the spec gives the bits of a mask: those are `v`, the others a free value (log 135). -/
def State.freeBits (s : State) (mask v : Nat) : Nat := s.freeNat % 2 ^ 32 - (s.freeNat % 2 ^ 32 &&& mask) + v

/-- A configuration read (R402, R403, R405): the standard header; PME from D3hot and D3cold and neither D1 nor D2; an Endpoint with FLR, 512 B
of payload, 10-bit tags, 64 GT/s × 16 and no ASPM; the MSI-X table and pending bits in BAR0 (R416). What the spec does not give reads as a
free value (log 135). -/
def cfgRead (r : Payload.CfgReg) (s : State) : Nat :=
  let c := s.ep.cfg
  match r with
  | .header off =>
    if off = 0x00 then 0x24001F8C
    else if off = 0x04 then 0x00100000 + c.command % 0x10000
    else if off = 0x08 then 0x058000B0
    else if off = 0x10 then barLow c.bar0 0b0100
    else if off = 0x14 then c.bar0 / 2 ^ 32
    else if off = 0x18 then barLow c.bar2 0b0100
    else if off = 0x1C then c.bar2 / 2 ^ 32
    else if off = 0x20 then barLow c.bar4 0b1100
    else if off = 0x24 then c.bar4 / 2 ^ 32
    else if off = 0x2C then
      ((s.fuse.otpField 1 10 2).getD 0x2400) * 0x10000 + (s.fuse.otpField 0 8 2).getD 0x1F8C
    else if off = 0x34 then s.freeNat % 0x100
    else 0
  | .pmc => (s.freeBits 0xC600 0xC000) % 0x10000
  | .pcieCap => (s.freeBits 0x00F0 0) % 0x10000
  | .devCap => s.freeBits 0x10000007 0x10000002
  | .devCap2 => s.freeBits 0x00030000 0x00030000
  | .devCtl => c.devCtl
  | .linkCap => s.freeBits 0x00000FFF 0x00000106
  | .aerCorr => s.freeBits 0x00002000 (flag c.advisory 13)
  | .msixTable => 0x00038000
  | .msixPba => 0x00039000
  | .pmcsr =>
    (match s.ep.dstate with | .d0 => 0 | _ => 3) + 8 + flag c.pmeEn 8 + flag c.pmeStatus 15
  | .msixControl => 63 + flag c.funcMask 14 + flag c.msixEn 15
  | .serialLo => s.fuse.deviceId % 2 ^ 32
  | .serialHi => s.fuse.deviceId / 2 ^ 32
  | .other _ => s.freeNat % 2 ^ 32

/-- One message for every vector that is pending and no longer masked (R417). -/
def sendPending (s : State) : State :=
  (List.range 64).foldl (fun s v =>
    let e := nth s.ep.msix v
    if e.pending && !e.mask && !s.ep.cfg.funcMask && s.ep.cfg.msixEn && s.ep.dstate = .d0 then
      (s.modEp fun p => { p with msix := upd p.msix v fun e => { e with pending := false } }).emit (.msix v e.addr e.data)
    else s) s

/-- The endpoint enters D3hot: DMA queues pause (R418). -/
def d3hotEntry (s : State) : State :=
  if s.ep.dstate = .d0 then s.modEp fun e => { e with dstate := .d3hot, dmaPaused := true } else s

def execEpD3hotEntry (s : State) : Host.Outcome State Fault Refusal := .next (d3hotEntry s)

/-- D3cold: DMA queues are abandoned; PME_En at entry is kept (R418). -/
def d3coldEntry (s : State) : State :=
  (s.modEp fun e => { e with dstate := .d3cold, linkUp := false, speed := 0, width := 0, dmaPaused := false,
                             pmeAtCold := e.cfg.pmeEn }).emit .dmaAbandoned

def execEpD3coldEntry (s : State) : Host.Outcome State Fault Refusal := .next (d3coldEntry s)

/-- Return from D3hot to D0: everything is kept, pending messages are sent, and the queues run when the link is up (R418). D3cold is left through a
fundamental reset. -/
def d0Return (s : State) : State :=
  if s.ep.dstate = .d3hot then sendPending (s.modEp fun e => { e with dstate := .d0, dmaPaused := !e.linkUp }) else s

def execEpD0Return (s : State) : Host.Outcome State Fault Refusal := .next (d0Return s)

/-- Address bits of a BAR half written, only bits from `n` upward writable (R405). -/
def barWrite (old n half v : Nat) : Nat :=
  let whole := if half = 0 then old / 2 ^ 32 * 2 ^ 32 + v % 2 ^ 32 else v % 2 ^ 32 * 2 ^ 32 + old % 2 ^ 32
  whole / 2 ^ n * 2 ^ n

/-- The configuration space changed. -/
def State.modCfg (s : State) (f : EpConfig → EpConfig) : State := s.modEp fun e => { e with cfg := f e.cfg }

/-- A configuration write (R405, R417 to R419). D1 and D2 are refused. -/
def cfgWrite (r : Payload.CfgReg) (v : Nat) (s : State) : State :=
  match r with
  | .header off =>
    if off = 0x04 then s.modCfg fun c => { c with command := v % 0x10000 }
    else if off = 0x10 then s.modCfg fun c => { c with bar0 := barWrite c.bar0 20 0 v }
    else if off = 0x14 then s.modCfg fun c => { c with bar0 := barWrite c.bar0 20 1 v }
    else if off = 0x18 then s.modCfg fun c => { c with bar2 := barWrite c.bar2 19 0 v }
    else if off = 0x1C then s.modCfg fun c => { c with bar2 := barWrite c.bar2 19 1 v }
    else if off = 0x20 then s.modCfg fun c => { c with bar4 := barWrite c.bar4 (22 + s.ep.bar4Code) 0 v }
    else if off = 0x24 then s.modCfg fun c => { c with bar4 := barWrite c.bar4 (22 + s.ep.bar4Code) 1 v }
    else s
  | .pmcsr =>
    let s1 := s.modCfg fun c => { c with pmeEn := bit v 8, pmeStatus := c.pmeStatus && !bit v 15 }
    if bits v 0 2 = 3 then d3hotEntry s1 else if bits v 0 2 = 0 then d0Return s1 else s1
  | .msixControl => sendPending (s.modCfg fun c => { c with funcMask := bit v 14, msixEn := bit v 15 })
  | .devCtl => s.modCfg fun c => { c with devCtl := v % 0x10000 }
  | .aerCorr => s.modCfg fun c => { c with advisory := c.advisory && !bit v 13 }
  | _ => s

/-- A configuration request: Request Retry Status until CFG_READY is 1 (R404), else served. None arrives in D3cold or while the data die is
in reset. -/
def configRequest (write : Bool) (r : Payload.CfgReg) (value : Nat) (s : State) : State :=
  if s.pins.ddReset || s.ep.dstate = .d3cold then s
  else if !s.ep.cfgReady then s.emit (.cfg 1 0)
  else if write then (cfgWrite r value s).emit (.cfg 0 0)
  else (s.emit (.cfg 0 (cfgRead r s))).drew

def execConfigRequest (write : Bool) (r : Payload.CfgReg) (value : Nat) (s : State) : Host.Outcome State Fault Refusal :=
  .next (configRequest write r value s)

/-! ### Resets (R420, R421) -/

/-- What every endpoint reset does: configuration space and the EP registers reset, both banks VALID 0, EPOCH 0, DMA
abandoned, EV_EP_RESET with the kind. The mailboxes and the exchange area stay. -/
def epReset (kind : Nat) (keepLink : Bool) (s : State) : State :=
  let old := s.ep
  let e : EpState :=
    { linkUp := keepLink && old.linkUp, speed := if keepLink then old.speed else 0,
      width := if keepLink then old.width else 0, cfgReady := old.cfgReady, bar4Code := old.bar4Code,
      bar4Held := old.bar4Held, perst := old.perst,
      evt := setBit old.evt 1, faultTold := old.faultTold, exchange := old.exchange, wakeLow := old.wakeLow }
  raise Code.evEpReset Kind.none 0 [kind] ({ s with ep := e }.emit .dmaAbandoned)

/-- EP_PERST_N asserts: a fundamental reset; CFG_READY is 0 until it is set again (R404, R420). D3cold lasts until the pin
deasserts, so that a PME can still drive WAKE# low (R418, R419). -/
def epPerstAssert (s : State) : State :=
  let cold := s.ep.dstate = .d3cold
  let s1 := if s.pins.ddReset then s else epReset 0 false s
  s1.modEp fun e =>
    { e with perst := true, cfgReady := false, bar4Held := false, dstate := if cold then .d3cold else .d0, pmeAtCold := cold && s.ep.pmeAtCold }

def execEpPerstAssert (s : State) : Host.Outcome State Fault Refusal := .next (epPerstAssert s)

/-- EP_PERST_N deasserts: the link trains, WAKE# is released, and firmware that has loaded the store sets CFG_READY
(R404, R419). An exit from D3cold with the pin not asserted before is a fundamental reset too (R420). -/
def epPerstDeassert (s : State) : State :=
  let s0 := if s.ep.dstate = .d3cold && !s.ep.perst then epPerstAssert s else s
  let s1 := s0.modEp fun e => { e with perst := false, wakeLow := false, dstate := .d0, pmeAtCold := false }
  if s.ddUp then setCfgReady true s1 else s1

def execEpPerstDeassert (s : State) : Host.Outcome State Fault Refusal := .next (epPerstDeassert s)

/-- 900 ms after EP_PERST_N deasserts: the endpoint sets CFG_READY itself (R404). -/
def execEpCfgReadyTimeout (s : State) : Host.Outcome State Fault Refusal :=
  .next (if s.ep.perst || s.pins.ddReset then s else setCfgReady false s)

/-- A hot reset or link disable (R420). CFG_READY falls, and firmware that has loaded the store sets it again; BAR4's size holds (R404,
R406). -/
def epHotReset (s : State) : State :=
  if s.pins.ddReset then s else
  let s1 := (epReset 1 false s).modEp fun e => { e with cfgReady := false }
  if s1.ddUp && !s1.ep.perst then setCfgReady true s1 else s1

def execEpHotReset (s : State) : Host.Outcome State Fault Refusal := .next (epHotReset s)

/-- A Function Level Reset: no retrain, and CFG_READY stays (R420). -/
def execEpFlr (s : State) : Host.Outcome State Fault Refusal := .next (if s.pins.ddReset then s else epReset 2 true s)

/-- The link goes down without a reset: configuration and window kept, DMA queues paused (R420). -/
def epLinkDown (s : State) : State :=
  if !s.ep.linkUp then s else
  raise Code.evEpLinkDown Kind.none 0 []
    (s.modEp fun e => { e with linkUp := false, speed := 0, width := 0, dmaPaused := true })

def execEpLinkDown (s : State) : Host.Outcome State Fault Refusal := .next (epLinkDown s)

/-- The link trains at any rate and width: EV_EP_LINK_UP with both (R402). It cannot while the pin holds the endpoint in reset, in D3cold, or
while the data die is in reset (R418, R420). -/
def epLinkUp (gen width : Nat) (s : State) : State :=
  if s.ep.perst || s.ep.dstate = .d3cold || s.pins.ddReset then s else
  raise Code.evEpLinkUp Kind.none 0 [gen, width]
    (s.modEp fun e => { e with linkUp := true, speed := gen, width := width, dmaPaused := e.dstate = .d3hot })

def execEpLinkUp (gen width : Nat) (s : State) : Host.Outcome State Fault Refusal := .next (epLinkUp gen width s)

/-- A DMA read completion due during link down times out: the descriptor fails (R420). -/
def execDmaReadTimeout (queue : Nat) (s : State) : Host.Outcome State Fault Refusal :=
  .next (if !s.ep.linkUp && s.ep.dmaPaused && decide (queue < 8) then s.emit (.dmaDone queue false (s.ep.roEn.testBit queue)) else s)

/-- PME_Turn_Off: PME_TO_Ack once every DMA queue is idle, or after 10 ms with the busy ones abandoned (R419). -/
def execPmeTurnOff (waitedOut : Bool) (s : State) : Host.Outcome State Fault Refusal :=
  .next ((if waitedOut then s.emit .dmaAbandoned else s).emit .pmeToAck)

/-- A DMA descriptor completes: its message follows every write of its queue, and carries no Relaxed Ordering (R415, R416). A paused queue
runs nothing. -/
def execDmaDescDone (queue : Nat) (s : State) : Host.Outcome State Fault Refusal :=
  .next (if queue < 8 && !s.ep.dmaPaused then irqRise (66 + queue) (s.emit (.dmaDone queue true (s.ep.roEn.testBit queue))) else s)

/-- A masked vector is unmasked: one pending message is sent (R417). -/
def msixUnmask (v : Nat) (s : State) : State :=
  sendPending (s.modEp fun e => { e with msix := upd e.msix v fun m => { m with mask := false } })

/-- A word of the MSI-X table (R416): message address, message data and vector control of 16 bytes for each vector, as PCIe lays them out
(log 135). -/
def msixReg (e : MsixEntry) (o : Nat) : Nat :=
  if o = 0 then e.addr % 2 ^ 32 else if o = 4 then e.addr / 2 ^ 32 else if o = 8 then e.data else flag e.mask 0

/-- A word of the MSI-X table written (R416); clearing a mask sends the pending message (R417). -/
def msixWrite (v o w : Nat) (s : State) : State :=
  let set (f : MsixEntry → MsixEntry) : State := s.modEp fun e => { e with msix := upd e.msix v f }
  if o = 0 then set fun m => { m with addr := m.addr / 2 ^ 32 * 2 ^ 32 + w / 4 * 4 }
  else if o = 4 then set fun m => { m with addr := m.addr % 2 ^ 32 + w * 2 ^ 32 }
  else if o = 8 then set fun m => { m with data := w }
  else if bit w 0 then set fun m => { m with mask := true }
  else msixUnmask v s

/-- A word of the pending-bit array (R416). -/
def pendingBits (s : State) (base : Nat) : Nat := (List.range 32).foldl (fun v i => v + flag (nth s.ep.msix (base + i)).pending i) 0

def execMsixUnmask (v : Nat) (s : State) : Host.Outcome State Fault Refusal := .next (s.hostWrite (msixUnmask v s))

/-- A read of EVT_HEAD_LO rearms the event-ring interrupt (R396, R416). -/
def rearmEvents (s : State) : State := { s with mbx := { s.mbx with evtSent := false } }

/-- A read of EVT_HEAD_LO returns SEQ bits [31:0] and rearms the event-ring interrupt (R396, R416). -/
def evtHeadRead (s : State) : State := (rearmEvents s).emit (.regRead 0x000C0000 (leBytes 4 (s.mbx.evtHead % 2 ^ 32)))

def execEvtHeadRead (s : State) : Host.Outcome State Fault Refusal :=
  .next (s.hostRead 0x000C0000 (evtHeadRead s))

/-! ### Peer window (R407 to R413) -/

/-- The host exchange area (R407). -/
def inExchange (lo hi : Nat) : Bool := decide (0x07F00000 ≤ lo) && decide (hi ≤ 0x07FFFFFF)

/-- An on-chip range lies in a region that the window may read (R407). -/
def inReadable (lo hi : Nat) : Bool := decide (hi ≤ 0x00FFFFFF) || inExchange lo hi

/-- A shadow entry fails validation (R410, R413). -/
def entryBad (we : Bool) (e : WinEntry) : Bool :=
  e.valid &&
    (e.len == 0 || decide (0x07FFFFFF < e.target * 4096 + e.len * 4096 - 1)
      || !inReadable (e.target * 4096) (e.target * 4096 + e.len * 4096 - 1)
      || (e.write && (!we || !inExchange (e.target * 4096) (e.target * 4096 + e.len * 4096 - 1))))

/-- EP_WIN_COMMIT.COMMIT (R410, R412). -/
def epWinCommit (s : State) : State :=
  let we := s.paramN 0x1201 == 1
  match lowest (fun i => entryBad we (nth s.ep.shadow i)) 128 with
  | some i => s.modEp fun e => { e with refused := true, errEntry := i }
  | none => s.modEp fun e => { e with active := e.shadow, epoch := (e.epoch + 1) % 0x10000,
                                      winPending := e.winPending || e.accessed, accessed := false }

def execEpWinCommit (s : State) : Host.Outcome State Fault Refusal := .next (s.hostWrite (epWinCommit s))

/-- The last older-epoch access finishes (R412). -/
def execWinEpochDrain (s : State) : Host.Outcome State Fault Refusal :=
  .next (s.modEp fun e => { e with winPending := false })

/-- The on-chip address of a BAR4 byte, when the active bank maps it (R408, R413). -/
def winByte (write : Bool) (s : State) (off : Nat) : Option Nat :=
  let e := nth s.ep.active (off / 2 ^ 20)
  if off < s.ep.bar4Bytes && e.valid && decide (off % 2 ^ 20 < e.len * 4096) &&
      (!write || (e.write && s.paramN 0x1201 == 1)) then
    some (e.target * 4096 + off % 2 ^ 20)
  else none

/-- NET_MIRROR_BASE: the ring ends with the packet buffer, the first 16 MiB of the SRAM, as R412's example places it (log
27). -/
def State.mirrorBase (s : State) : Nat := 0x01000000 - 160 * s.paramN 0x607E

/-- A byte of the mirror ring; a slot never written reads as zero (log 27). -/
def State.mirrorByte (s : State) (off : Nat) : Byte :=
  match s.net.mirror.find? fun x => x.slot == off / 160 with
  | some x => x.bytes.getD (off % 160) 0
  | none => 0

/-- The byte at an on-chip address that the window may read (R407). -/
def onChipByte (s : State) (a : Nat) : Byte :=
  if s.mirrorBase ≤ a && decide (a < 0x01000000) then s.mirrorByte (a - s.mirrorBase) else
  if 0x07F00000 ≤ a then Memory.read s.ep.exchange (a - 0x07F00000) else BitVec.ofNat 8 (Config.packetByte s.free a)

/-- An access that is not mapped (R409): a write is dropped, a read completes as Unsupported Request, which AER records as an advisory
non-fatal error. -/
def winFault (write : Bool) (off : Nat) (s : State) : State :=
  let first := !bit s.ep.evt 0
  let s1 := s.modEp fun e =>
    { e with errCount := satAdd 0xFFFFFFFF e.errCount 1, evt := setBit e.evt 0,
             errAddr := if first then off else e.errAddr, errWrite := if first then write else e.errWrite }
  let s2 := if first then irqRise 65 s1 else s1
  let s3 := if s2.passed s2.ep.faultTold 1000000 then
      raise Code.evEpWindowFault Kind.none 0 [] (s2.modEp fun e => { e with faultTold := some s2.clock }) else s2
  if write then s3 else (s3.modCfg fun c => { c with advisory := true }).emit (.bar4Ur off)

/-- A BAR4 access (R408, R409, R411, R418). It is mapped only when every byte it touches is. -/
def bar4Access (write : Bool) (off len : Nat) (data : List Byte) (s : State) : State :=
  if s.pins.ddReset then s else
  match s.ep.dstate with
  | .d3cold => s
  | .d3hot => if write then s else s.emit (.bar4Ur off)
  | .d0 =>
    let n := if write then data.length else len
    if (List.range n).all fun i => (winByte write s (off + i)).isSome then
      let s1 := s.modEp fun e => { e with accessed := true }
      if write then
        let put := fun (m : Memory) (i : Nat) =>
          match winByte true s (off + i) with
          | some a => Memory.write m (a - 0x07F00000) (nth data i)
          | none => m
        s1.modEp fun e => { e with exchange := (List.range n).foldl put e.exchange }
      else
        (s1.emit (.bar4Data ((List.range n).map fun i =>
          match winByte false s (off + i) with | some a => onChipByte s a | none => 0))).drew
    else winFault write off s

def execBar4Access (write : Bool) (off len : Nat) (data : List Byte) (s : State) : Host.Outcome State Fault Refusal :=
  .next (bar4Access write off len data s)

end Sys2Proof.Machine
end

