-- ==== Sys2Proof/Machine/Time.lean ====
section
/-! DEFINITION. Fabric time (02): how it advances, its sources and their election, the servo, PPS, and the reads and
writes that have rows of their own. The boundaries are in Machine/Boundaries.lean. -/

namespace Sys2Proof.Machine

/-- The TIME block changed. -/
def State.modTime (s : State) (f : TimeState → TimeState) : State := { s with time := f s.time }

/-- The TIME registers changed. -/
def State.modTregs (s : State) (f : TimeRegs → TimeRegs) : State := { s with tregs := f s.tregs }

/-! ### Advance (R34) -/

/-- `n` cycles of 1.6 GHz pass: fabric time gains the addend in each, while the data die runs (R34). -/
def pass (n : Nat) (s : State) : State :=
  { s with clock := s.clock + n,
           time := { s.time with fab := s.time.fab + (if s.pins.ddReset then 0 else n * s.time.addend) } }

/-- Cycles until fabric time reaches an instant in ns; 0 when it is there. -/
def cyclesTo (ns : Nat) (s : State) : Nat :=
  if ns * 2 ^ 32 ≤ s.time.fab then 0 else ceilDiv (ns * 2 ^ 32 - s.time.fab) (max 1 s.time.addend)

/-- Real time passes until fabric time reaches an instant. -/
def advanceTo (ns : Nat) (s : State) : State := pass (cyclesTo ns s) s

/-- The first nanosecond of slot `a % 64` of frame `a / 64` (R35). -/
def slotStart (p a : Nat) : Nat := a / 64 * p + ceilDiv (a % 64 * p) 64

/-- The number 64 f + s of the current slot. -/
def State.slotIndex (s : State) : Nat := s.frameNow * 64 + s.slotNow

/-- The addend for a frequency correction and a slew rate in parts per billion, never 0 (R34, R50). -/
def addendOf (corr slew : Int) : Nat := max 1 (0xA0000000 * (1000000000 + corr + slew) / 1000000000).toNat

/-- A frequency correction and a slew rate take force. -/
def State.setRate (s : State) (corr slew : Int) : State :=
  s.modTime fun t => { t with corrPpb := corr, slewPpb := slew, addend := addendOf corr slew }

/-! ### Sources (R43, R44) -/

/-- A source's bit in `time.src.enable` (R43); the local reference always counts as enabled. -/
def State.srcEnabled (s : State) (src : Nat) : Bool := src == 4 || (s.paramN 0x1012).testBit (src - 1)

/-- The 16 offsets lie within `thr` of the straight line fitted through them by least squares (R43). With x from 0 to
15 the sums are Σx = 120, Σx² = 1240 and the determinant 5440; all terms are kept times 5440. -/
def lineFits (thr : Int) (ys : List Int) : Bool :=
  let sy := ys.foldl (· + ·) 0
  let sxy := (ys.zipIdx.map fun p => p.1 * (p.2 : Int)).foldl (· + ·) 0
  let slope := 16 * sxy - 120 * sy
  let icept := 1240 * sy - 120 * sxy
  ys.zipIdx.all fun p => decide (((5440 * p.1 - (slope * (p.2 : Int) + icept)).natAbs : Int) ≤ thr * 5440)

/-- Cycles in a Sync interval of 2^i seconds (R43). -/
def intervalCycles (i : Int) : Nat :=
  if 0 ≤ i then 1600000000 * 2 ^ i.toNat else 1600000000 / 2 ^ (-i).toNat

/-- A PTP source after one more Sync with offset `d`. A change of interval, or an interval without a Sync, starts the count of
consecutive intervals again; a source that has qualified stays so until it is lost (R43). -/
def PtpSource.sync (q : PtpSource) (thr d : Int) (interval : Int) (clock : Nat) : PtpSource :=
  let gap := match q.last with | none => true | some c => decide (c + 2 * intervalCycles interval ≤ clock)
  let fresh := gap || interval ≠ q.interval
  let n := if fresh then 1 else Nat.min 16 (q.count + 1)
  let ys := if fresh then [d] else (q.offsets ++ [d]).drop ((q.offsets.length + 1) - 16)
  { q with count := n, offsets := ys, interval := interval, last := some clock,
           qualified := q.qualified || (n == 16 && lineFits thr ys) }

/-- The last offset measured against a source. -/
def State.srcOffset (s : State) (src : Nat) : Int :=
  if src = 1 then s.time.scrim.offsets.getLast?.getD 0
  else if src = 2 then s.time.host.offsets.getLast?.getD 0
  else if src = 3 then s.time.ppsOffset else 0

/-- A source is qualified and may be used (R43, R44): a source that was lost waits to be taken back. -/
def State.srcUsable (s : State) (src : Nat) : Bool :=
  s.srcEnabled src &&
    (if src = 1 then s.time.scrim.qualified && !s.time.scrim.lost
     else if src = 2 then s.time.host.qualified && !s.time.host.lost
     else if src = 3 then s.time.ppsQualified && !s.time.ppsLostSince else true)

/-- The highest-priority source: a grandmaster takes its best local one (R41, R44). -/
def State.bestSource (s : State) : Nat :=
  ((if s.time.gm then [2, 3, 4] else [1, 2, 3, 4]).find? fun i => s.srcUsable i).getD 4

/-- The time class for the best of sources 2 to 4 (R41). -/
def State.ownClass (s : State) : Nat :=
  if s.srcUsable 2 then 1 else if s.srcUsable 3 then 2 else if s.time.everLocked then 3 else 4

/-! ### Servo (R49 to R53) -/

/-- HOLDOVER is entered; its length starts to count. -/
def enterHoldover (s : State) : State :=
  let s1 := s.modTregs fun r => { r with holdSince := (match r.holdSince with | some c => some c | none => some s.clock) }
  (s1.modTime fun t => { t with servo := .holdover }).setRate s.time.corrPpb 0

/-- HOLDOVER is left; TIME_HOLDOVER keeps its length in ms. -/
def leaveHoldover (s : State) : State :=
  match s.tregs.holdSince with
  | none => s
  | some c => s.modTregs fun r =>
      { r with holdSince := none, holdoverMs := Nat.min 0xFFFFFFFF ((s.clock - c) / 1600000) }

/-- Slewing at an open rate in the direction of `d`, at most `time.slew.limit_ppm` (R50). -/
def enterSlewing (d : Int) (s : State) : State :=
  let limit := s.paramN 0x1017 * 1000
  let rate : Int := (s.freeNat % limit + 1 : Nat)
  (((leaveHoldover s).modTime fun t => { t with servo := .slewing }).setRate s.time.corrPpb
    (if 0 ≤ d then rate else -rate)).drew

/-- An offset is acted on (R50, R53): slewing when it is at most one frame, else HOLDOVER and a step at the next turn
boundary. An offset measured while a step is pending is acted on after it, less what the step itself will remove (R53). -/
def actOn (d : Int) (s : State) : State :=
  match s.time.stepDue with
  | some p => s.modTime fun t => { t with offsetDue := some (d - p) }
  | none =>
    if s.time.stepPending then s.modTime fun t => { t with offsetDue := some d }
    else if d.natAbs ≤ s.period then enterSlewing d s
    else (enterHoldover s).modTime fun t => { t with stepDue := some d }

/-- The pending step is over: what was measured meanwhile is acted on (R53). -/
def actOnDue (s : State) : State :=
  match s.time.offsetDue with
  | none => s
  | some d => actOn d (s.modTime fun t => { t with offsetDue := none })

/-- EV_TIME_SOURCE_CHANGED and TIME_EVT.SRC_CHANGED (R44, R53). -/
def sourceChanged (s : State) : State :=
  raise Code.evTimeSourceChanged Kind.none 0 [] (s.modTregs fun r => { r with evt := setBit r.evt 2 })

/-- TRACEABLE as a grandmaster reads it, or as the grandmaster's source gives (R41). -/
def State.traceNow (s : State) : Bool :=
  if s.time.gm then (s.time.active == 2 || s.time.active == 3) && s.srcUsable s.time.active
  else s.tregs.peers.any fun p => p.reachable && p.gmDev == s.time.gmDev && p.traceable

/-- Class and traceability follow the sources. -/
def refreshClass (s : State) : State :=
  let s1 := s.modTime fun t => { t with cls := s.ownClass }
  s1.modTime fun t => { t with traceable := s1.traceNow }

/-! ### The election (R41) -/

/-- (class, device ID) pairs in order (R41). -/
def pairLt (a b : Nat × Nat) : Bool := decide (a.1 < b.1) || (a.1 == b.1 && decide (a.2 < b.2))

/-- What an election yields: the grandmaster's class and device ID, the hops to it, and the neighbour on the way. -/
structure Elected where
  cls : Nat
  dev : Nat
  hops : Nat
  up : Nat
  deriving DecidableEq, Repr

/-- The better of two candidates: the lower pair, then the fewer hops (R41, which leaves equal paths open: log 125). -/
def Elected.better (a b : Elected) : Elected :=
  if pairLt (b.cls, b.dev) (a.cls, a.dev) || ((b.cls, b.dev) = (a.cls, a.dev) && decide (b.hops < a.hops)) then b else a

/-- The election (R41): the lowest (time class, device ID) among this controller, the reachable peers of its own period, and the
grandmasters they follow. -/
def State.elect (s : State) : Elected :=
  let own : Elected := { cls := s.ownClass, dev := s.fuse.deviceId, hops := 0, up := s.fuse.deviceId }
  (s.tregs.peers.filter fun p => p.reachable && p.periodUs * 1000 == s.period).foldl (fun best p =>
    let best := best.better { cls := p.cls, dev := p.devId, hops := 1, up := p.devId }
    if p.hops < 16 then best.better { cls := p.gmCls, dev := p.gmDev, hops := p.hops + 1, up := p.devId } else best) own

/-- The election is redone, and the source in use follows the highest-priority qualified one. A change of source or of
grandmaster is told, leaves LOCKED, and acts on the offset to the source in force (R41, R44, R45, R53). With no qualified source
left the local reference carries time: HOLDOVER after a lock or a slew, else FREERUN. -/
def reselect (s : State) : State :=
  let e := s.elect
  let gm := e.dev == s.fuse.deviceId
  let moved := e.dev ≠ s.time.gmDev || gm ≠ s.time.gm
  let s1 := s.modTime fun t =>
    { t with gm := gm, gmDev := e.dev, gmCls := e.cls, upDev := e.up, hops := if gm then 0 else e.hops }
  let b := s1.bestSource
  if b = s.time.active && !moved then refreshClass s1
  else
    let s2 := sourceChanged (refreshClass (s1.modTime fun t => { t with active := b, outside := 0 }))
    if b = s.time.active && b = 4 then s2
    else if b = 4 then (if s2.time.servo = .freerun then s2 else enterHoldover s2)
    else actOn (s2.srcOffset b) s2

/-- A source in use is lost: HOLDOVER, EV_TIME_HOLDOVER and LOCK_LOST (R49), then the next source if there is one. -/
def sourceLost (src : Nat) (s : State) : State :=
  if s.time.active = src then
    let s1 := raise Code.evTimeHoldover Kind.none 0 []
      ((enterHoldover s).modTregs fun r => { r with evt := setBit r.evt 0 })
    reselect s1
  else reselect s

/-! ### Elapsed time across ISLAND (R473, R474) -/

/-- ISLAND_TIME flags (R475). -/
def State.resumeFlags (s : State) : Nat := flag s.mode.cntValid 0 + flag s.mode.efUsed 1 + flag s.mode.unknown 2

/-- Both values, the flags and the uncertainty are written to one FC_RESUME_TIME record, and the event is raised. -/
def resumeRecord (s : State) : State :=
  let m := s.mode
  raise Code.evModeResumeTime Kind.none 0 [m.ei, m.ef, s.resumeFlags]
    (bbx 1 Code.fcResumeTime Kind.none 0 [m.ei, m.ef, m.uncUs, s.resumeFlags] s)

/-- A source qualifies within 2 s of the release: E_f = T_r − T_e − (C_r − C_d) ÷ 32,768 s. -/
def resumeQualified (d : Int) (s : State) : State :=
  if s.mode.resumeOpen then
    let tr : Int := s.nowNs + d
    let gone : Int := (s.island - s.mode.cd) * 1000000000 / 32768
    resumeRecord { s with mode := { s.mode with ef := tr - s.mode.te - gone, efUsed := true, resumeOpen := false } }
  else s

/-- 2 s after the release without a qualified source: the island estimate stands (R473). -/
def resumeTimeWindow (s : State) : State :=
  if s.mode.resumeOpen then resumeRecord { s with mode := { s.mode with efUsed := false, resumeOpen := false } } else s

def execResumeTimeWindow (s : State) : Host.Outcome State Fault Refusal := .next (resumeTimeWindow s)

/-! ### PTP in (R38 to R43) -/

/-- A new frequency correction. The spec gives the servo no algorithm, so it is free within the ±2 ppm of the reference (R49;
DESIGN CHOICE, log 124). Slewing and waiting for a step keep the last one (R50, R53). -/
def servoCorrect (s : State) : State :=
  (s.setRate ((s.freeNat % 4001 : Nat) - 2000) s.time.slewPpb).drew

/-- What follows a new measurement of a source: TIME_OFFSET and the servo when it is the source in use, a change of
source when it has become the best. -/
def measured (src : Nat) (d : Int) (newly : Bool) (s : State) : State :=
  let s0 := if newly then resumeQualified d s else s
  let before := s0.time.active
  let s1 := reselect s0
  if s1.time.active = src then
    let s2 := s1.modTregs fun r => { r with offset := clampInt 2147483647 d }
    if before ≠ src then s2
    else match s2.time.servo with
    | .locked =>
      let out := decide (s2.paramN 0x1016 < d.natAbs)
      (servoCorrect s2).modTime fun t => { t with outside := if out then t.outside + 1 else 0 }
    | .slewing => if s2.time.stepPending then actOn d s2 else s2
    | .freerun => actOn d s2
    | .holdover => actOn d s2
  else s1

/-- The Scrim peer advertises another frame period (R38): no time is taken from it. -/
def State.peerPeriodOk (s : State) (devId : Nat) : Bool :=
  !(s.tregs.peers.any fun p => p.devId == devId && p.periodUs * 1000 ≠ s.period)

/-- A Sync is timestamped and used for qualification, offset and servo. A Sync of another domain, of a source or from a host port
not enabled, from a peer of another period, or from a neighbour off the path that the election yields, is not used (R38, R41). -/
def ptpSyncRx (m : Payload.PtpSync) (s : State) : State :=
  let src := if m.host then 2 else 1
  let ok := m.domain == s.paramN 0x1013 && s.srcEnabled src &&
    (if m.host then (s.paramN 0x1014).testBit m.port else s.peerPeriodOk m.devId && !s.time.gm && m.devId == s.time.upDev)
  if ok && s.ddUp then
    let d : Int := (m.originNs + m.delayNs : Nat) - (s.nowNs : Int)
    let thr : Int := s.param 0x1016
    let old := if m.host then s.time.host else s.time.scrim
    let q := old.sync thr d m.interval s.clock
    let s1 := s.modTime fun t => if m.host then { t with host := q } else { t with scrim := q }
    measured src d (q.qualified && !old.qualified) s1
  else s

def execPtpSyncRx (m : Payload.PtpSync) (s : State) : Host.Outcome State Fault Refusal := .next (ptpSyncRx m s)

/-- Time information from a peer: a mismatch of period or (with the partner) of frames per turn is told once, and the
election is redone; another period is a fault of class 5 (R38, R39, R41, R318). -/
def ptpAnnounceRx (m : Payload.PtpAnnounce) (s : State) : State :=
  if !s.ddUp then s else
  let old := (s.tregs.peers.find? fun p => p.devId == m.devId).getD {}
  let badP := m.periodUs * 1000 ≠ s.period
  let badF := m.partner && m.fpt ≠ s.fpt
  let p : TimePeer :=
    { devId := m.devId, partner := m.partner, reachable := true, cls := m.cls, hops := m.hops, gmDev := m.gmDev,
      gmCls := m.gmCls, traceable := m.traceable, periodUs := m.periodUs, fpt := m.fpt,
      periodTold := old.periodTold || badP, turnTold := badF }
  let mism := (badP && !old.periodTold) || (badF && !old.turnTold)
  let s1 := s.modTregs fun r => { r with peers := (r.peers.filter fun x => x.devId ≠ m.devId) ++ [p],
                                         evt := if mism then setBit r.evt 4 else r.evt }
  let s2 := if badP && !old.periodTold then raise Code.evTimePeriodMismatch Kind.none 0 [] s1 else s1
  let s3 := if badF && !old.turnTold then raise Code.evTimeTurnMismatch Kind.none 0 [] s2 else s2
  reselect (if badP then reportDev m.devId 5 s3 else clearDev m.devId 5 s3)

def execPtpAnnounceRx (m : Payload.PtpAnnounce) (s : State) : Host.Outcome State Fault Refusal :=
  .next (ptpAnnounceRx m s)

/-- The partner advertises another frames per turn (R39): no role is granted or accepted for a shared group. -/
def State.turnMismatch (s : State) : Bool := s.tregs.peers.any fun p => p.partner && p.fpt ≠ s.fpt

/-- The devices that Scrim routes reach are the peers that the election counts (R41, R45). -/
def peersFollow (s : State) : State :=
  let reached (p : TimePeer) : Bool := match s.addrOf p.devId with | some a => s.scrim.reaches a | none => false
  reselect (s.modTregs fun r => { r with peers := r.peers.map fun p => { p with reachable := reached p } })

/-- A source whose enable bit is 0 is never qualified (R43): what was measured of it goes. -/
def dropDisabled (s : State) : State :=
  let off (q : PtpSource) : PtpSource := { interval := q.interval, lost := q.lost }
  let s1 := if s.srcEnabled 1 then s else s.modTime fun t => { t with scrim := off t.scrim }
  let s2 := if s1.srcEnabled 2 then s1 else s1.modTime fun t => { t with host := off t.host }
  let s3 := if s2.srcEnabled 3 then s2 else s2.modTime fun t => { t with ppsQualified := false, ppsEdges := 0, ppsLast := none }
  reselect s3

/-- No Sync has arrived for `time.src.loss_timeout_ms` (R43). -/
def ptpSourceLoss (host : Bool) (s : State) : State :=
  let old := if host then s.time.host else s.time.scrim
  let q : PtpSource := { interval := old.interval, lost := old.lost || old.qualified }
  if !s.ddUp then s
  else sourceLost (if host then 2 else 1) (s.modTime fun t => if host then { t with host := q } else { t with scrim := q })

def execPtpSourceLoss (host : Bool) (s : State) : Host.Outcome State Fault Refusal := .next (ptpSourceLoss host s)

/-- A lost source has stayed qualified for 5 s and is taken back (R44). -/
def sourceRequalified (src : Nat) (s : State) : State :=
  reselect (s.modTime fun t =>
    if src = 1 then { t with scrim := { t.scrim with lost := t.scrim.lost && !t.scrim.qualified } }
    else if src = 2 then { t with host := { t.host with lost := t.host.lost && !t.host.qualified } }
    else { t with ppsLostSince := t.ppsLostSince && !t.ppsQualified })

def execSourceRequalified (src : Nat) (s : State) : Host.Outcome State Fault Refusal := .next (sourceRequalified src s)

/-- The offset being slewed is within the threshold: LOCKED (R50). -/
def slewComplete (s : State) : State :=
  if s.time.servo = .slewing && decide ((s.srcOffset s.time.active).natAbs ≤ s.paramN 0x1016) then
    let s1 := s.modTime fun t => { t with servo := .locked, everLocked := true, outside := 0, offsetDue := none,
                                          ptpLocked := t.ptpLocked || t.active == 1 || t.active == 2 }
    raise Code.evTimeLocked Kind.none 0 [] (reselect (s1.setRate s1.time.corrPpb 0))
  else s

/-- A lower limit of slewing reaches a slew that runs (R50). -/
def limitSlew (s : State) : State :=
  let limit : Int := (s.paramN 0x1017 * 1000 : Nat)
  if s.time.servo = .slewing then s.setRate s.time.corrPpb (max (-limit) (min limit s.time.slewPpb)) else s

def execSlewComplete (s : State) : Host.Outcome State Fault Refusal := .next (slewComplete s)

/-- The offset has lain outside the threshold for 16 consecutive Sync intervals while LOCKED: LOCKED is left before the
offset is acted on (R53). -/
def lockOffsetDrift (s : State) : State :=
  if s.time.servo = .locked && decide (16 ≤ s.time.outside) then
    actOn (s.srcOffset s.time.active) (s.modTime fun t => { t with outside := 0 })
  else s

def execLockOffsetDrift (s : State) : Host.Outcome State Fault Refusal := .next (lockOffsetDrift s)

/-! ### PPS (R43, R46, R47) -/

/-- The second nearest to a time in ns (R46). -/
def nearestSecond (ns : Nat) : Nat := (ns + 500000000) / 1000000000

/-- An edge of PPS_IN, taken as the boundary of the nearest second, or of TIME_TOD where that is loaded (R46). Pulses under 100 ns
and edges of the other polarity are ignored. -/
def ppsInEdge (widthNs : Nat) (falling : Bool) (s : State) : State :=
  if widthNs < 100 || falling ≠ (s.paramN 0x1019 == 1) || !s.ddUp then s
  else
    let ns := s.nowNs
    let t := s.time
    let near := match t.ppsLast with
      | none => false
      | some c =>
        let gap := (s.clock - c) * 5 / 8
        decide (999990000 ≤ gap) && decide (gap ≤ 1000010000)
    let sec := if t.todLoad then t.tod else nearestSecond ns
    let d : Int := (sec * 1000000000 : Nat) - (ns : Int)
    let edges := if near then t.ppsEdges + 1 else 1
    let known := t.todKnown || t.todLoad
    let q := decide (3 ≤ edges) && (known || t.ptpLocked) && s.srcEnabled 3
    let s1 := s.modTime fun t => { t with ppsLast := some s.clock, ppsSec := sec, ppsOffset := d, ppsEdges := edges,
                                          todKnown := known, todLoad := false, ppsQualified := q }
    let s2 := s1.modTregs fun r => { r with ppsInNs := ns % 1000000000, ppsInSec := ns / 1000000000 % 2 ^ 32 }
    measured 3 d (q && !t.ppsQualified) s2

def execPpsInEdge (widthNs : Nat) (falling : Bool) (s : State) : Host.Outcome State Fault Refusal :=
  .next (ppsInEdge widthNs falling s)

/-- No PPS_IN edge for 2 s (R43): EV_TIME_PPS_LOST when it had qualified. -/
def ppsInLoss (s : State) : State :=
  if !s.ddUp then s else
  let was := s.time.ppsQualified
  let s1 := s.modTime fun t => { t with ppsQualified := false, ppsLostSince := t.ppsLostSince || was, ppsEdges := 0,
                                        ppsLast := none }
  if was then
    sourceLost 3 (raise Code.evTimePpsLost Kind.none 0 [] (s1.modTregs fun r => { r with evt := setBit r.evt 3 }))
  else s1

def execPpsInLoss (s : State) : Host.Outcome State Fault Refusal := .next (ppsInLoss s)

/-- PPS_OUT is driven: a mode is chosen, and FREERUN has its leave (R47). -/
def State.ppsOn (s : State) : Bool := s.paramN 0x101A ≠ 0 && (s.time.servo ≠ .freerun || s.time.ppsFreerun)

/-- The first instant from now on that a pulse starts at: a second boundary in PPS mode, a frame boundary in FRAME mode (R47). -/
def State.ppsStartNs (s : State) : Nat :=
  let every := if s.paramN 0x101A = 2 then s.period else 1000000000
  ceilDiv s.nowNs every * every

/-- A PPS_OUT pulse starts at its boundary, and lasts the width, or slot 0 in FRAME mode; in OFF, and in FREERUN without
PPS_FREERUN, the pin stays low (R47). -/
def ppsOutStart (s : State) : State :=
  if !s.ppsOn || s.pins.ddReset then s
  else
    let at' := s.ppsStartNs
    let width := if s.paramN 0x101A = 2 then slotStart s.period 1 else s.paramN 0x101B * 1000000
    (advanceTo at' s).modTregs fun r => { r with ppsOut := true, ppsEnd := at' + width }

/-- The pin follows at once where the mode, or PPS_FREERUN, no longer drives it (R47). -/
def ppsFollow (s : State) : State := if s.ppsOn then s else s.modTregs fun r => { r with ppsOut := false }

/-- The pulse width elapses: the pin returns low (R47). -/
def ppsOutEnd (s : State) : State :=
  if s.tregs.ppsOut && !s.pins.ddReset then (advanceTo s.tregs.ppsEnd s).modTregs fun r => { r with ppsOut := false } else s

def execPpsOutStart (s : State) : Host.Outcome State Fault Refusal := .next (ppsOutStart s)

def execPpsOutEnd (s : State) : Host.Outcome State Fault Refusal := .next (ppsOutEnd s)

/-! ### Messages out (R42) -/

/-- What a PTP message says of its sender: domain, transport on a host port (0 Ethernet, 1 UDP over IPv4, 2 UDP over IPv6), and on
Scrim the time information: period, frames per turn, class, device ID, and its grandmaster with class, hops and traceability
(R38, R39, R41, R42). -/
def State.ptpInfo (s : State) (host : Bool) : PtpInfo :=
  let t := s.time
  { domain := s.paramN 0x1013, transport := if host then s.paramN 0x1015 else 0,
    info := if host then none else
      some { devId := s.fuse.deviceId, cls := t.cls, gmDev := t.gmDev, gmCls := t.gmCls, hops := t.hops, traceable := t.traceable,
             periodUs := s.period / 1000, fpt := s.fpt } }

/-- An SP port carries PTP, as one Scrim message of class 7: its adjacency is FULL, and the address is CLAIMED (R307, R310, R314). -/
def State.ptpCarried (s : State) (p : Nat) : Bool := (s.adj p).st == .full && s.scrim.claimed

/-- A PTP interval passes: Sync, Announce or a peer-delay request on an SP port, or an end-to-end delay request on an
enabled host port. On host ports no Announce or Sync is sent. -/
def ptpMessageTx (m : Payload.PtpTx) (s : State) : State :=
  let host := match m with | .delayReq _ => true | _ => false
  let ok := match m with
    | .sync p => decide (p < 4)
    | .announce p => decide (p < 4)
    | .pdelayReq p => decide (p < 4)
    | .delayReq p => (s.paramN 0x1014).testBit p
  if ok && s.ddUp then
    match m with
    | .delayReq _ => s.emit (.ptp m (s.ptpInfo host) s.nowNs)
    | .sync p | .announce p | .pdelayReq p =>
      if s.ptpCarried p then (sealOn p s).emit (.ptp m (s.ptpInfo host) s.nowNs) else s
  else s

def execPtpMessageTx (m : Payload.PtpTx) (s : State) : Host.Outcome State Fault Refusal := .next (ptpMessageTx m s)

/-- A peer-delay request from a Scrim neighbour is timestamped and answered (R42). -/
def execPtpPdelayReqRx (port seq : Nat) (s : State) : Host.Outcome State Fault Refusal :=
  .next (if port < 4 && s.ddUp && s.ptpCarried port then
    (sealOn port s).emit (.ptpPdelayResp port (s.paramN 0x1013) seq s.nowNs s.nowNs) else s)

/-! ### Register accesses with rows of their own (R40, R46, R56) -/

/-- The time registers latch in the cycle of a read of TIME_NOW_NS (R56). -/
def latchTime (s : State) : State :=
  let ns := s.nowNs
  s.modTregs fun r => { r with latSec := ns / 1000000000 % 2 ^ 48, latFrame := s.frameNow, latTurn := s.turnNow,
                               latSlot := s.slotNow }

/-- A read of TIME_NOW_NS: the nanoseconds, and the other time registers latched in the same cycle (R56). -/
def timeNowRead (s : State) : State :=
  (latchTime s).emit (.regRead 0x00020010 (leBytes 4 (s.nowNs % 1000000000)))

def execTimeNowRead (s : State) : Host.Outcome State Fault Refusal :=
  .next (s.hostRead 0x00020010 (timeNowRead s))

/-- The TIME block is idle in STANDBY and in PROVISION (R40). -/
def State.timeIdle (s : State) : Bool := s.mode.mode == .standby || s.mode.mode == .provision

/-- Numbering restarts from the formulas of R35 after a step, or a change of period or frames per turn (R40, R51): commits that
wait apply at the first turn boundary of the new numbers. -/
def renumber (s : State) : State :=
  let soon (c : Commit) : Commit := { c with due := 0 }
  let s1 : State := { s with par := { s.par with commits := s.par.commits.map soon } }
  s1.modTregs fun r => { r with slotSeen := s1.slotIndex, frameSeen := s1.frameNow, turnSeen := s1.turnNow }

/-- TIME_CTRL.TOD_LOAD arms TIME_TOD for the next accepted edge (R46). -/
def execTodLoad (s : State) : Host.Outcome State Fault Refusal :=
  .next (s.hostWrite (s.modTime fun t => { t with todLoad := true }))

end Sys2Proof.Machine
end

