-- ==== Sys2Proof/Machine/Handover.lean ====
section
/-! DEFINITION. Planned handovers, failback, swaps, and what leaves service by them: entries into ISLAND and STANDBY, resets
that hand over first, CONTAINED (R338 to R342, R394, R398, R457, R459, R461). -/

namespace Sys2Proof.Machine

/-! ### Checks (R338) -/

/-- The checks of R338 that do not name the role: every bay READY, LOCKED, two witnesses, not in CONTAINED since reset. -/
def State.healthyFor (s : State) (gi : Nat) : Bool :=
  ((s.group gi).bays.all fun b => (s.bay b).st == .ready) && s.time.servo == .locked &&
    decide (2 ≤ s.witnessesSeen gi) && !s.scrim.contained

/-- This controller could own the group: PARTNER with the mirror restored, and healthy (R338). -/
def State.failFit (s : State) (gi : Nat) : Bool :=
  (s.group gi).role == .partner && !(s.group gi).resyncSent && s.healthyFor gi && s.takesRoles

/-! ### At the owner (R341) -/

/-- An owner begins a handover: a checkpoint, then the OFFER (R341 step 1). While the partner advertises another F no role moves (R39). -/
def startHandover (gi : Nat) (why : HandFor) (s : State) : State :=
  if (s.group gi).role != .owner || (s.group gi).hand.isSome || s.turnMismatch then s
  else
    let s1 := startCheckpoint gi (s.modGroup gi fun g => { g with hand := some { why } })
    if (s1.group gi).ckptPages.isEmpty then sendOffer gi s1 else s1

/-- A handover ends without moving the group: the owner serves on (R341, R342). -/
def handoverEnds (gi : Nat) (s : State) : State :=
  let s1 := s.modGroup gi fun g => { g with hand := none }
  let s2 := if (s1.group gi).role = .handingOver then setRole gi .owner s1 else s1
  raise Code.evScrimHandoverCancelled Kind.group gi [] (setScrimEvt 4 s2)

/-- The owner cancels (R341). -/
def cancelHandover (gi : Nat) (s : State) : State := handoverEnds gi (sendHand gi 4 0 0 0 s)

/-- What the controller holds of a group as owner becomes a partner's copy: its map and band table hold the effect of every
record so far, and no work of its own is left (R240, R341 step 4). -/
def becomeCopy (gi : Nat) (s : State) : State :=
  let s1 := dropWork gi (revokeBays (s.group gi).bays s)
  let s2 := s.flash.slots.foldl (fun s w => match w.gua with
    | some a => commitUnit gi w.nsx false w.unitNo a w.slot s
    | none => s) s1
  let s3 := s2.modFlash fun f => { f with slots := f.slots.filter fun w => w.g != gi }
  s3.modGroup gi fun g =>
    { g with stripes := [], collects := [], dieAccs := [], skim := [], openBand := List.replicate 10 none,
             logPages := [], ckptPages := [], acked := g.jseq, topSeen := g.jseq, applied := g.jseq, heard := s.tregs.frames,
             mirror := .service, resyncSent := false, hand := none, handedBy := none, requested := false,
             requestAgain := false }

/-! ### Leaving service (R394, R398, R459, R461) -/

/-- The owner gives up a group that it cannot hand over (DESIGN CHOICE, log 16). -/
def giveUpGroup (gi : Nat) (s : State) : State :=
  setRole gi .none (s.modGroup gi fun g => { g with won := false, attempt := none, hand := none })

/-- Every group has been handed over: what waited for it happens. Partner roles are given up first (R459, R461). -/
def leaveDone (s : State) : State :=
  match s.mode.resetAfter with
  | some r => dataDieReset r s
  | none =>
    let s1 := (List.range 6).foldl (fun s gi => if (s.group gi).role = .none then s else giveUpGroup gi s) s
    match s1.mode.entering with
    | some .standby => modeEntered .standby 0 s1
    | some .island => islandSteps s1
    | _ => s1

/-- The owned groups are handed over one after another, in group order; one that no partner can take is given up (R459,
R461; log 16). -/
def leaveStep : List Nat → State → State
  | [], s => leaveDone (s.modMode fun m => { m with toHand := [] })
  | gi :: rest, s =>
    let s1 := s.modMode fun m => { m with toHand := gi :: rest }
    if !(s.group gi).role.owns then leaveStep rest s1
    else if (s.group gi).hand.isSome then s1
    else if s.partnerReached gi && (s.group gi).mirror == .service && !s.turnMismatch then startHandover gi .leave s1
    else leaveStep rest (giveUpGroup gi s1)

/-- Leaving service goes on, when it is under way. -/
def leaveOn (s : State) : State :=
  match s.mode.toHand with
  | [] => s
  | l => leaveStep l s

/-- Leaving service begins. -/
def leaveStart (s : State) : State := leaveStep s.ownedGroups s

/-- The final JACK covers every record: RELEASE to the witnesses, COMMIT to the partner, and the role PARTNER (R341 step 4).
A swap and the command move the preferred owner (R339, R394). -/
def finishHandover (gi : Nat) (s : State) : State :=
  match (s.group gi).hand with
  | none => s
  | some h =>
    let s1 := nextTag s
    let m := { s1.witMsg gi with other := s1.otherDev gi, tag := 0 }
    let s2 := sendHand gi 3 0 ((s.group gi).jseq - 1) 0 (toWitnesses gi 0x55 m s1)
    let moves := h.why = .swap || h.why = .command
    let s3 := (becomeCopy gi s2).modGroup gi fun g => { g with preferB := if moves then !s.sys.slotB else g.preferB }
    let s4 := setRole gi .partner s3
    leaveOn (countScrim 7 (raise Code.evScrimHandover Kind.group gi [] (setScrimEvt 4 s4)))

/-- After T, the handover ends as soon as every record is acknowledged (R341 step 4). -/
def handoverAcked (gi : Nat) (s : State) : State :=
  let g := s.group gi
  if g.hand.any Handover.final && g.mirror == .service && decide (g.jseq ≤ g.acked) then finishHandover gi s else s

/-- T has come: an offer without an ACK ends; otherwise open commands end, dispatch stops, and the final JMIRROR goes (R341
step 4, R342). At the preferred owner, a REQUEST that met another handover goes again (R338). -/
def handoverTurn (s : State) (gi : Nat) : State :=
  let g := s.group gi
  match g.hand with
  | some h =>
    if !h.offered || h.final || decide (s.turnNow < h.turn) then s
    else if !h.acked then cancelHandover gi s
    else
      let s1 := (endGroupCmds gi false s).modGroup gi fun g => { g with hand := some { h with final := true, finalAt := s.tregs.turns } }
      let s2 := if g.acked < g.jseq then toPartner gi 0x21 (jmirrorBody gi (s1.group gi) g.acked) s1 else s1
      handoverAcked gi s2
  | none =>
    if g.requestAgain then
      let s1 := s.modGroup gi fun g => { g with requestAgain := false, requested := s.failFit gi }
      if s.failFit gi then sendHand gi 5 0 0 0 s1 else s1
    else s

/-- Handovers at a turn boundary, and leaving service. -/
def handoverTurns (s : State) : State := leaveOn ((List.range 6).foldl handoverTurn s)

/-! ### CONTAINED (R340, R457) -/

/-- The controller may enter CONTAINED now: the data die runs, and neither ISLAND, PROVISION nor CONTAINED is the mode, unless
an entry is under way, which becomes one into CONTAINED (R457, R459, R460). -/
def State.mayContain (s : State) : Bool :=
  s.ddUp && (s.mode.entering.isSome || s.mode.mode == .standby || s.mode.mode == .owner || s.mode.mode == .partner)

/-- CONTAINED is entered: writes end, FC_CONTAINED with the cause, a handover of every owned group is offered (R340, R457). -/
def enterContained (cause : Nat) (s : State) : State :=
  if !s.mayContain then s
  else
    let s1 := s.modMode fun m => { m with cause, toHand := if m.resetAfter.isSome then m.toHand else [] }
    let s2 := modeEntered .contained cause (bbx 0 Code.fcContained Kind.none 0 [cause] s1)
    let s3 := s2.modScrim fun x => { x with contained := true }
    s3.ownedGroups.foldl (fun s gi => startHandover gi .contained (endGroupCmds gi true s)) s3

/-! ### Messages -/

/-- A witness or handover message for a group that the controller holds, from the other controller of the pair. -/
def fromPair (body : List Byte) (f : Nat → WitMsg → State → State) (s : State) : State :=
  let m := WitMsg.ofBytes body
  if !s.ddUp || body.length != 64 then s
  else match s.groupOf m.uid with
    | some gi => if m.sender = s.otherDev gi then f gi m s else s
    | none => s

/-- HANDOVER_OFFER_RX (R341 step 2). The partner knows the owner's newest record from the JMIRRORs it has seen (DEDUCED,
log 17). -/
def handoverOfferRx (body : List Byte) (s : State) : State :=
  fromPair body (fun gi m s =>
    let g := s.group gi
    if s.failFit gi && decide (g.topSeen ≤ g.acked) && decide (g.known ≤ m.epoch) && !s.turnMismatch then
      sendHand gi 2 0 0 m.tag (s.modGroup gi fun g => { g with handedBy := some m.turn })
    else sendHand gi 4 0 0 m.tag (s.modGroup gi fun g => { g with requested := false })) s

def execHandoverOfferRx (body : List Byte) (s : State) : Host.Outcome State Fault Refusal := .next (handoverOfferRx body s)

/-- HANDOVER_ACK_RX (R341 step 3). While the partner advertises another F the group stays (R39). -/
def handoverAckRx (body : List Byte) (s : State) : State :=
  fromPair body (fun gi _ s =>
    match (s.group gi).hand with
    | some h =>
      if h.offered && !h.acked && s.turnMismatch then cancelHandover gi s
      else if h.offered && !h.acked then setRole gi .handingOver (s.modGroup gi fun g => { g with hand := some { h with acked := true } })
      else s
    | none => s) s

def execHandoverAckRx (body : List Byte) (s : State) : Host.Outcome State Fault Refusal := .next (handoverAckRx body s)

/-- HANDOVER_CANCEL_RX: the owner keeps the group; a preferred owner whose REQUEST met another handover sends it again one
turn later (R338, R341, R342). -/
def handoverCancelRx (body : List Byte) (s : State) : State :=
  fromPair body (fun gi _ s =>
    let g := s.group gi
    if g.hand.isSome then handoverEnds gi s
    else if g.handedBy.isSome then s.modGroup gi fun g => { g with handedBy := none, requested := false }
    else if g.requested then s.modGroup gi fun g => { g with requestAgain := true }
    else s) s

def execHandoverCancelRx (body : List Byte) (s : State) : Host.Outcome State Fault Refusal := .next (handoverCancelRx body s)

/-- HANDOVER_REQUEST_RX (R338): an OFFER, or CANCEL while a handover or swap is under way. -/
def handoverRequestRx (body : List Byte) (s : State) : State :=
  fromPair body (fun gi m s =>
    if (s.group gi).role = .owner && (s.group gi).hand.isNone && !s.prefers gi && !s.turnMismatch then startHandover gi .failback s
    else sendHand gi 4 0 0 m.tag s) s

def execHandoverRequestRx (body : List Byte) (s : State) : Host.Outcome State Fault Refusal := .next (handoverRequestRx body s)

/-! ### Timers -/

/-- HANDOVER_JACK_TIMEOUT: one turn after T, counted in delivered boundaries (R37), the final JACK is still missing (R341). -/
def handoverJackTimeout (gi : Nat) (s : State) : State :=
  match (s.group gi).hand with
  | some h => if s.ddUp && h.final && decide (h.finalAt + 1 ≤ s.tregs.turns) then leaveOn (cancelHandover gi s) else s
  | none => s

def execHandoverJackTimeout (g : Nat) (s : State) : Host.Outcome State Fault Refusal := .next (handoverJackTimeout g s)

/-- FAILBACK_HOLDOFF_EXPIRY: the checks have held for `scrim.failback.holdoff_s`, and the preferred owner sends REQUEST
(R338). -/
def failbackHoldoffExpiry (gi : Nat) (s : State) : State :=
  if s.ddUp && s.paramN 0x7023 == 1 && s.prefers gi && s.failFit gi && !(s.group gi).requested then
    let s1 := nextTag (s.modGroup gi fun g => { g with requested := true })
    sendHand gi 5 0 0 s1.scrim.tag s1
  else s

def execFailbackHoldoffExpiry (g : Nat) (s : State) : Host.Outcome State Fault Refusal := .next (failbackHoldoffExpiry g s)

/-- The scheduled instant of a group's swaps at or before now: `scrim.swap.offset_min` + 10 × group number minutes past a multiple of the
interval, from the PTP epoch (R339). -/
def State.swapInstant (s : State) (gi : Nat) : Option Nat :=
  let every := 3600000000000 * s.paramN 0x7025
  let off := 60000000000 * (s.paramN 0x7026 + 10 * gi)
  if every = 0 || s.nowNs < off then none else some ((s.nowNs - off) / every * every + off)

/-- SWAP_DUE: the first turn boundary at or after a scheduled instant, or an hour after a try that could not run. A swap runs when the
group is OPTIMAL, mirrored, healthy here, and no failback is pending; the partner's checks are its answer to the OFFER (R339, R342). -/
def swapDue (gi : Nat) (s : State) : State :=
  let g := s.group gi
  let failback := s.paramN 0x7023 == 1 && !s.prefers gi
  let able := g.health == .optimal && g.mirror == .service && s.healthyFor gi && !failback && s.partnerReached gi
  match s.swapInstant gi with
  | none => s
  | some t =>
    let due := g.swapAt != some t || match g.swapRetry with | some r => decide (r ≤ s.nowNs) | none => false
    if !s.ddUp || g.role != .owner || !due then s
    else if able then startHandover gi .swap (s.modGroup gi fun g => { g with swapAt := some t, swapRetry := none })
    else s.modGroup gi fun g => { g with swapAt := some t, swapRetry := some (s.nowNs + 3600000000000) }

def execSwapDue (g : Nat) (s : State) : Host.Outcome State Fault Refusal := .next (swapDue g s)

end Sys2Proof.Machine
end

