-- ==== Sys2Proof/Machine/Scrim.lean ====
section
/-! DEFINITION. The Scrim fabric: addresses, adjacencies, the link-state database, routes (R307 to R311, R315 to R317). -/

namespace Sys2Proof.Machine

/-! ### Link-state advertisements (R315) -/

def addrWord (addr : Nat) (claimed : Bool) : Nat := addr % 4096 + flag claimed 12

/-- The bytes of an LSA. -/
def lsaBytes (l : Lsa) : List Byte :=
  leBytes 8 l.dev ++ leBytes 2 (addrWord l.addr l.claimed) ++ leBytes 1 l.links.length ++ leBytes 1 0 ++ leBytes 4 l.lseq ++
    leBytes 2 l.age ++ leBytes 14 0 ++
    (l.links.map fun k => leBytes 8 k.dev ++ leBytes 2 (addrWord k.addr k.claimed) ++ leBytes 1 k.port ++ leBytes 5 0).flatten

/-- An LSA from its bytes; none when its length does not fit its link count. -/
def lsaOf (b : List Byte) : Option Lsa :=
  let n := leAt b 10 1
  if n ≤ 4 && b.length = 32 + 16 * n then
    some { dev := leAt b 0 8, addr := leAt b 8 2 % 4096, claimed := bit (leAt b 8 2) 12, lseq := leAt b 12 4, age := leAt b 16 2,
           links := (List.range n).map fun i =>
             { dev := leAt b (32 + 16 * i) 8, addr := leAt b (40 + 16 * i) 2 % 4096, claimed := bit (leAt b (40 + 16 * i) 2) 12,
               port := leAt b (42 + 16 * i) 1 % 4 } }
  else none

/-- The LSA that describes this controller now. -/
def State.ownLsa (s : State) : Lsa :=
  { dev := s.fuse.deviceId, addr := s.scrim.addr, claimed := s.scrim.claimed, lseq := s.scrim.lseq,
    links := s.fullPorts.map fun p =>
      { dev := (s.adj p).nbr, addr := (s.adj p).nbrAddr, claimed := (s.adj p).nbrClaimed, port := p } }

/-- An LSA waits for its acknowledgement on some ports; an older one of its originator waits no longer (R316). -/
def awaitAck (ports : List Nat) (l : Lsa) (s : State) : State :=
  s.modScrim fun x => { x with unacked := (x.unacked.filter fun u => !(ports.contains u.1 && u.2.1 == l.dev)) ++
                                            ports.map fun p => (p, l.dev, l.lseq) }

/-- An LSA enters the database (R316), and routes are due (R317). -/
def storeLsa (l : Lsa) (s : State) : State :=
  s.modScrim fun x => { x with lsdb := (x.lsdb.filter fun y => y.dev != l.dev) ++ [l], spfDue := true }

/-- A new LSA of this controller is flooded (R315). -/
def sendLsa (s : State) : State :=
  let s1 := s.modScrim fun x => { x with lseq := (x.lseq + 1) % 2 ^ 32 }
  let l := s1.ownLsa
  flood none 0x10 (lsaBytes l) (awaitAck s1.fullPorts l (storeLsa l s1))

/-! ### Addresses (R307, R308) -/

/-- The candidate of R307: the preferred address of OTP, else the device ID mod 4,096. -/
def State.candidate (s : State) : Nat :=
  match s.fuse.otpField 3 14 2 with | some v => v % 4096 | none => s.fuse.deviceId % 4096

/-- The data die starts: the candidate is held TENTATIVE. -/
def chooseAddr (s : State) : State := s.modScrim fun x => { x with addr := s.candidate, claimed := false, chosen := true }

/-- The next address upward that no LSA of another device names. -/
def State.freeAddr (s : State) : Nat :=
  (anyFrom (fun a => !s.scrim.lsdb.any fun l => l.addr == a && l.dev != s.fuse.deviceId) ((s.scrim.addr + 1) % 4096) 4096).getD
    s.scrim.addr

/-- A conflict moves the controller with the higher device ID (R308). -/
def resolveConflict (s : State) : State :=
  let own := s.fuse.deviceId
  if s.scrim.chosen && s.scrim.lsdb.any fun l => l.addr == s.scrim.addr && l.dev != own && decide (l.dev < own) then
    let s1 := s.modScrim fun x => { x with addr := s.freeAddr, claimed := false }
    sendLsa (countScrim 0 (raise Code.evScrimAddrChanged Kind.addr s1.scrim.addr [] (setScrimEvt 1 s1)))
  else s

/-- ADDR_CLAIM: the hold has ended without a conflict (R307). -/
def addrClaim (s : State) : State :=
  if s.ddUp && s.scrim.chosen && !s.scrim.claimed then sendLsa (s.modScrim fun x => { x with claimed := true }) else s

def execAddrClaim (s : State) : Host.Outcome State Fault Refusal := .next (addrClaim s)

/-! ### Adjacencies (R310) -/

/-- SP port p is in service. -/
def State.spEnabled (s : State) (p : Nat) : Bool := (nth s.net.ports (8 + p)).enable && (nth (nth s.net.ports (8 + p)).subs 0).up

/-- What an adjacency keeps when it falls back to a state below TWO_WAY. -/
def Adj.fall (a : Adj) (st : AdjSt) : Adj :=
  { a with st, protTx := false, protRx := false, txKey := [], rxKey := [], txNext := [], rxNext := [], txPn := 0, rxPn := 0,
           txAn := 0, rxAn := 0, peerNonce := none, keyx := false, icvAt := [] }

/-- An adjacency falls back to INIT or DOWN. Leaving FULL raises EV_SCRIM_ADJ_DOWN, reports the neighbour UNREACHABLE, and
floods a new LSA (R310, R315, R318). -/
def adjFall (p : Nat) (st : AdjSt) (s : State) : State :=
  let a := s.adj p
  let s1 := (s.modAdj p fun a => a.fall st).modScrim fun x => { x with unacked := x.unacked.filter fun u => u.1 != p }
  if a.st = .full then
    let s2 := raise Code.evScrimAdjDown Kind.port (8 + p) [] (setScrimEvt 0 s1)
    sendLsa (reportDev a.nbr 1 s2)
  else s1

/-- An adjacency is DOWN: no device is heard on the port. -/
def adjDown (p : Nat) (s : State) : State :=
  if (s.adj p).st = .down then s
  else (adjFall p .down s).modAdj p fun a => { a with nbr := 0, nbrAddr := 0, nbrClaimed := false, nbrPort := 0 }

/-- An adjacency with protection in both directions is FULL (R310, R360). -/
def adjFull (p : Nat) (s : State) : State :=
  let a := s.adj p
  if a.st = .twoWay && a.protTx && a.protRx then
    let s1 := s.modAdj p fun a => { a with st := .full }
    sendLsa (clearDev a.nbr 1 (raise Code.evScrimAdjUp Kind.port (8 + p) [] s1))
  else s

/-- ADJ_DEAD: no HELLO for `scrim.hello.dead_count` intervals. -/
def adjDead (port : Nat) (s : State) : State := if s.ddUp && port < 4 then adjDown port s else s

def execAdjDead (port : Nat) (s : State) : Host.Outcome State Fault Refusal := .next (adjDead port s)

/-- The body of a HELLO (R311). -/
def State.hello (s : State) (p : Nat) : List Byte :=
  leBytes 8 s.fuse.deviceId ++ leBytes 2 (addrWord s.scrim.addr s.scrim.claimed) ++ leBytes 1 p ++ leBytes 1 0 ++
    leBytes 8 (s.adj p).nbr ++ leBytes 2 (s.paramN 0x7001) ++ leBytes 1 (s.paramN 0x7002) ++
    leBytes 1 (s.sys.shelf + flag s.sys.slotB 6) ++ leBytes 8 0

/-- HELLO_TX: `scrim.hello_us` has passed (R310). -/
def helloTx (s : State) : State :=
  if s.ddUp then ((List.range 4).filter s.spEnabled).foldl (fun s p => sendPlain p 0x01 (s.hello p) s) s else s

def execHelloTx (s : State) : Host.Outcome State Fault Refusal := .next (helloTx s)

/-! ### Key exchange: INIT (R360) -/

/-- Bytes 0 to 31 of a KEYX body. -/
def State.keyxHead (s : State) (step an own peer : Nat) : List Byte :=
  leBytes 8 s.fuse.deviceId ++ leBytes 1 step ++ leBytes 1 (an % 4) ++ leBytes 2 0 ++ leBytes 4 (s.paramN 0x8009) ++
    leBytes 8 own ++ leBytes 8 peer

/-- An INIT leaves. -/
def sendInit (p : Nat) (s : State) : State :=
  sendPlain p 0x02 (s.keyxHead 1 (s.adj p).an (s.adj p).ownNonce 0 ++ leBytes 16 0) s

/-- An exchange starts with a new nonce; none does without keys, or on a DRBG gone stale (R346, R360, R367). -/
def keyxStart (p an : Nat) (s : State) : State :=
  if !s.derives || s.drbgStale then s
  else
    let s1 := s.modAdj p fun a => { a with keyx := true, an := an % 4, ownNonce := s.random 64, peerNonce := none,
                                           txNext := [], rxNext := [] }
    sendInit p (drawRandom s1)

/-! ### HELLO (R310, R311) -/

/-- The shelf's other controller is found: its entries join the Discovery Log Page (R58, log 29). -/
def partnerFound (dev : Nat) (s : State) : State :=
  let s1 := s.modScrim fun x => { x with partnerDev := some dev }
  discoveryChanged (s1.drew.drew.modHost fun h => { h with partnerDisc := some s.free })

/-- HELLO_RX: the neighbour and what it has seen move the adjacency; a HELLO that no longer names this controller brings it
back to INIT (DEDUCED, log 22). -/
def helloRx (port : Nat) (body : List Byte) (s : State) : State :=
  if !s.ddUp || 3 < port || !s.spEnabled port || body.length != 32 then s
  else
    let dev := leAt body 0 8
    let own := s.fuse.deviceId
    if dev = own then countScrim 1 ((adjFall port .init s).modAdj port fun a => { a with nbr := own })
    else
      let a := s.adj port
      let s1 := if a.nbr != dev && a.st != .down then adjFall port .init s else s
      let w := leAt body 8 2
      let s2 := s1.modAdj port fun a =>
        { a with nbr := dev, nbrAddr := w % 4096, nbrClaimed := bit w 12, nbrPort := leAt body 10 1 % 4,
                 st := if a.st = .down then .init else a.st }
      let sh := leAt body 23 1
      let other := bits sh 0 6 == s.sys.shelf && bit sh 6 != s.sys.slotB
      let s3 := if other && s2.scrim.partnerDev != some dev then partnerFound dev s2 else s2
      if leAt body 12 8 = own then
        if (s3.adj port).st = .init then keyxStart port 0 (s3.modAdj port fun a => { a with st := .twoWay }) else s3
      else if (s3.adj port).st = .init then s3 else adjFall port .init s3

def execHelloRx (port : Nat) (body : List Byte) (s : State) : Host.Outcome State Fault Refusal := .next (helloRx port body s)

/-! ### Flooding (R316) -/

/-- An LSA_ACK leaves on the link that the LSA came by, and goes no further: DST 0, TTL 1 (the spec states neither: DESIGN CHOICE, log
131). -/
def ackLsa (port : Nat) (l : Lsa) (s : State) : State :=
  sendOn port { s.message 0 0x11 0 (leBytes 8 l.dev ++ leBytes 4 l.lseq ++ leBytes 4 0) with ttl := 1 } s

/-- LSA_RX. -/
def lsaRx (port : Nat) (body : List Byte) (s : State) : State :=
  if !s.ddUp || 3 < port || (s.adj port).st != .full then s
  else match lsaOf body with
    | none => s
    | some l =>
      if l.dev = s.fuse.deviceId then
        let s1 := ackLsa port l s
        if s.scrim.lseq < l.lseq then sendLsa (s1.modScrim fun x => { x with lseq := l.lseq }) else s1
      else
        match s.scrim.lsdb.find? fun y => y.dev == l.dev with
        | some y =>
          if l.lseq ≤ y.lseq then ackLsa port l s
          else
            let s1 := awaitAck (s.fullPorts.filter (· != port)) l (ackLsa port l (storeLsa l s))
            resolveConflict (flood (some port) 0x10 (lsaBytes l) s1)
        | none =>
          if 4096 ≤ s.scrim.lsdb.length then raise Code.evScrimLimit Kind.none 0 [] s
          else
            let s1 := awaitAck (s.fullPorts.filter (· != port)) l (ackLsa port l (storeLsa l s))
            resolveConflict (flood (some port) 0x10 (lsaBytes l) s1)

def execLsaRx (port : Nat) (body : List Byte) (s : State) : Host.Outcome State Fault Refusal := .next (lsaRx port body s)

/-- LSA_ACK_RX: it covers its LSEQ and every lower one. -/
def lsaAckRx (port : Nat) (body : List Byte) (s : State) : State :=
  if !s.ddUp || body.length != 16 then s
  else s.modScrim fun x => { x with unacked := x.unacked.filter fun u =>
    !(u.1 == port && u.2.1 == leAt body 0 8 && decide (u.2.2 ≤ leAt body 8 4)) }

def execLsaAckRx (port : Nat) (body : List Byte) (s : State) : Host.Outcome State Fault Refusal := .next (lsaAckRx port body s)

/-- LSA_RETRANSMIT: 5 × `scrim.hello_us` have passed on a link: what it has not acknowledged goes again, with its current
AGE. -/
def lsaRetransmit (port : Nat) (s : State) : State :=
  if !s.ddUp || (s.adj port).st != .full then s
  else (s.scrim.unacked.filter fun u => u.1 == port).foldl (fun s u =>
    match s.scrim.lsdb.find? fun l => l.dev == u.2.1 with
    | some l => sendOn port (s.flooded 0x10 (lsaBytes l)) s
    | none => s) s

def execLsaRetransmit (port : Nat) (s : State) : Host.Outcome State Fault Refusal := .next (lsaRetransmit port s)

/-- LSA_REFRESH: `scrim.lsa.refresh_s` has passed (R315). -/
def execLsaRefresh (s : State) : Host.Outcome State Fault Refusal := .next (if s.ddUp && s.scrim.chosen then sendLsa s else s)

/-- LSA_AGE_TICK: one second older; an LSA of 3 × `scrim.lsa.refresh_s` goes (R315). -/
def lsaAgeTick (s : State) : State :=
  if !s.ddUp then s
  else
    let lim := 3 * s.paramN 0x7003
    let older := s.scrim.lsdb.map fun l => { l with age := l.age + 1 }
    let kept := older.filter fun l => decide (l.age < lim)
    s.modScrim fun x => { x with lsdb := kept, spfDue := x.spfDue || decide (kept.length < older.length) }

def execLsaAgeTick (s : State) : Host.Outcome State Fault Refusal := .next (lsaAgeTick s)

/-! ### Routes (R317) -/

/-- Devices that a device lists, where the other end lists it too. -/
def links (db : List Lsa) (dev : Nat) : List Nat :=
  match db.find? fun l => l.dev == dev with
  | none => []
  | some l => (l.links.map LsaLink.dev).filter fun d => db.any fun y => y.dev == d && y.links.any fun k => k.dev == dev

/-- The next layer of a breadth-first search: devices one hop further, with the union of the first ports of their
predecessors. -/
def nextLayer (db : List Lsa) (seen : List Nat) (layer : List (Nat × List Nat)) : List (Nat × List Nat) :=
  let steps := (layer.map fun p => (links db p.1).map fun d => (d, p.2)).flatten
  let new := ((steps.map Prod.fst).filter fun d => !seen.contains d).eraseDups
  new.map fun d => (d, ((steps.filter fun q => q.1 == d).map Prod.snd).flatten.eraseDups)

/-- The layers from hop h on, at most `n` of them. -/
def spfLayers (db : List Lsa) : Nat → List Nat → List (Nat × List Nat) → List (List (Nat × List Nat))
  | 0, _, _ => []
  | n + 1, seen, layer =>
    if layer.isEmpty then []
    else layer :: spfLayers db n (seen ++ layer.map Prod.fst) (nextLayer db (seen ++ layer.map Prod.fst) layer)

/-- The neighbour on a FULL link lists that link: this device, at its own port (R317). -/
def State.listedBack (s : State) (d p : Nat) : Bool :=
  s.scrim.lsdb.any fun l => l.dev == d && l.links.any fun k => k.dev == s.fuse.deviceId && k.port == (s.adj p).nbrPort

/-- The first layer: neighbours over FULL links that both ends list, each with its ports. -/
def State.firstLayer (s : State) : List (Nat × List Nat) :=
  let own := s.fuse.deviceId
  let devs := (links s.scrim.lsdb own).eraseDups
  (devs.map fun d => (d, s.fullPorts.filter fun p => (s.adj p).nbr == d && s.listedBack d p)).filter fun x => !x.2.isEmpty

/-- The routes of layers, to CLAIMED addresses, with at most `ways` next hops; which ones when there are more the spec leaves
open: the lowest ports (DESIGN CHOICE, log 23). -/
def State.routesOf (s : State) (layers : List (List (Nat × List Nat))) : List Route :=
  let route (h : Nat) (d : Nat × List Nat) : Option Route :=
    (s.addrOf d.1).map fun a => { addr := a, hops := h + 1, ports := (d.2.mergeSort (· ≤ ·)).take (s.paramN 0x7005) }
  ((List.range layers.length).map fun h => (nth layers h).filterMap (route h)).flatten

/-- SPF_COMPUTE: the hold-off has ended (R317). Addresses that left the table are reported UNREACHABLE; those that came back
clear (R318), and the election counts who is reachable (R41). -/
def spfCompute (s : State) : State :=
  if !s.ddUp || !s.scrim.spfDue then s
  else
    let layers := spfLayers s.scrim.lsdb 17 [s.fuse.deviceId] s.firstLayer
    let far := decide (16 < layers.length)
    let routes := s.routesOf (layers.take 16)
    let old := s.scrim.routes.map Route.addr
    let new := routes.map Route.addr
    let s1 := s.modScrim fun x => { x with routes, spfDue := false }
    let s2 := if far then raise Code.evScrimLimit Kind.none 0 [] s1 else s1
    let s3 := (old.filter fun a => !new.contains a).foldl (fun s a => reportFault a 1 s) s2
    peersFollow ((new.filter fun a => !old.contains a).foldl (fun s a => clearFault a 1 s) s3)

def execSpfCompute (s : State) : Host.Outcome State Fault Refusal := .next (spfCompute s)

end Sys2Proof.Machine
end

