-- ==== Sys2Proof/Machine/Keyx.lean ====
section
/-! DEFINITION. The KEYX exchange on Scrim links (R311, R360, R367). -/

namespace Sys2Proof.Machine

/-- The WITNESS and LINK_AUTH labels take GEN from `cipher.fabric.gen`, and every other field of theirs is 0 (R351). -/
def fabricLabels (s : State) : State :=
  setLabel 3074 (mkLabel 6 1 0 (s.paramN 0x8009) 0 []) (setLabel 3073 (mkLabel 5 1 0 (s.paramN 0x8009) 0 []) s)

/-- Both nonces are held: the two LINK labels are written, both keys derived, and CONFIRM goes. A label of either end names the
sender: its device ID, its port and its nonce first, so both ends derive one key (R349, R360; DEDUCED, log 24). -/
def keyxConfirm (p peer : Nat) (s : State) : State :=
  let a := s.adj p
  let gen := s.paramN 0x8009
  let tx := mkLabel 7 1 (2 * p) gen s.fuse.deviceId (leBytes 8 a.ownNonce ++ leBytes 8 peer)
  let rx := mkLabel 7 1 (2 * a.nbrPort) gen a.nbr (leBytes 8 peer ++ leBytes 8 a.ownNonce)
  let s1 := setLabel (3077 + 2 * p) rx (setLabel (3076 + 2 * p) tx s)
  match s1.workingKey (3076 + 2 * p) 7, s1.workingKey (3077 + 2 * p) 7, s1.workingKey 3074 6 with
  | some kt, some kr, some auth =>
    let head := s1.keyxHead 2 a.an a.ownNonce peer
    let s2 := useKey 3074 (useKey (3077 + 2 * p) (useKey (3076 + 2 * p) s1))
    let first := a.txKey.isEmpty
    let s3 := s2.modAdj p fun a =>
      { a with peerNonce := some peer, txNext := if first then [] else Aes.toBytes kt, rxNext := Aes.toBytes kr, protTx := true,
               txKey := if first then Aes.toBytes kt else a.txKey, txAn := if first then a.an else a.txAn,
               txPn := if first then 0 else a.txPn }
    sendPlain p 0x02 (head ++ messageMac (Aes.toBytes auth) head) (cipherWork 0 2 s3)
  | _, _, _ => s1.modAdj p fun a => { a with peerNonce := some peer }

/-- KEYX_INIT_RX: the neighbour's INIT. An exchange that this end has not begun begins here too, and an
INIT that comes again is answered again. -/
def keyxInitRx (port : Nat) (body : List Byte) (s : State) : State :=
  let a := s.adj port
  let up := a.st == .twoWay || a.st == .full
  if !s.ddUp || 3 < port || body.length != 48 || !up || leAt body 0 8 != a.nbr then s
  else if !s.derives || s.drbgStale then s
  else if a.keyx && a.peerNonce == some (leAt body 16 8) then keyxConfirm port (leAt body 16 8) (sendInit port s)
  else
    let s1 := if a.keyx && a.peerNonce.isNone then s else keyxStart port (leAt body 9 1) s
    keyxConfirm port (leAt body 16 8) (s1.modAdj port fun a => { a with an := leAt body 9 1 % 4 })

def execKeyxInitRx (port : Nat) (body : List Byte) (s : State) : Host.Outcome State Fault Refusal :=
  .next (keyxInitRx port body s)

/-- A CONFIRM passes the checks of R360: PROOF, FABRIC_GEN and PEER_NONCE, from the neighbour heard. -/
def State.confirmOk (s : State) (port : Nat) (body : List Byte) : Bool :=
  let a := s.adj port
  let proof := match s.workingKey 3074 6 with
    | some k => body.drop 32 == messageMac (Aes.toBytes k) (body.take 32)
    | none => false
  proof && leAt body 12 4 == s.paramN 0x8009 && leAt body 24 8 == a.ownNonce && leAt body 0 8 == a.nbr

/-- KEYX_CONFIRM_RX: the direction becomes protected; a rekey's transmit key comes into use. A good CONFIRM that comes again, or before
both nonces are held, changes nothing. One that fails is dropped and counted, and the exchange waits for KEYX_RESTART. -/
def keyxConfirmRx (port : Nat) (body : List Byte) (s : State) : State :=
  let a := s.adj port
  let up := a.st == .twoWay || a.st == .full
  if !s.ddUp || 3 < port || body.length != 48 || !up || leAt body 8 1 != 2 then s
  else if s.confirmOk port body && !(a.keyx && !a.rxNext.isEmpty) then s
  else if s.confirmOk port body then
    let first := a.rxKey.isEmpty
    let done (a : Adj) : Adj :=
      { a with protRx := true, keyx := false, rxKey := if first then a.rxNext else a.rxKey, rxAn := if first then a.an else a.rxAn,
               rxNext := if first then [] else a.rxNext, rxPn := if first then 0 else a.rxPn,
               txKey := if a.txNext.isEmpty then a.txKey else a.txNext, txAn := if a.txNext.isEmpty then a.txAn else a.an,
               txPn := if a.txNext.isEmpty then a.txPn else 0, txNext := [] }
    adjFull port (cipherWork 0 2 (useKey 3074 (s.modAdj port done)))
  else
    let s1 := s.modCiph fun c => { c with evt := setBit c.evt 3, ctrs := { c.ctrs with keyxFail := c.ctrs.keyxFail + 1 } }
    let s2 := s1.modAdj port fun a => { a with keyx := false }
    if s2.passed a.keyxTold 3600000000 then
      raise Code.evCiphKeyxFailed Kind.port (8 + port) [] (s2.modAdj port fun a => { a with keyxTold := some s.clock })
    else s2

def execKeyxConfirmRx (port : Nat) (body : List Byte) (s : State) : Host.Outcome State Fault Refusal :=
  .next (keyxConfirmRx port body s)

/-- KEYX_INIT_RESEND: the neighbour's INIT has not arrived. -/
def keyxInitResend (port : Nat) (s : State) : State :=
  if s.ddUp && (s.adj port).keyx && (s.adj port).peerNonce.isNone then sendInit port s else s

def execKeyxInitResend (port : Nat) (s : State) : Host.Outcome State Fault Refusal := .next (keyxInitResend port s)

/-- KEYX_RESTART: `scrim.hello_us` × `scrim.hello.dead_count` after a failed CONFIRM. -/
def keyxRestart (port : Nat) (s : State) : State :=
  let a := s.adj port
  if s.ddUp && !a.keyx && a.st == .twoWay then keyxStart port a.an s
  else if s.ddUp && !a.keyx && a.st == .full && !a.txNext.isEmpty then keyxStart port a.an s
  else s

def execKeyxRestart (port : Nat) (s : State) : Host.Outcome State Fault Refusal := .next (keyxRestart port s)

/-- KEYX_REKEY: `cipher.scrim.rekey_s` has passed, or PN has reached 2^48. -/
def keyxRekey (port : Nat) (s : State) : State :=
  if s.ddUp && (s.adj port).st == .full && !(s.adj port).keyx then keyxStart port ((s.adj port).txAn + 1) s else s

def execKeyxRekey (port : Nat) (s : State) : Host.Outcome State Fault Refusal := .next (keyxRekey port s)

end Sys2Proof.Machine
end

