-- ==== Sys2Proof/Machine/NetOps.lean ====
section
/-! DEFINITION. The switch core: counters, the header mirror, packet-buffer accounting, and the two-level scheduler
(R274 to R303). -/

namespace Sys2Proof.Machine

def State.modNet (s : State) (f : NetState → NetState) : State := { s with net := f s.net }
def State.netPort (s : State) (p : Nat) : NetPort := nth s.net.ports p
def State.modPort (s : State) (p : Nat) (f : NetPort → NetPort) : State :=
  s.modNet fun n => { n with ports := upd n.ports p f }
def State.subPort (s : State) (p i : Nat) : SubPort := nth (s.netPort p).subs i
def State.modSub (s : State) (p i : Nat) (f : SubPort → SubPort) : State :=
  s.modPort p fun x => { x with subs := upd x.subs i f }

/-- Sub-ports of a mode (R274). -/
def subsOfMode (m : Nat) : Nat := if m = 1 then 2 else if m = 2 then 4 else 1

/-- Rate of a port's sub-ports in Gb/s (R274, R276, R280). -/
def State.rateOf (s : State) (p : Nat) : Nat :=
  if p < 12 then 400 / subsOfMode (s.netPort p).mode else if p = 21 then 3277 else 819

/-- A sub-port carries frames (R289). Internal ports always do. -/
def State.subUp (s : State) (p i : Nat) : Bool :=
  if p < 12 then (s.netPort p).enable && (s.subPort p i).up else decide (p < 24)

/-! ### Counters and latches (R303, R305) -/

abbrev Nc.rxFrames : Nat := 0
abbrev Nc.txFrames : Nat := 1
abbrev Nc.rxUnaccepted : Nat := 2
abbrev Nc.fcsErr : Nat := 3
abbrev Nc.bufDrop : Nat := 4
abbrev Nc.pfcOverflow : Nat := 5
abbrev Nc.pauseRx : Nat := 6
abbrev Nc.yellowDrop : Nat := 7
abbrev Nc.redDrop : Nat := 8
abbrev Nc.ecnMarked : Nat := 9
abbrev Nc.gateOverrun : Nat := 10
abbrev Nc.cnpRx : Nat := 11
abbrev Nc.mirrorLost : Nat := 12

/-- A counter of a port and class gains one. A frame that has no class yet counts at class 0. -/
def netCount (kind p cls : Nat) (s : State) : State :=
  s.modPort p fun x => { x with ctrs := upd x.ctrs (8 * kind + cls) fun n => (n + 1) % 2 ^ 64 }

/-- A bit of NET_PORT_EVT. -/
def netEvt (p i : Nat) (s : State) : State := s.modPort p fun x => { x with evt := setBit x.evt i }

/-- EV_NET_BUF_DROP, at most once per minute per port. -/
def tellBufDrop (p : Nat) (s : State) : State :=
  if s.passed (s.netPort p).dropTold 60000000 then
    raise Code.evNetBufDrop Kind.port p [] (s.modPort p fun x => { x with dropTold := some s.clock })
  else s

/-! ### The header mirror (R292 to R294) -/

/-- A mirror record (R293). -/
def mirrorRecord (now : Nat) (p sub : Nat) (tx : Bool) (cls colour : Nat) (dropped cut : Bool) (len seq : Nat)
    (sess : Option Nat) (head : List Byte) : List Byte :=
  leBytes 6 (now / 1000000000) ++ leBytes 4 (now % 1000000000) ++ leBytes 6 0 ++
    leBytes 1 (field p 0 4 + field sub 4 2 + flag tx 6) ++
    leBytes 1 (field cls 0 3 + field colour 3 2 + flag dropped 5 + flag cut 6) ++ leBytes 2 len ++ leBytes 4 seq ++
    leBytes 2 (sess.getD 0) ++ leBytes 1 (flag sess.isSome 0) ++ leBytes 5 0 ++ padTo 128 (head.take (Nat.min 128 len))

/-- The ring takes a record, or in STOP mode discards it when it is full (R294). -/
def putMirror (p cls : Nat) (rec : Nat → List Byte) (s : State) : State :=
  let size := s.paramN 0x607E
  let used := (s.net.prod + 2 ^ 32 - s.net.cons) % 2 ^ 32
  if s.paramN 0x607F = 0 && decide (size ≤ used) then
    let s1 := netCount Nc.mirrorLost p cls s
    if s1.net.fullTold then s1
    else raise Code.evNetMirrorFull Kind.none 0 [] (s1.modNet fun n => { n with fullTold := true })
  else
    s.modNet fun n => { n with
      mirror := { slot := n.prod % size, bytes := rec n.prod } :: n.mirror.filter fun x => x.slot != n.prod % size,
      prod := (n.prod + 1) % 2 ^ 32, fullTold := n.fullTold && decide (size ≤ used) }

/-- A frame is mirrored when its port's selection for the direction takes it: all, or one in 2^(v - 1) by the port's own
sequence, which the spec leaves open (log 3). -/
def mirrorFrame (p sub : Nat) (tx : Bool) (cls colour : Nat) (dropped cut : Bool) (len : Nat) (sess : Option Nat)
    (head : List Byte) (s : State) : State :=
  let v := s.paramN (if tx then 0x6050 + p else 0x6040 + p)
  let rec' (seq : Nat) : List Byte := mirrorRecord s.nowNs p sub tx cls colour dropped cut len seq sess head
  if v = 0 || 12 ≤ p then s
  else if v = 1 then putMirror p cls rec' s
  else if Config.freeNat s.free % 2 ^ (v - 1) = 0 then putMirror p cls rec' s.drew else s.drew

/-! ### The packet buffer (R283 to R287) -/

/-- Cells of a frame. -/
def cellsOf (len : Nat) : Nat := ceilDiv len 64

/-- Sub-ports of the twelve external ports. -/
def State.extSubs (s : State) : Nat := ((List.range 12).map fun p => subsOfMode (s.netPort p).mode).sum

/-- Lossless classes over all sub-ports. -/
def State.losslessCount (s : State) : Nat :=
  ((List.range 12).map fun p => subsOfMode (s.netPort p).mode *
    ((List.range 8).filter fun c => (s.netPort p).pfc.testBit c).length).sum

/-- The shared pool, S cells (R283). -/
def State.poolCells (s : State) : Nat :=
  262144 - 65536 - ceilDiv (s.paramN 0x607E * 160) 64 - 8 * (s.extSubs + 12) * s.paramN 0x6070 -
    s.losslessCount * s.paramN 0x6071

/-- F: the free cells of the shared pool (R284). -/
def State.freeCells (s : State) : Nat := s.poolCells - (s.net.frames.map NetFrame.shared).sum

/-- α_c × n, rounded down. -/
def State.alphaOf (s : State) (c n : Nat) : Nat :=
  let e := s.param (0x6060 + c)
  if 0 ≤ e then n * 2 ^ e.toNat else n / 2 ^ (-e).toNat

/-- A frame lies in an egress queue's class (R283). -/
def NetFrame.at' (f : NetFrame) (p sub cls : Nat) : Bool := f.port == p && f.sub == sub && f.cls == cls

/-- The cells that a frame would be admitted with, of the guarantee or of the shared pool, if it is (R284). -/
def admitted? (f : NetFrame) (s : State) : Option NetFrame :=
  let q := s.net.frames.filter fun x => x.at' f.port f.sub f.cls
  let n := cellsOf f.len
  if (q.map NetFrame.guaranteed).sum + (q.map NetFrame.shared).sum + n ≤ s.paramN 0x6070 then some { f with guaranteed := n }
  else if (q.map NetFrame.shared).sum + n ≤ s.alphaOf f.cls s.freeCells then some { f with shared := n }
  else none

/-- Shared and headroom cells accounted to an ingress sub-port and class (R286). -/
def State.ingressShared (s : State) (i : Nat × Nat × Nat) : Nat :=
  ((s.net.frames.filter fun f => f.ingress == some i).map NetFrame.shared).sum
def State.ingressHeadroom (s : State) (i : Nat × Nat × Nat) : Nat :=
  ((s.net.frames.filter fun f => f.ingress == some i).map NetFrame.headroom).sum

/-- A class is lossless on a port (R286). -/
def State.lossless (s : State) (p cls : Nat) : Bool := (s.netPort p).pfc.testBit cls

/-- XOFF when an ingress accounting reaches α × F, XON when it falls 288 cells below it (R286). -/
def pfcState (i : Nat × Nat × Nat) (s : State) : State :=
  let (p, sub, cls) := i
  if !s.lossless p cls then s
  else
    let lim := s.alphaOf cls s.freeCells
    let now := s.ingressShared i
    let off := (s.subPort p sub).xoff.testBit cls
    if !off && decide (lim ≤ now) then
      (s.modSub p sub fun x => { x with xoff := setBit x.xoff cls }).emit (.pfc p sub cls true)
    else if off && decide (now + 288 ≤ lim) then
      (s.modSub p sub fun x => { x with xoff := clearBit x.xoff cls }).emit (.pfc p sub cls false)
    else s

/-- Every lossless ingress accounting is looked at when the free cells have changed (R286). -/
def pfcStates (s : State) : State :=
  let ports := (List.range 12).filter fun p => (s.netPort p).pfc != 0
  let all := (ports.map fun p => ((List.range 4).map fun i => (List.range 8).map fun c => (p, i, c)).flatten).flatten
  all.foldl (fun s i => pfcState i s) s

/-- ECN: the probability of marking in 1/2^32, by the queue's cells (R287). -/
def State.ecnChance (s : State) (cells : Nat) : Nat :=
  let lo := s.paramN 0x6073
  let hi := s.paramN 0x6074
  if hi < cells then 2 ^ 32
  else if cells < lo then 0
  else (cells - lo) * s.paramN 0x6075 * 2 ^ 32 / (100 * (hi - lo))

/-! ### The scheduler (R295, R296) -/

/-- The scheduler of a port and sub-port: every tag 0 until it has run. -/
def NetState.sched (n : NetState) (p sub : Nat) : Sched :=
  match n.scheds.find? fun x => x.port == p && x.sub == sub with
  | some x => x
  | none => { port := p, sub }

def NetState.putSched (n : NetState) (x : Sched) : NetState :=
  { n with scheds := x :: n.scheds.filter fun y => !(y.port == x.port && y.sub == x.sub) }

/-- Weight of a queue: that of the session's grant, or `net.sched.session_weight`; a control queue has 255. -/
def State.grantOf (s : State) (nqn : List Byte) : Option Grant := s.host.grants.find? fun g => g.nqn.takeWhile (· != 0) == nqn

def State.sessGrant (s : State) (key : Nat) : Option Grant :=
  match s.sess? key with
  | some q => (s.assoc? q.assoc).bind fun a => s.grantOf a.nqn
  | none => none

def State.queueWeight (s : State) (key : Nat) : Nat :=
  if key = 0 then 255
  else match s.sessGrant key with
    | some g => if g.weight = 0 then s.paramN 0x607D else g.weight
    | none => s.paramN 0x607D

/-- Wire bytes of a frame: its length and 20 (R296). -/
def wireBytes (len : Nat) : Nat := len + 20

/-- The head frame of a queue. -/
def State.headOf (s : State) (p sub cls key : Nat) : Option NetFrame :=
  s.net.frames.find? fun f => f.at' p sub cls && f.key == key

/-- The CNP bucket of a session as it stands now: it fills at the capped rate, one 9,236 B frame deep (R297). -/
def State.capNow (s : State) (x : CnpCap) : Nat :=
  Nat.min 9236 (x.bucket + (s.clock - x.at_) * x.rate * 125000 / 1600000000)

/-- A queue is eligible: it holds a frame, and its session's CNP cap lets it leave (R295, R297). What the pacing bucket of R90 holds back does
not become a frame (`pacedFrameSend`), nor what a TCP window holds back: the window is the transport's (log 3). -/
def State.eligible (s : State) (p sub cls key : Nat) : Bool :=
  match s.headOf p sub cls key with
  | none => false
  | some f =>
    match s.net.caps.find? fun x => x.sess == key && key != 0 with
    | some x => decide (wireBytes f.len ≤ s.capNow x)
    | none => true

/-- The gate byte of a slot: the classes open in it (R300). Internal ports have no gates. -/
def State.gateByte (s : State) (p slot : Nat) : Nat :=
  if p < 12 then bits (s.paramN (0x6100 + 16 * p + slot / 4)) (8 * (slot % 4)) 8 else 255

def State.gateOpen (s : State) (p cls slot : Nat) : Bool := (s.gateByte p slot).testBit cls

/-- A class may send: an eligible queue, an open gate, no pause (R295). -/
def State.classCanSend (s : State) (x : Sched) (cls : Nat) : Bool :=
  (nth x.classes cls).queues.any QueueTag.ready && s.gateOpen x.port cls s.slotNow &&
    !(decide (x.port < 12) && (s.subPort x.port x.sub).paused.testBit cls)

/-- wake_queue of R296. -/
def wakeQueue (vtime weight wire : Nat) (q : QueueTag) : QueueTag :=
  let start := Nat.max vtime q.finish
  { q with start, finish := start + wire * 256 / Nat.max 1 weight, ready := true }

/-- The queues of a class as they are now: an eligible one wakes, one that is no longer eligible leaves the ready set with
its last finish tag. -/
def State.refreshClass (s : State) (p sub cls : Nat) (c : ClassTag) : ClassTag :=
  let keys := ((s.net.frames.filter fun f => f.at' p sub cls).map NetFrame.key).eraseDups
  let known := c.queues ++ (keys.filter fun k => !(c.queues.any fun q => q.key == k)).map fun k => { key := k }
  let one (q : QueueTag) : QueueTag :=
    if s.eligible p sub cls q.key then
      if q.ready then q
      else wakeQueue c.vtime (s.queueWeight q.key) (((s.headOf p sub cls q.key).map fun f => wireBytes f.len).getD 0) q
    else { q with ready := false }
  { c with queues := known.map one }

/-- Queues and classes wake, or leave the ready sets (R295, R296). -/
def refreshSched (p sub : Nat) (s : State) : State :=
  let x := s.net.sched p sub
  let y := { x with classes := x.classes.mapIdx fun i c => s.refreshClass p sub i c }
  let wake (i : Nat) (c : ClassTag) : ClassTag :=
    if s.classCanSend y i then if c.ready then c else { c with start := Nat.max y.vtime c.finish, ready := true }
    else { c with ready := false }
  s.modNet fun n => n.putSched { y with classes := y.classes.mapIdx wake }

/-- Every scheduler that has run looks again, as a slot boundary or a step changes gates (R296, R300, R302). -/
def refreshAll (s : State) : State := s.net.scheds.foldl (fun s x => refreshSched x.port x.sub s) s

/-- Length of the window that holds now, in slots from the current one, 64 when the class is open in all (R301). -/
def State.windowSlots (s : State) (p cls : Nat) : Nat :=
  ((List.range 64).takeWhile fun i => s.gateOpen p cls ((s.slotNow + i) % 64)).length

/-- A frame fits its class's window: wire time no more than the fabric time left over (1 + f) (R301). -/
def State.fits (s : State) (p cls len : Nat) : Bool :=
  let n := s.windowSlots p cls
  if n = 64 || 12 ≤ p then true
  else
    let endFab := (s.frameNow * 64 + s.slotNow + n) * s.period * 2 ^ 32 / 64
    let f : Int := s.time.corrPpb + s.time.slewPpb
    let need : Int := (wireBytes len * 8 * 2 ^ 32 : Nat) * (1000000000 + f)
    decide (need ≤ ((endFab - s.time.fab) * s.rateOf p * 1000000000 : Nat))

/-- A frame joins its egress queue; one that cannot be sent because the PFC watchdog has found its class paused is dropped (R286). -/
def joinQueue (f : NetFrame) (s : State) : State :=
  let x := s.subPort f.port f.sub
  if decide (f.port < 12) && x.paused.testBit f.cls && x.ignoring.testBit f.cls then s
  else refreshSched f.port f.sub (s.modNet fun n => { n with frames := n.frames ++ [f] })

end Sys2Proof.Machine
end

