-- ==== Sys2Proof/Machine/HostConnect.lean ====
section
/-! DEFINITION. Associations and sessions: Connect, properties, Disconnect, teardown, keep alive, and the capsule reserve
(R57 to R64, R77, R94). -/

namespace Sys2Proof.Machine

/-! ### Names -/

/-- Bytes of a name up to the first NUL. -/
def nqnOf (b : List Byte) : List Byte := b.takeWhile (· != 0)

/-- A hexadecimal digit in lower case: R57 states no case (DESIGN CHOICE, log 127). -/
def hexDigit (v : Nat) : Byte := BitVec.ofNat 8 (if v < 10 then 48 + v else 87 + v)

/-- Hexadecimal digits of a number, most significant first. -/
def hexDigits (n v : Nat) : List Byte := ((List.range n).map fun i => hexDigit (v / 16 ^ i % 16)).reverse

/-- The slot A controller's device ID: its own, or what the fabric has told; open before it has (log 3). -/
def State.slotADeviceId (s : State) : Nat :=
  if !s.sys.slotB then s.fuse.deviceId else match s.scrim.partnerDev with | some d => d | none => s.freeNat

/-- The subsystem NQN: as set through NS_SUBSYS, else the default with the slot A controller's device ID (R57). -/
def State.subsystemNqn (s : State) : List Byte :=
  match s.host.nqn with
  | some b => nqnOf b
  | none => asciiBytes "nqn.2024-06.com.dweoskane:y2400." ++ hexDigits 16 s.slotADeviceId

/-- The well-known discovery NQN (R58). -/
def discoveryNqn : List Byte := asciiBytes "nqn.2014-08.org.nvmexpress.discovery"

/-! ### Finding queues -/

/-- The lowest free controller ID of the slot's range (R57). -/
def State.freeCntlid (s : State) : Option Nat :=
  let base := if s.sys.slotB then 0x801 else 1
  (List.range 1024).find? (fun i => (s.assocAt (base + i)).isNone) |>.map (base + ·)

/-- The sum of the sizes of the submission queues admitted (R60). -/
def State.admitted (s : State) : Nat :=
  (s.host.assocs.map Assoc.sqsize).sum + (s.host.sessions.map Session.sqsize).sum

/-! ### Teardown (R64, R94) -/

/-- The commands of a session that ends: a write wholly in staging goes on silently, every other is discarded (R94). -/
def dropCmd (s : State) (x : Cmd) : State :=
  if x.kind.writes && x.wst == .staged then s.modCmd x.num fun x => { x with silent := true }
  else freeCmd x.num (dropFlash x.num (zoneFailed x s))

/-- The record-table entry of a TLS session goes (R356). -/
def dropTls (key : Nat) (s : State) : State := s.modCiph fun c => { c with recs := c.recs.filter fun r => r.sess != key }

/-- Firmware writes the masked keys and IVs of a new TLS session of a host, with zero sequence numbers; the handshake uses the
host's configured PSK, the masks the PAD key (R356, R358). The keys come out of the handshake, so they are free (log 3). -/
def newTls (key : Nat) (nqn : List Byte) (s : State) : State :=
  let v (i : Nat) : Nat := Config.freeNat (s.free + i)
  let r : TlsRec := { sess := key, txKey := v 0 % 2 ^ 256, rxKey := v 1 % 2 ^ 256, txIv := v 2 % 2 ^ 96, rxIv := v 3 % 2 ^ 96 }
  let psk (s : State) : State := match s.host.grants.find? fun g => nqnOf g.nqn == nqn with
    | some g => useKey (2048 + g.num) s
    | none => s
  (useKey 3072 (psk { s with free := s.free + 4 })).modCiph fun c => { c with recs := c.recs ++ [r] }

/-- A TLS handshake for a host can succeed: a PSK of its grant can be derived, the DRBG is fresh, and the record table has an entry left
(R346, R356, R358, R367). -/
def State.tlsReady (s : State) (nqn : List Byte) : Bool :=
  !s.drbgStale && decide (s.ciph.recs.length < 65536) && s.host.grants.any fun g => nqnOf g.nqn == nqn && (s.workingKey (2048 + g.num) 3).isSome

/-- A session is torn down: nothing more is posted to its queue, its commands are discarded, its held capsules go (R94). -/
def teardown (sess : Nat) (s : State) : State :=
  let (c, q) := s.queueOf sess
  let mine := s.host.cmds.filter fun x => x.sess == sess
  let s0 := s.modHost fun h => { h with cmds := updWhere (fun x => x.sess == sess) (fun x => { x with silent := true }) h.cmds }
  let s1 := postWrites (dropTls sess (mine.foldl dropCmd s0))
  s1.modHost fun h => { h with sessions := h.sessions.filter fun x => x.num != sess,
                               held := h.held.filter fun x => !(x.cap.cntlid == c && x.cap.qid == q) }

/-- An association and all its sessions are torn down (R64). -/
def teardownAssoc (a : Nat) (s : State) : State :=
  let s1 := dropTls a ((s.host.sessions.filter fun q => q.assoc == a).foldl (fun s q => teardown q.num s) s)
  s1.modHost fun h => { h with assocs := h.assocs.filter fun x => x.num != a,
                               held := h.held.filter fun x => x.cap.cntlid != s.cntlidOf a }

/-- KATO_EXPIRY: the sender reports that the timer has run out (R64). -/
def katoExpiry (cntlid : Nat) (s : State) : State :=
  match s.assocAt cntlid with
  | none => s
  | some a => raise Code.evHostKatoExpired Kind.assoc cntlid [] (teardownAssoc a.num s)

def execKatoExpiry (cntlid : Nat) (s : State) : Host.Outcome State Fault Refusal := .next (katoExpiry cntlid s)

/-- TRANSPORT_ERROR: the connection of one queue ends; the loss of an admin connection ends its association (R94). -/
def transportError (cntlid qid : Nat) (s : State) : State :=
  if qid = 0 then match s.assocAt cntlid with | some a => teardownAssoc a.num s | none => s
  else match s.sessAt cntlid qid with | some q => teardown q.num s | none => s

def execTransportError (cntlid qid : Nat) (s : State) : Host.Outcome State Fault Refusal := .next (transportError cntlid qid s)

/-! ### The capsule reserve (R63) -/

/-- Cells of a capsule: one, and one for each 64 B of in-capsule data or part of it. -/
def capsuleCells (c : Payload.Capsule) : Nat := 1 + ceilDiv (c.capLen - 64) 64

/-- Cells in use: held capsules, and the extent lists of Gathered Reads in flight (R86). -/
def State.cellsUsed (s : State) : Nat := (s.host.held.map HeldCapsule.cells).sum + (s.host.cmds.map Cmd.cells).sum

/-- Command contexts in use: commands in flight, and Asynchronous Event Requests that wait (R60, R62). -/
def State.contexts (s : State) : Nat := s.host.cmds.length + (s.host.assocs.map fun a => a.aers.length).sum

/-- The queue that a capsule came on is connected. -/
def State.connected (s : State) (c : Payload.Capsule) : Bool :=
  if c.qid = 0 then (s.assocAt c.cntlid).isSome else (s.sessAt c.cntlid c.qid).isSome

/-- The entry is consumed: SQHD advances (R63, R74). -/
def advance (c : Payload.Capsule) (s : State) : State :=
  match s.assocAt c.cntlid with
  | none => s
  | some a =>
    if c.qid = 0 then s.modAssoc a.num fun a => { a with sqhd := (a.sqhd + 1) % Nat.max 1 a.sqsize }
    else match s.sessAt c.cntlid c.qid with
      | some q => s.modSess q.num fun q => { q with sqhd := (q.sqhd + 1) % Nat.max 1 q.sqsize }
      | none => s

/-- The mode offers host service (R454), and no boot is on its way to STANDBY. -/
def State.serving (s : State) : Bool :=
  (s.mode.mode == .owner || s.mode.mode == .partner || s.mode.mode == .contained) &&
    !(s.mode.entering == some .standby && s.mode.toHand.isEmpty)

/-- A capsule arrives: it restarts the keep alive timer (R64), and is decoded when a context is free, else held; with
the reserve full the controller stops accepting capsules (R62, R63). A flush accepts none (R491), nor does a mode without host service, whose
target engines are clock-gated (R454). -/
def arrive (run : Payload.Capsule → State → State) (c : Payload.Capsule) (s : State) : State :=
  if !s.connected c || s.flush.active || !s.serving then s
  else
    let s1 := match s.assocAt c.cntlid with
      | some a => s.modAssoc a.num fun a => { a with heard := s.clock }
      | none => s
    if s1.contexts < 65536 && s1.host.held.isEmpty then run c (advance c s1)
    else if s1.cellsUsed + capsuleCells c ≤ 65536 then
      s1.modHost fun h => { h with held := h.held ++ [{ cells := capsuleCells c, cap := c }] }
    else s1.emit (.notReady c.cntlid c.qid)

/-! ### Answers -/

/-- A command of any queue is answered at once; a flush posts nothing (R491). -/
def reply (c : Payload.Capsule) (status : Nat) (dnr : Bool) (dw0 dw1 : Nat) (s : State) : State :=
  let hd := if c.qid = 0 then (s.assocAt c.cntlid).elim 0 Assoc.sqhd else (s.sessAt c.cntlid c.qid).elim 0 Session.sqhd
  if s.flush.active then s else postCpl c.cntlid c.qid c.cid status dnr dw0 dw1 hd s

/-- An admin command answered with data. -/
def replyData (c : Payload.Capsule) (data : List Byte) (dw0 : Nat) (s : State) : State :=
  if c.badBuf then reply c Sc.transfer false 0 0 s
  else reply c Sc.ok false dw0 0 (sendData c.cntlid c.qid c.cid 0 data s)

/-- An admin command runs for its association. -/
def withAssoc (c : Payload.Capsule) (f : Assoc → State → State) (s : State) : State :=
  match s.assocAt c.cntlid with
  | some a => f a s
  | none => s

/-! ### Connect (R61) -/

/-- A Connect is refused; one refused under R61's limits raises EV_HOST_ADMIT_REFUSED, at most once per second per host
NQN (R106). -/
def refuseConnect (m : Payload.Connect) (status : Nat) (s : State) : State :=
  let s1 := s.emit (.refusedConnect m.port m.cid status)
  let nqn := nqnOf m.hostNqn
  let told := (s.host.refusedTold.find? fun p => p.1 == nqn).map Prod.snd
  if status = Sc.connectParams && s.passed told 1000000 then
    raise Code.evHostAdmitRefused Kind.port m.port []
      (s1.modHost fun h => { h with refusedTold := (nqn, s.clock) :: h.refusedTold.filter fun p => p.1 != nqn })
  else s1

/-- Keep alive time as it is kept: 0 is 120,000 ms, in steps of 100 ms (R60). R60 states no rounding; it rounds up (DESIGN CHOICE,
log 127). -/
def katoOf (v : Nat) : Nat := if v = 0 then 120000 else ceilDiv v 100 * 100

/-- A keep alive time is in range (R60). -/
def katoOk (v : Nat) : Bool := v = 0 || (1000 ≤ v && v ≤ 600000)

/-- A policy with the deadline that stands for 0 worked out when it is set up: a later write of the parameter leaves it (R93, R104). -/
def State.fixPolicy (s : State) (p : Policy) : Policy := { p with deadline := if p.deadline = 0 then s.paramN 0x2004 else p.deadline }

/-- The read policy of a new session (R93). -/
def State.newPolicy (s : State) (a : Assoc) : Policy :=
  s.fixPolicy (a.policy.getD { ra := s.paramN 0x2005 == 1, deadline := 0, rate := 0, burst := 1024 })

/-- Connect of an admin queue: an association with the lowest free controller ID (R57, R60, R61). -/
def connectAdmin (m : Payload.Connect) (disc : Bool) (s : State) : State :=
  match s.freeCntlid with
  | none => refuseConnect m Sc.connectParams s
  | some id =>
    let size := m.sqsize + 1
    if m.sqsize = 0 || 32 < size || !katoOk m.kato || s.paramN 0x2003 < s.admitted + size then
      refuseConnect m Sc.connectParams s
    else
      let a : Assoc := { num := s.host.nextId, cntlid := id, nqn := nqnOf m.hostNqn, discovery := disc, port := m.port,
                         sub := m.sub, tcp := m.tcp, hdgst := m.tcp && m.hdgst, ddgst := m.tcp && m.ddgst, kato := katoOf m.kato, heard := s.clock, sqsize := size,
                         queues := s.paramN 0x2001 - 1 }
      let s1 := s.modHost fun h => { h with assocs := h.assocs ++ [a], nextId := h.nextId + 1 }
      answerAdmin a.num m.cid Sc.ok false id 0 (if m.tcp && m.tls then newTls a.num a.nqn s1 else s1)

/-- Connect of an I/O queue: a session of its association (R60 to R62). -/
def connectIo (m : Payload.Connect) (s : State) : State :=
  match s.assocAt m.cntlid with
  | none => refuseConnect m Sc.connectParams s
  | some a =>
    let size := m.sqsize + 1
    let mine := s.host.sessions.filter fun q => q.assoc == a.num
    if a.discovery || a.nqn != nqnOf m.hostNqn then refuseConnect m Sc.connectParams s
    else if (s.sessAt m.cntlid m.qid).isSome then refuseConnect m Sc.sequence s
    else if 65536 ≤ s.host.sessions.length || s.paramN 0x2001 ≤ mine.length || 65534 < m.qid || m.sqsize = 0 ||
        s.paramN 0x2002 < size || s.paramN 0x2003 < s.admitted + size then refuseConnect m Sc.connectParams s
    else
      let p := s.newPolicy a
      let q : Session := { num := s.host.nextId, assoc := a.num, qid := m.qid, sqsize := size, port := m.port, sub := m.sub,
                           tcp := m.tcp, tls := m.tls, hdgst := m.tcp && m.hdgst, ddgst := m.tcp && m.ddgst, policy := p, bucket := p.burst * 1024, bucketAt := s.clock, engine := s.freeNat % 8 }
      let s1 := s.drew.modHost fun h => { h with sessions := h.sessions ++ [q], nextId := h.nextId + 1 }
      postCpl m.cntlid m.qid m.cid Sc.ok false m.cntlid 0 0 (if m.tcp && m.tls then newTls q.num a.nqn s1 else s1)

/-- A connection reaches a service: TCP for I/O or for discovery on its port, RDMA for both on one service ID (R59). One to another
port or ID finds no service there, and nothing comes of it (DESIGN CHOICE, log 127). -/
def State.serves (s : State) (m : Payload.Connect) (disc : Bool) : Bool :=
  m.service == s.paramN (if !m.tcp then 0x200C else if disc then 0x200B else 0x200A)

/-- CONNECT. A sub-port that is not up accepts none (R289), and a mode without host service refuses the connection (R454). The digests that a host asks for on TCP are both granted (R59). A TLS handshake that failed, or for which no PSK can be derived, raises EV_HOST_TLS_FAILED, and a TCP connection without TLS is not accepted
while TLS is required (R59, R104). -/
def connect (m : Payload.Connect) (s : State) : State :=
  let disc := nqnOf m.subNqn == discoveryNqn
  if !s.ddUp || !s.subUp m.port m.sub then s
  else if !s.serving then s.emit (.connRefused m.port m.sub)
  else if !s.serves m disc then s
  else if m.tcp && m.tls && (m.tlsFailed || !s.tlsReady (nqnOf m.hostNqn)) then raise Code.evHostTlsFailed Kind.port m.port [] s
  else if m.tcp && !m.tls && s.paramN 0x2009 = 1 then s
  else if !disc && nqnOf m.subNqn != s.subsystemNqn then refuseConnect m Sc.connectParams s
  else if !disc && !(s.host.grants.any fun g => nqnOf g.nqn == nqnOf m.hostNqn) then refuseConnect m Sc.connectHost s
  else if m.qid = 0 then connectAdmin m disc s
  else connectIo m s

def execConnect (m : Payload.Connect) (s : State) : Host.Outcome State Fault Refusal := .next (connect m s)

/-! ### Properties and Disconnect (R77) -/

/-- Controller Capabilities: MQES, CQR, command set support; the timeout and the page sizes are open (R60, log 3). -/
def State.capProperty (s : State) : Nat :=
  (s.paramN 0x2002 - 1) + 2 ^ 16 + field s.freeNat 24 8 + 2 ^ 37 + 2 ^ 43

/-- PROPERTY_SET: CC with its enable and shutdown fields (NVMe); any other property is an invalid field. -/
def propertySet (c : Payload.Capsule) (s : State) : State :=
  withAssoc c (fun a s =>
    if c.cdw11 ≠ 0x14 then reply c Sc.field true 0 0 s
    else
      let v := c.cdw12
      let off := a.rdy && !bit v 0
      let s1 := if off then
          (s.host.sessions.filter fun q => q.assoc == a.num).foldl (fun s q => teardown q.num s) s
        else s
      let s2 := s1.modAssoc a.num fun a =>
        { a with cc := v, rdy := bit v 0, shst := if bits v 14 2 ≠ 0 then 2 else if off then 0 else a.shst,
                 aec := if off then 0 else a.aec, aers := if off then [] else a.aers, notices := if off then [] else a.notices }
      reply c Sc.ok false 0 0 s2) s

def execPropertySet (c : Payload.Capsule) (s : State) : Host.Outcome State Fault Refusal :=
  .next (arrive propertySet c s)

/-- PROPERTY_GET: CAP, VS, CC, CSTS (NVMe). -/
def propertyGet (c : Payload.Capsule) (s : State) : State :=
  withAssoc c (fun a s =>
    if c.cdw11 = 0 then reply c Sc.ok false (s.capProperty % 2 ^ 32) (s.capProperty / 2 ^ 32) s.drew
    else if c.cdw11 = 0x08 then reply c Sc.ok false 0x00020000 0 s
    else if c.cdw11 = 0x14 then reply c Sc.ok false a.cc 0 s
    else if c.cdw11 = 0x1C then reply c Sc.ok false (flag a.rdy 0 + field a.shst 2 2) 0 s
    else reply c Sc.field true 0 0 s) s

def execPropertyGet (c : Payload.Capsule) (s : State) : Host.Outcome State Fault Refusal :=
  .next (arrive propertyGet c s)

/-- DISCONNECT tears down the I/O queue it arrives on (R77, R94); on the admin queue it is an invalid field. -/
def disconnect (c : Payload.Capsule) (s : State) : State :=
  match s.sessAt c.cntlid c.qid with
  | some q => if c.qid = 0 then reply c Sc.field true 0 0 s else teardown q.num (reply c Sc.ok false 0 0 s)
  | none => reply c Sc.field true 0 0 s

def execDisconnect (c : Payload.Capsule) (s : State) : Host.Outcome State Fault Refusal :=
  .next (arrive disconnect c s)

end Sys2Proof.Machine
end

