-- ==== Sys2Proof/Machine/HostIo.lean ====
section
/-! DEFINITION. Host I/O commands: Flush, Write, Read, Write Zeroes, Dataset Management, Verify, Gathered Read, Paced Read
(R65 to R76, R81 to R92, R96, R97). -/

namespace Sys2Proof.Machine

/-! ### What every I/O command checks first -/

/-- A namespace that the association's host may use. -/
def State.hostNs (s : State) (a : Assoc) (nsid : Nat) : Option Ns :=
  if nsid = 0 then none
  else match s.ns? (nsid - 1) with
    | some n => if s.granted a.nqn n.nsx && !n.deleting then some n else none
    | none => none

/-- The command's session, association and namespace. -/
structure Io where
  a : Assoc := {}
  q : Session := {}
  n : Ns := {}
  deriving DecidableEq, Repr, Inhabited

/-- A namespace's group spent, or host-set Write Protect (R67). -/
def State.writeProtected (s : State) (n : Ns) : Bool := n.protect || (s.group n.group).space == .spent

/-- A command to one namespace goes on, or ends at arrival: fused, unknown namespace (R100), ANA state (R66), retired
key generation (R68). -/
def withIo (c : Payload.Capsule) (write : Bool) (f : Io → State → State) (s : State) : State :=
  match s.assocAt c.cntlid, s.sessAt c.cntlid c.qid with
  | some a, some q =>
    if c.fuse ≠ 0 then reply c Sc.field true 0 0 s
    else match s.hostNs a c.nsid with
      | none => reply c Sc.badNs true 0 0 s
      | some n =>
        match s.anaRefusal n.group write with
        | some st => reply c st false 0 0 s
        | none =>
          if n.encrypted && n.genRetired then reply c Sc.genRetired true 0 0 s
          else f { a, q, n } s
  | _, _ => s

/-- A command context for a capsule (R62). -/
def cmdOf (c : Payload.Capsule) (kind : CmdKind) (q : Session) (n : Ns) (s : State) : Cmd :=
  { num := s.host.nextId, sess := q.num, cid := c.cid, kind, nsx := n.nsx, stamp := s.clock, engine := q.engine, badBuf := c.badBuf }

/-- A context joins those in flight (R62), with the key generations that it has read (R361). -/
def addCmd (x : Cmd) (s : State) : State :=
  let y := { x with gens := s.gensOf (x.nsx :: x.units.map ReadUnit.nsx) }
  s.modHost fun h => { h with cmds := h.cmds ++ [y], nextId := h.nextId + 1 }

/-- SLBA (CDW10, CDW11) and a 0-based NLB. -/
def capSlba (c : Payload.Capsule) : Nat := c.cdw10 + c.cdw11 * 2 ^ 32
def capNlb (c : Payload.Capsule) : Nat := c.cdw12 % 65536 + 1

/-- The 2 MiB limit of MDTS (R60). -/
abbrev mdts : Nat := 2097152

/-! ### Reads (R76, R81, R83) -/

/-- The units of a byte range, in order, with where each goes in the transfer (R86). -/
def readUnits (ext nsx first len dst : Nat) : List ReadUnit :=
  (unitsOf first len).map fun u =>
    let lo := Nat.max first (u * 16384)
    let hi := Nat.min (first + len) (u * 16384 + 16384)
    { ext, nsx, unitNo := u, off := lo - u * 16384, len := hi - lo, dst := dst + (lo - first) }

/-- A read of one range begins. -/
def beginRead (x : Cmd) (s : State) : State := runRead x.num (addCmd x s)

/-- NVME_READ. -/
def nvmeRead (c : Payload.Capsule) (s : State) : State :=
  withIo c false (fun io s =>
    let first := capSlba c * io.n.lba
    let len := capNlb c * io.n.lba
    if mdts < len then reply c Sc.field true 0 0 s
    else if io.n.size < first + len then reply c Sc.lbaRange true 0 0 s
    else
      let x := { cmdOf c .read io.q io.n s with
        first, len, lr := bit c.cdw12 31, dsm := c.cdw13 % 256, units := readUnits 0 io.n.nsx first len 0 }
      beginRead x (s.modHost fun h => { h with readCmds := h.readCmds + 1 })) s

def execNvmeRead (c : Payload.Capsule) (s : State) : Host.Outcome State Fault Refusal := .next (arrive nvmeRead c s)

/-- NVME_VERIFY reads and checks, and returns no data (R81). -/
def nvmeVerify (c : Payload.Capsule) (s : State) : State :=
  withIo c false (fun io s =>
    let first := capSlba c * io.n.lba
    let len := capNlb c * io.n.lba
    if io.n.size < first + len then reply c Sc.lbaRange true 0 0 s
    else
      let x := { cmdOf c .verify io.q io.n s with
        first, len, lr := bit c.cdw12 31, noHawk := true, units := readUnits 0 io.n.nsx first len 0 }
      beginRead x s) s

def execNvmeVerify (c : Payload.Capsule) (s : State) : Host.Outcome State Fault Refusal := .next (arrive nvmeVerify c s)

/-! ### Pacing (R90, R92) -/

/-- Paced bytes of a session not yet sent. -/
def State.pacedLeft (s : State) (sess : Nat) : Nat :=
  ((s.host.cmds.filter fun x => x.paced && x.sess == sess).map fun x =>
    ((x.units.filter fun u => u.st != .sent).map ReadUnit.len).sum).sum

/-- The status that refuses a paced command of a length, if any (R92). -/
def State.pacedRefusal (s : State) (q : Session) (len : Nat) : Option (Nat × Bool) :=
  let r := q.policy.rate
  if r = 0 then some (Sc.pacingNotConfigured, true)
  else if s.paramN 0x2008 * r * 1000 < (s.pacedLeft q.num + len) * 8 then some (Sc.pacingBacklog, false)
  else none

/-- A DEADLINE field is 0 or 20 to 10,000 µs (R84). -/
def deadlineOk (d : Nat) : Bool := d = 0 || (20 ≤ d && d ≤ 10000)

/-- PACED_READ (R89 to R92). -/
def pacedRead (c : Payload.Capsule) (s : State) : State :=
  withIo c false (fun io s =>
    let first := capSlba c * io.n.lba
    let len := capNlb c * io.n.lba
    let d := bits c.cdw13 16 16
    if c.cdw13 % 256 ≠ 0 || c.cdw14 ≠ 0 || c.cdw15 ≠ 0 || !deadlineOk d then reply c Sc.field true 0 0 s
    else if io.n.size < first + len then reply c Sc.lbaRange true 0 0 s
    else match s.pacedRefusal io.q len with
      | some (st, dnr) => reply c st dnr 0 0 s
      | none =>
        let x := { cmdOf c .paced io.q io.n s with
          first, len, lr := bit c.cdw12 31, deadline := d, paced := true, units := readUnits 0 io.n.nsx first len 0 }
        beginRead x (s.modHost fun h => { h with readCmds := h.readCmds + 1 })) s

def execPacedRead (c : Payload.Capsule) (s : State) : Host.Outcome State Fault Refusal := .next (arrive pacedRead c s)

/-- The bucket as it stands now: it fills at R up to B (R90). -/
def State.bucketNow (s : State) (q : Session) : Nat :=
  Nat.min (q.policy.burst * 1024) (q.bucket + (s.clock - q.bucketAt) * q.policy.rate * 125000 / 1600000000)

/-- Bytes of the front unit leave, and its buffer drains (R111); the unit is finished when its last byte has. -/
def pacedChunk (c n : Nat) (s : State) : State :=
  match s.cmd? c with
  | none => s
  | some x =>
    let i := x.front
    let u := nth x.units i
    if u.len ≤ n then sendUnit c i s
    else
      let (cn, qd) := s.queueOf x.sess
      let s1 := (sendData cn qd x.cid u.dst (slice (unitBytes u.data) u.off n) s).modHost fun h =>
        { h with readBytes := h.readBytes + n }
      let s2 := s1.modFlash fun f => { f with
        bufs := updWhere (fun b => b.use == .host c i && b.st == .held) (fun b => { b with st := .drain }) f.bufs }
      s2.modCmd c fun x => { x.modUnit i fun u => { u with off := u.off + n, len := u.len - n, dst := u.dst + n } with begun := true }

/-- Up to `n` bytes leave, unit by unit. -/
def pacedBytes (c : Nat) : Nat → Nat → State → State
  | 0, _, s => s
  | fuel + 1, n, s =>
    match s.cmd? c with
    | none => s
    | some x =>
      let u := nth x.units x.front
      if n = 0 || x.units.length ≤ x.front then s
      else pacedBytes c fuel (n - u.len) (pacedChunk c n s)

/-- Bytes that are ready to leave, in order. -/
def Cmd.readyBytes (x : Cmd) : Nat :=
  (((x.units.drop x.front).takeWhile fun u => u.st == .ready).map ReadUnit.len).sum

/-- PACED_FRAME_SEND: the oldest paced command of a session sends a frame of `bytes` of payload, when the bucket holds it
and the data is there; a frame holds no more than what is left (R90, R91). -/
def pacedFrameSend (cntlid qid bytes : Nat) (s : State) : State :=
  match s.sessAt cntlid qid with
  | none => s
  | some q =>
    match (s.host.cmds.filter fun x => x.paced && x.sess == q.num).head? with
    | none => s
    | some x0 =>
      let s := runRead x0.num s
      match s.cmd? x0.num with
      | none => s
      | some x =>
        let left := ((x.units.filter fun u => u.st != .sent).map ReadUnit.len).sum
        let n := Nat.min bytes left
        if n = 0 || x.readyBytes < n || s.bucketNow q < n then s
        else if x.badBuf then failCmd x.num Sc.transfer false (x.failDw0 (nth x.units x.front).ext 0) s
        else
          let s1 := s.modSess q.num fun q => { q with bucket := s.bucketNow q - n, bucketAt := s.clock }
          let s2 := pacedBytes x.num (x.units.length + 1) n s1
          match s2.cmd? x.num with
          | none => s2
          | some y =>
            if y.front = y.units.length then
              let s3 := complete y.num Sc.ok false y.readDw0 0 s2
              match (s3.host.cmds.filter fun x => x.paced && x.sess == q.num).head? with
              | some z => runRead z.num s3
              | none => s3
            else runRead y.num s2

def execPacedFrameSend (cntlid qid bytes : Nat) (s : State) : Host.Outcome State Fault Refusal :=
  .next (pacedFrameSend cntlid qid bytes s)

/-! ### Gathered Read (R84 to R88) -/

/-- One extent of the list. -/
structure Extent where
  nsid : Nat := 0
  nlb : Nat := 0
  slba : Nat := 0
  deriving DecidableEq, Repr, Inhabited

def extentAt (b : List Byte) (i : Nat) : Extent :=
  { nsid := leAt b (16 * i) 4, nlb := leAt b (16 * i + 4) 4, slba := leAt b (16 * i + 8) 8 }

/-- The extents of a Gathered Read with their namespaces; none where one does not exist or is not granted. -/
def State.gatherNs (s : State) (a : Assoc) (c : Payload.Capsule) (es : List Extent) : List (Extent × Option Ns) :=
  es.map fun e => (e, s.hostNs a (if e.nsid = 0 then c.nsid else e.nsid))

/-- The units of all extents, each at its offset (R86). -/
def gatherUnits (es : List (Extent × Ns)) : List ReadUnit :=
  (es.foldl (fun (a : List ReadUnit × Nat × Nat) p =>
    let (us, i, o) := a
    let len := p.1.nlb * p.2.lba
    (us ++ readUnits i p.2.nsx (p.1.slba * p.2.lba) len o, i + 1, o + len)) ([], 0, 0)).1

/-- A Gathered Read is checked completely before any flash is read (R87). A failure names the first failing extent
(R88). -/
def gatheredRead (c : Payload.Capsule) (s : State) : State :=
  match s.assocAt c.cntlid, s.sessAt c.cntlid c.qid with
  | some a, some q =>
    let next := bits c.cdw10 0 7
    let es := (List.range next).map (extentAt c.data)
    let nss := s.gatherNs a c es
    let bad (p : Extent → Option Ns → Bool) : Option Nat := nss.findIdx? fun e => p e.1 e.2
    let total := (nss.map fun e => e.1.nlb * (match e.2 with | some n => n.lba | none => 0)).sum
    let fail (st i : Nat) (s : State) : State := reply c st true (i * 65536) 0 s
    let paced := bit c.cdw10 17
    if c.fuse ≠ 0 || c.psdt ≠ 1 then reply c Sc.field true 0 0 s
    else if next = 0 || 64 < next || bits c.cdw10 7 9 ≠ 0 || bits c.cdw10 18 14 ≠ 0 || bits c.cdw11 16 16 ≠ 0 ||
        c.rsvd.any (· != 0) || c.cdw13 ≠ 0 || c.cdw14 ≠ 0 || c.cdw15 ≠ 0 || c.capLen < 64 + 16 * next ||
        c.data.length < 16 * next then fail Sc.extentList 0 s
    else match bad fun e _ => e.nlb == 0 with
      | some i => fail Sc.extentList i s
      | none =>
        if c.cdw12 ≠ c.sglLen then fail Sc.extentList 0 s
        else match bad fun _ n => n.isNone with
          | some i => fail Sc.badNs i s
          | none =>
            if total ≠ c.cdw12 then fail Sc.extentList 0 s
            else if s.paramN 0x2006 < total then fail Sc.gatherTooLarge 0 s
            else match bad fun e n => match n with | some n => decide (n.lbas < e.slba + e.nlb) | none => false with
              | some i => fail Sc.lbaRange i s
              | none =>
                match bad fun _ n => match n with | some n => (s.anaRefusal n.group false).isSome | none => false with
                | some i => fail Sc.extentNotLocal i s
                | none =>
                  match bad fun _ n => match n with | some n => n.encrypted && n.genRetired | none => false with
                  | some i => fail Sc.genRetired i s
                  | none =>
                    if !deadlineOk (c.cdw11 % 65536) then reply c Sc.field true 0 0 s
                    else match (if paced then s.pacedRefusal q total else none) with
                      | some (st, dnr) => reply c st dnr 0 0 s
                      | none =>
                        let units := gatherUnits (nss.filterMap fun e => e.2.map fun n => (e.1, n))
                        let x := { cmdOf c .gathered q ((nth nss 0).2.getD {}) s with
                          len := total, noHawk := bit c.cdw10 16, deadline := c.cdw11 % 65536, paced, units,
                          cells := ceilDiv (16 * next) 64 }
                        beginRead x (s.modHost fun h => { h with readCmds := h.readCmds + 1 })
  | _, _ => s

def execGatheredRead (c : Payload.Capsule) (s : State) : Host.Outcome State Fault Refusal :=
  .next (arrive gatheredRead c s)

/-! ### Zones (R70 to R72) -/

/-- Zone states that are active, and that are open (R70). -/
def ZoneSt.active : ZoneSt → Bool
  | .implOpen | .explOpen | .closed => true
  | _ => false
def ZoneSt.opened : ZoneSt → Bool
  | .implOpen | .explOpen => true
  | _ => false

/-- Active zones over all zoned namespaces (R70). -/
def State.activeZones (s : State) : Nat := (s.host.nss.map fun n => (n.zones.filter fun z => z.st.active).length).sum

/-- A zone's descriptor changes by controller action: the Changed Zone List and the notice (R78, R102). -/
def zoneChanged (nsx z : Nat) (s : State) : State :=
  let sees (a : Assoc) : Bool := !a.discovery && s.granted a.nqn nsx
  let add (a : Assoc) : Assoc :=
    if sees a && !a.changedZones.contains (nsx, z) then { a with changedZones := a.changedZones ++ [(nsx, z)] } else a
  let s1 := s.modHost fun h => { h with assocs := h.assocs.map add }
  noticeAll sees 2 0xEF 0xBF s1

/-- An active zone more is allowed in the namespace and in the controller (R70). -/
def State.activeRoom (s : State) (n : Ns) : Bool :=
  decide ((n.zones.filter fun z => z.st.active).length < n.maxActive) && decide (s.activeZones < 65536)

/-- An open zone more is allowed in the namespace (R70). -/
def Ns.openRoom (n : Ns) : Bool := decide ((n.zones.filter fun z => z.st.opened).length < n.maxOpen)

/-- The implicitly opened zone written least recently (R71). -/
def Ns.oldestOpen (n : Ns) : Option Nat :=
  ((n.zones.filter fun z => z.st == .implOpen).foldl (fun (a : Option Zone) z => match a with
    | none => some z
    | some x => if z.order < x.order then some z else some x) none).map Zone.num

/-- A write makes its zone implicitly open, with the class of the command that opens it (R70, R71, R156), or the status
that refuses it. -/
def openForWrite (n : Ns) (z cls : Nat) (s : State) : Except Nat State :=
  let zn := n.zone z
  let set (x : Zone) : Zone := { x with st := .implOpen, cls := if x.st = .empty then cls else x.cls }
  let put (s : State) : State := s.modNs n.nsx fun n => n.modZone z set
  if zn.st.opened then .ok s
  else if zn.st = .empty && !s.activeRoom n then .error Sc.zoneTooManyActive
  else if n.openRoom then .ok (put s)
  else match n.oldestOpen with
    | none => .error Sc.zoneTooManyOpen
    | some o =>
      .ok (put (zoneChanged n.nsx o (s.modNs n.nsx fun n => n.modZone o fun x => { x with st := .closed })))

/-! ### Writes (R27, R65, R69, R72, R75) -/

/-- The directive of a write: none or a stream; another type is an invalid field (R81). -/
def capStream (c : Payload.Capsule) : Option Nat :=
  let t := bits c.cdw12 20 4
  if t = 0 then some 0 else if t = 1 then some (bits c.cdw13 16 16) else none

/-- A write enters: its context is made, and it fetches or is held. -/
def beginWrite (x : Cmd) (s : State) : State :=
  tryFetch x.num ((addCmd { x with wst := .overlap } s).modHost fun h =>
    { h with writeCmds := h.writeCmds + 1, writeBytes := h.writeBytes + x.len })

/-- A write to a zone: the pointer advances at arrival (R72). The zone becomes Full when the write that fills it completes, so that a
failure can still set the pointer back (R71; DESIGN CHOICE, log 127); one with its pointer at the end takes no further write. -/
def zonedWrite (c : Payload.Capsule) (io : Io) (x : Cmd) (z : Nat) (append : Bool) (s : State) : State :=
  let n := io.n
  let zn := n.zone z
  let units := x.len / 16384
  let pos := if append then zn.wp else x.first / 16384 - z * n.zoneUnits
  if zn.st = .full || n.zoneUnits ≤ zn.wp then reply c Sc.zoneFull true 0 0 s
  else if n.zoneUnits < pos + units then reply c Sc.zoneBoundary true 0 0 s
  else if pos ≠ zn.wp then reply c Sc.zoneInvalidWrite true 0 0 s
  else
    let cls := (cmdClass x.dspec x.dsm).getD n.cls
    match openForWrite n z cls s with
    | .error st => reply c st true 0 0 s
    | .ok s1 =>
      let wp1 := zn.wp + units
      let s2 := s1.modNs n.nsx fun n => n.modZone z fun y =>
        { y with wp := wp1, order := x.num }
      beginWrite { x with first := (z * n.zoneUnits + zn.wp) * 16384, zone := z, zoneUnit := zn.wp } s2

/-- NVME_WRITE. -/
def nvmeWrite (c : Payload.Capsule) (s : State) : State :=
  withIo c true (fun io s =>
    let first := capSlba c * io.n.lba
    let len := capNlb c * io.n.lba
    match capStream c with
    | none => reply c Sc.field true 0 0 s
    | some d =>
      if mdts < len then reply c Sc.field true 0 0 s
      else if s.writeProtected io.n then reply c Sc.protected true 0 0 s
      else if io.n.size < first + len then reply c Sc.lbaRange true 0 0 s
      else
        let x := { cmdOf c .write io.q io.n s with
          first, len, fua := bit c.cdw12 30, dsm := c.cdw13 % 256, dspec := d, data := padTo len c.data }
        if io.n.zoned then
          if first % 16384 ≠ 0 || len % 16384 ≠ 0 then reply c Sc.misaligned true 0 0 s
          else zonedWrite c io x (first / 16384 / io.n.zoneUnits) false s
        else beginWrite x s) s

def execNvmeWrite (c : Payload.Capsule) (s : State) : Host.Outcome State Fault Refusal := .next (arrive nvmeWrite c s)

/-- ZONE_APPEND writes at the zone's write pointer (R69, R72). -/
def zoneAppend (c : Payload.Capsule) (s : State) : State :=
  withIo c true (fun io s =>
    let first := capSlba c * io.n.lba
    let len := capNlb c * io.n.lba
    let zoneBytes := io.n.zoneUnits * 16384
    if !io.n.zoned then reply c Sc.opcode true 0 0 s
    else match capStream c with
    | none => reply c Sc.field true 0 0 s
    | some d =>
      if mdts < len then reply c Sc.field true 0 0 s
      else if s.writeProtected io.n then reply c Sc.protected true 0 0 s
      else if io.n.size ≤ first then reply c Sc.lbaRange true 0 0 s
      else if len % 16384 ≠ 0 || first % 16384 ≠ 0 then reply c Sc.misaligned true 0 0 s
      else if first % zoneBytes ≠ 0 then reply c Sc.field true 0 0 s
      else
        let x := { cmdOf c .zappend io.q io.n s with
          first, len, fua := bit c.cdw12 30, dsm := c.cdw13 % 256, dspec := d, data := padTo len c.data }
        zonedWrite c io x (first / zoneBytes) true s) s

def execZoneAppend (c : Payload.Capsule) (s : State) : Host.Outcome State Fault Refusal := .next (arrive zoneAppend c s)

/-- WRITE_ZEROES: units covered entirely are unmapped, units covered in part read, merged and written (R81). -/
def writeZeroes (c : Payload.Capsule) (s : State) : State :=
  withIo c true (fun io s =>
    let first := capSlba c * io.n.lba
    let len := capNlb c * io.n.lba
    if io.n.zoned then reply c Sc.opcode true 0 0 s
    else if s.writeProtected io.n then reply c Sc.protected true 0 0 s
    else if io.n.size < first + len then reply c Sc.lbaRange true 0 0 s
    else beginWrite { cmdOf c .zeroes io.q io.n s with first, len, fua := bit c.cdw12 30 } s) s

def execWriteZeroes (c : Payload.Capsule) (s : State) : Host.Outcome State Fault Refusal :=
  .next (arrive writeZeroes c s)

/-- One range of a Dataset Management list: access frequency, first byte, length. -/
def dsmRange (n : Ns) (b : List Byte) (i : Nat) : Nat × Nat × Nat :=
  (bits (leAt b (16 * i) 4) 0 4, leAt b (16 * i + 8) 8 * n.lba, leAt b (16 * i + 4) 4 * n.lba)

/-- DATASET_MANAGEMENT: access-frequency hints of the 256 most recent ranges (R155), and deallocation (R81). A unit that a range
covers in part takes its hint too, for which R155 states nothing (DESIGN CHOICE, log 127). -/
def datasetManagement (c : Payload.Capsule) (s : State) : State :=
  withIo c (bit c.cdw11 2) (fun io s =>
    let rs := (List.range (c.cdw10 % 256 + 1)).map (dsmRange io.n c.data)
    if io.n.zoned then reply c Sc.opcode true 0 0 s
    else if c.badBuf then reply c Sc.transfer false 0 0 s
    else if bit c.cdw11 2 && s.writeProtected io.n then reply c Sc.protected true 0 0 s
    else if rs.any fun r => decide (io.n.size < r.2.1 + r.2.2) then reply c Sc.lbaRange true 0 0 s
    else
      let hints := rs.filterMap fun r => (freqClass r.1).map fun k =>
        (r.2.1 / 16384, (r.2.1 + r.2.2 + 16383) / 16384 - r.2.1 / 16384, k)
      let s1 := s.modNs io.n.nsx fun n => { n with hints := (hints.reverse ++ n.hints).take 256 }
      let spans := (rs.filter fun r => r.2.2 != 0).map fun r => (r.2.1, r.2.2)
      match bit c.cdw11 2, spans with
      | true, p :: more => beginWrite { cmdOf c .dealloc io.q io.n s1 with first := p.1, len := p.2, more } s1
      | _, _ => reply c Sc.ok false 0 0 s1) s

def execDatasetManagement (c : Payload.Capsule) (s : State) : Host.Outcome State Fault Refusal :=
  .next (arrive datasetManagement c s)

/-! ### Flush (R82) -/

/-- The records of completed writes to a namespace that are not yet retired. -/
def State.openRecs (s : State) (n : Ns) : List JRec :=
  let open_ := (s.host.cmds.filter fun x => x.kind.writes && !x.silent && x.nsx == n.nsx).flatMap Cmd.recs
  (s.group n.group).journal.filter fun r =>
    (r.ty == 1 || r.ty == 0x0B || r.ty == 0x0C) && r.wNsx == n.nsx && !open_.contains r.jseq

/-- The stripes that hold a namespace's completed writes are closed (R27, R82). -/
def flushNs (n : Ns) (s : State) : State :=
  let guas := ((s.openRecs n).filter fun r => r.ty == 1).flatMap fun r => (List.range r.wCount).map (r.wGua + ·)
  closeFor n.group guas s

/-- NVME_FLUSH: FFFF_FFFFh is every granted namespace whose group is Optimized here. -/
def nvmeFlush (c : Payload.Capsule) (s : State) : State :=
  let go (io : Io) (ns : List Ns) (s : State) : State :=
    let waitFor := ns.flatMap fun n => (s.openRecs n).map fun r => (n.group, r.jseq)
    let x := { cmdOf c .flush io.q io.n s with waitFor }
    postWrites (addCmd x (ns.foldl (fun s n => flushNs n s) s))
  if c.nsid = 0xFFFFFFFF then
    match s.assocAt c.cntlid, s.sessAt c.cntlid c.qid with
    | some a, some q =>
      if c.fuse ≠ 0 then reply c Sc.field true 0 0 s
      else go { a, q, n := { nsx := 0xFFFF } }
        (s.host.nss.filter fun n => s.granted a.nqn n.nsx && (s.anaRefusal n.group false).isNone) s
    | _, _ => s
  else withIo c false (fun io s => go io [io.n] s) s

def execNvmeFlush (c : Payload.Capsule) (s : State) : Host.Outcome State Fault Refusal := .next (arrive nvmeFlush c s)

end Sys2Proof.Machine
end

