-- ==== Sys2Proof/Machine/HostZones.lean ====
section
/-! DEFINITION. Zone Management Send and Receive, and the release of held writes (R71, R75, R81, R243). -/

namespace Sys2Proof.Machine

/-! ### Zone Management Send (R71) -/

/-- A zone is dropped: its extents' units stop being valid, its lost units stop being lost, Hawk forgets it (R71, R97,
R125). -/
def dropZone (nsx z : Nat) (s : State) : State :=
  match s.ns? nsx with
  | none => s
  | some n =>
    let zn := n.zone z
    let s1 := (List.range zn.written).foldl (fun s i =>
      match zn.gua? i with
      | some g => addValid n.group g false (unlose n.group g s)
      | none => s) s
    let s2 := purgeHawk (fun m u => m == nsx && u / n.zoneUnits == z) s1
    s2.modNs nsx fun n => { n with zones := n.zones.filter fun x => x.num != z }

/-- A ZONE record for one zone, added to the command's records (R242). -/
def journalZone (c nsx z act : Nat) (s : State) : State :=
  match s.ns? nsx with
  | none => s
  | some n =>
    let j := (s.group n.group).jseq
    (journal n.group 0x0C (bodyZone nsx z act) s).modCmd c fun x => { x with recs := x.recs ++ [j] }

/-- Reset of one zone. -/
def resetZone (c nsx z : Nat) (s : State) : State := journalZone c nsx z 1 (dropZone nsx z s)

/-- Finish moves a zone to Full at once, beside its writes in flight (R71); with more extents than `ftl.zone.compact_extents` it is to be
compacted (R149). -/
def finishZone (c nsx z : Nat) (s : State) : State :=
  journalZone c nsx z 2 (s.modNs nsx fun n => n.modZone z fun x =>
    { x with st := .full, finished := true, compact := x.compact || decide (s.paramN 0x300C < x.extents.length) })

/-- Every zone number of a namespace. -/
def Ns.zoneNums (n : Ns) : List Nat := List.range (n.size / (n.zoneUnits * 16384))

/-- The zones that an action with Select All touches: 1 close, 2 finish, 3 open, 4 reset. -/
def Ns.selected (n : Ns) (act : Nat) : List Nat :=
  n.zoneNums.filter fun z =>
    let st := (n.zone z).st
    if act = 1 then st.opened else if act = 2 then st.active else if act = 3 then st == .closed else st != .empty

/-- Open of one zone: explicit; no zone is closed to make room (R71). -/
def openZone (nsx z : Nat) (s : State) : Except Nat State :=
  match s.ns? nsx with
  | none => .error Sc.badNs
  | some n =>
    let put (x : Zone) : Zone := { x with st := .explOpen }
    match (n.zone z).st with
    | .explOpen => .ok s
    | .full => .error Sc.zoneTransition
    | .implOpen => .ok (s.modNs nsx fun n => n.modZone z put)
    | .closed => if n.openRoom then .ok (s.modNs nsx fun n => n.modZone z put) else .error Sc.zoneTooManyOpen
    | .empty =>
      if !s.activeRoom n then .error Sc.zoneTooManyActive
      else if !n.openRoom then .error Sc.zoneTooManyOpen
      else .ok (s.modNs nsx fun n => n.modZone z put)

/-- Close of one zone. -/
def closeZone (nsx z : Nat) (s : State) : Except Nat State :=
  match s.ns? nsx with
  | none => .error Sc.badNs
  | some n =>
    match (n.zone z).st with
    | .implOpen | .explOpen => .ok (s.modNs nsx fun n => n.modZone z fun x => { x with st := .closed })
    | .closed => .ok s
    | _ => .error Sc.zoneTransition

/-- One zone's action, for Reset and Finish of any state but Empty and Full in turn. -/
def zoneAct (c nsx act z : Nat) (s : State) : Except Nat State :=
  match s.ns? nsx with
  | none => .error Sc.badNs
  | some n =>
    let st := (n.zone z).st
    if act = 1 then closeZone nsx z s
    else if act = 2 then .ok (if st = .full then s else finishZone c nsx z s)
    else if act = 3 then openZone nsx z s
    else .ok (if st = .empty then s else resetZone c nsx z s)

/-- All zones in turn; the first that fails ends the command with nothing changed. -/
def zoneActs (c nsx act : Nat) : List Nat → State → Except Nat State
  | [], s => .ok s
  | z :: zs, s =>
    match zoneAct c nsx act z s with
    | .ok s1 => zoneActs c nsx act zs s1
    | .error e => .error e

/-- A Reset waits for the earlier writes of its zones (log 12), and Reset and Finish for their records (R243). -/
def tryZone (c : Nat) (s : State) : State :=
  match s.cmd? c with
  | none => s
  | some x =>
    match s.ns? x.nsx with
    | none => s
    | some n =>
      if x.wst == .staged then s
      else
        let zs := if x.all then n.selected x.act else [x.zone]
        let busy := x.act = 4 && s.host.cmds.any fun y => y.nsx == x.nsx && zs.contains y.zone &&
          (y.kind == .write || y.kind == .zappend) && decide (y.num < x.num)
        let need := if x.act = 2 || x.act = 4 then zs.length + 1024 else 0
        if busy then s
        else if s.freeRecs < need || (decide (0 < need) && s.behindHeld x) then s.modCmd c fun x => { x with wst := .room }
        else match zoneActs c x.nsx x.act zs s with
          | .error e => failCmd c e true 0 s
          | .ok s1 => postWrites (poolCheck (s1.modCmd c fun x => { x with wst := .staged }))

/-- ZONE_MGMT_SEND: Close, Finish, Open, Reset; Offline is refused (R71). -/
def zoneMgmtSend (c : Payload.Capsule) (s : State) : State :=
  withIo c true (fun io s =>
    let n := io.n
    let act := c.cdw13 % 256
    let all := bit c.cdw13 8
    let first := capSlba c * n.lba
    let zoneBytes := n.zoneUnits * 16384
    if !n.zoned then reply c Sc.opcode true 0 0 s
    else if s.writeProtected n then reply c Sc.protected true 0 0 s
    else if act = 5 then reply c Sc.zoneTransition true 0 0 s
    else if act = 0 || 5 < act then reply c Sc.field true 0 0 s
    else if !all && n.size ≤ first then reply c Sc.lbaRange true 0 0 s
    else if !all && first % zoneBytes ≠ 0 then reply c Sc.field true 0 0 s
    else
      let x := { cmdOf c .zone io.q n s with act, all, zone := first / zoneBytes, first, wst := .overlap }
      tryZone x.num (addCmd x s)) s

def execZoneMgmtSend (c : Payload.Capsule) (s : State) : Host.Outcome State Fault Refusal :=
  .next (arrive zoneMgmtSend c s)

/-! ### Zone Management Receive (R81) -/

/-- Code of a zone state in a zone descriptor (ZNS). -/
def ZoneSt.code : ZoneSt → Nat
  | .empty => 1
  | .implOpen => 2
  | .explOpen => 3
  | .closed => 4
  | .full => 14

/-- A reporting option selects a state (ZNS): 0 all, 1 to 5 one state; 6 and 7 are Read Only and Offline, which no zone
is in (R71). -/
def ZoneSt.reported (o : Nat) (st : ZoneSt) : Bool :=
  o = 0 || (o = 1 && st == .empty) || (o = 2 && st == .implOpen) || (o = 3 && st == .explOpen) ||
    (o = 4 && st == .closed) || (o = 5 && st == .full)

/-- A zone descriptor of 64 bytes (ZNS). The write pointer of a Full zone is open (log 3). -/
def zoneDesc (n : Ns) (open_ : Nat) (z : Nat) : List Byte :=
  let x := n.zone z
  let start := z * n.zoneUnits * 4
  let wp := if x.st = .full then open_ else start + x.wp * 4
  padTo 64 (leBytes 1 2 ++ leBytes 1 (x.st.code * 16) ++ leBytes 6 0 ++ leBytes 8 (n.zoneUnits * 4) ++ leBytes 8 start ++
    leBytes 8 wp)

/-- ZONE_MGMT_RECEIVE: Report Zones with every reporting option. An extended report is an invalid field, since zones have
no descriptor extension (R69). -/
def zoneMgmtReceive (c : Payload.Capsule) (s : State) : State :=
  withIo c false (fun io s =>
    let n := io.n
    let first := capSlba c * n.lba
    let bytes := (c.cdw12 + 1) * 4
    let o := bits c.cdw13 8 8
    if !n.zoned then reply c Sc.opcode true 0 0 s
    else if c.cdw13 % 256 ≠ 0 || 7 < o then reply c Sc.field true 0 0 s
    else if n.size ≤ first then reply c Sc.lbaRange true 0 0 s
    else if c.badBuf then reply c Sc.transfer false 0 0 s
    else
      let zs := n.zoneNums.filter fun z => first / (n.zoneUnits * 16384) ≤ z && (n.zone z).st.reported o
      let fit := zs.take ((bytes - 64) / 64)
      let count := if bit c.cdw13 16 then fit.length else zs.length
      let data := (leBytes 8 count ++ leBytes 56 0 ++ fit.flatMap (zoneDesc n s.freeNat)).take bytes
      reply c Sc.ok false 0 0 (sendData c.cntlid c.qid c.cid 0 data s.drew)) s

def execZoneMgmtReceive (c : Payload.Capsule) (s : State) : Host.Outcome State Fault Refusal :=
  .next (arrive zoneMgmtReceive c s)

/-! ### Held commands -/

/-- A held command is looked at again. -/
def resumeCmd (c : Nat) (s : State) : State :=
  match s.cmd? c with
  | some x => if x.kind = .zone then tryZone c s else tryFetch c s
  | none => s

/-- The oldest held command of a kind of hold that can go on does. -/
def releaseOldest (p : Cmd → Bool) (s : State) : State :=
  let held := s.host.cmds.filter fun x => x.kind.writes && p x
  match held.findSome? fun x =>
      let s1 := resumeCmd x.num s
      match s1.cmd? x.num with
      | some y => if y.wst == x.wst then none else some s1
      | none => some s1 with
  | some s1 => s1
  | none => s

/-- OVERLAP_WRITE_RELEASE: the oldest write whose earlier overlapping writes have all ended fetches its data, or goes on
to wait for room (R75). -/
def overlapWriteRelease (s : State) : State := releaseOldest (fun x => x.wst == .overlap) s

def execOverlapWriteRelease (s : State) : Host.Outcome State Fault Refusal := .next (overlapWriteRelease s)

/-- WRITE_FETCH_RESUME: the oldest write held for staging, records or a band goes on (R28, R176, R243). -/
def writeFetchResume (s : State) : State := releaseOldest (fun x => x.wst == .room || x.wst == .band || x.wst == .merged) s

def execWriteFetchResume (s : State) : Host.Outcome State Fault Refusal := .next (writeFetchResume s)

end Sys2Proof.Machine
end

