-- ==== Sys2Proof/Machine/Mirror.lean ====
section
/-! DEFINITION. The mirrored journal between owner and partner: JMIRROR, JACK, a lost mirror, resynchronisation (R244 to
R248, R323). -/

namespace Sys2Proof.Machine

/-! ### At the partner (R245) -/

/-- A JACK body (R244). STATUS: 0 OK, 1 STALE_EPOCH, 2 POOL_FULL, 3 NOT_PARTNER. -/
def jackBody (gi status known acked : Nat) : List Byte :=
  leBytes 1 gi ++ leBytes 1 status ++ leBytes 2 0 ++ leBytes 4 known ++ leBytes 8 acked ++ leBytes 16 0

/-- The records that a JMIRROR or a JCOPY carries; none in the place of one whose CRC is wrong. -/
def carried (body : List Byte) : List (Option JRec) :=
  (List.range (leAt body 1 1)).map fun i => (recOf (slice body (32 + 64 * i) 64)).map Prod.snd

/-- The controller stands as a group's partner towards its owner: PARTNER, asking for votes, or fenced and being
resynchronised (DEDUCED, log 18). CONTAINED answers NOT_PARTNER (R457). -/
def State.partners (s : State) (gi : Nat) : Bool :=
  let g := s.group gi
  s.mode.mode != .contained &&
    (g.role == .partner || (g.role == .takingOver && !g.won) || ((g.role == .fenced || g.role == .none) && g.resyncSent))

/-- Free records that a record of a type may take: all of them for one that completes work already admitted, else those above the reserve,
and the copies follow the same rule (R243). -/
def State.freeFor (s : State) (ty : Nat) : Nat := if reservedType ty then s.freeRecs else s.freeRecs - 1024

/-- The answer to a JMIRROR, in the order of R245: POOL_FULL when no record is free, or none for the first record that is not stored yet. -/
def State.mirrorStatus (s : State) (gi : Nat) (body : List Byte) : Nat :=
  let g := s.group gi
  let rs := carried body
  let old := decide (leAt body 4 4 < g.known) || rs.any fun r => r.any fun r => decide (r.epoch < g.known)
  let first := (rs.filterMap id).find? fun r => decide (g.acked ≤ r.jseq)
  if old then 1 else if !s.partners gi then 3
  else if g.attempt.isSome || s.freeRecs = 0 || first.any fun r => s.freeFor r.ty = 0 then 2 else 0

/-- A record that follows the ones stored joins the copy while the pool has room for it, with the turn in which it came (R243, R245; DESIGN
CHOICE, log 9). -/
def storeRec (gi : Nat) (s : State) (r : Option JRec) : State :=
  match r with
  | some r =>
    if r.jseq = (s.group gi).acked && decide (0 < s.freeFor r.ty) then
      s.modGroup gi fun g => { g with journal := g.journal ++ [{ r with turn := s.turnNow }], acked := g.acked + 1 }
    else s
  | none => s

/-- Records below RETIRE_BELOW take their effect on the copy's map and band table, in JSEQ order, and are freed (R245). -/
def retireCopy (gi below : Nat) (s : State) : State :=
  let g := s.group gi
  let gone := g.journal.filter fun r => decide (r.jseq < below)
  let s1 := (gone.filter fun r => decide (g.applied ≤ r.jseq)).foldl (applyRec gi) s
  s1.modGroup gi fun g => { g with journal := g.journal.filter fun r => decide (below ≤ r.jseq),
                                   retired := Nat.max g.retired below, applied := Nat.max g.applied (Nat.min below g.acked) }

/-- The owner has been heard: a series of takeover attempts ends, and its lapse has cleared (R318, R328, R334). -/
def ownerHeard (gi : Nat) (s : State) : State :=
  clearDev (s.otherDev gi) 2 (s.modGroup gi fun g => { g with heard := s.tregs.frames, failedAt := none, deniedTold := false })

/-- JMIRROR_RX: the records join the copy unless the pool is full, and those below RETIRE_BELOW retire (R245). -/
def jmirrorRx (src : Nat) (body : List Byte) (s : State) : State :=
  let gi := leAt body 0 1 % 8
  let n := leAt body 1 1
  if !s.ddUp || 5 < gi || body.length != 32 + 64 * n then s
  else
    let st := s.mirrorStatus gi body
    let first := leAt body 8 8
    let s1 := if st = 1 || st = 3 then s
      else ownerHeard gi (s.modGroup gi fun g => { g with topSeen := Nat.max g.topSeen (first + n) })
    let s2 := if st = 0 then (carried body).foldl (storeRec gi) (s1.modGroup gi fun g => { g with known := leAt body 4 4 })
      else s1
    let s2 := if st = 0 || st = 2 then retireCopy gi (Nat.min (leAt body 16 8) (s2.group gi).acked) s2 else s2
    scrimSend src 0x22 gi 0 (jackBody gi st (s2.group gi).known (s2.group gi).acked) s2

def execJmirrorRx (src : Nat) (body : List Byte) (s : State) : Host.Outcome State Fault Refusal := .next (jmirrorRx src body s)

/-! ### At the owner (R246 to R248) -/

/-- The mirror is lost: the group runs solo (R246, R247). -/
def mirrorLost (gi : Nat) (s : State) : State :=
  let g := s.group gi
  if g.mirror = .solo then s
  else
    let s1 := s.modGroup gi fun g => { g with mirror := .solo, resyncSent := false }
    let s2 := if g.mirror = .service then
        reportDev (s.otherDev gi) 3 (raise Code.evGroupMirrorLost Kind.group gi [] s1) else s1
    chooseImageBays (postWrites (appendLog gi s2))

/-- The mirror is restored (R248 step 4). -/
def mirrorRestored (gi : Nat) (s : State) : State :=
  let s1 := s.modGroup gi fun g => { g with mirror := .service, resyncSent := false, mirrorTry := 0 }
  clearDev (s.otherDev gi) 3 (raise Code.evGroupMirrorRestored Kind.group gi [] s1)

/-- The owner's role lets it keep a journal. -/
def Group.keepsJournal (g : Group) : Bool := g.role.owns || g.role == .leaseLost

/-- JACK_RX. -/
def jackRx (body : List Byte) (s : State) : State :=
  let gi := leAt body 0 1 % 8
  let g := s.group gi
  if !s.ddUp || 5 < gi || body.length != 32 then s
  else match leAt body 1 1 with
    | 0 =>
      let a := Nat.min (leAt body 8 8) g.jseq
      if !g.keepsJournal || g.mirror = .solo then s
      else
        let s1 := if g.acked < a then
            s.modGroup gi fun g => { g with acked := a, mirrorTry := 0 } else s
        let s2 := if g.mirror = .resync && g.resyncSent && decide (g.jseq ≤ (s1.group gi).acked) then mirrorRestored gi s1 else s1
        handoverAcked gi (postWrites (retireAll gi s2))
    | 1 => fence gi (s.modGroup gi fun g => { g with known := Nat.max g.known (leAt body 4 4) })
    | 3 => if g.keepsJournal then mirrorLost gi s else s
    | _ => s

def execJackRx (body : List Byte) (s : State) : Host.Outcome State Fault Refusal := .next (jackRx body s)

/-- JMIRROR_RETRY: every unacknowledged record goes again, on the next equal-cost path (R246, R317). -/
def jmirrorRetry (gi : Nat) (s : State) : State :=
  let g := s.group gi
  if !s.ddUp || !g.keepsJournal || g.mirror = .solo || g.jseq ≤ g.acked then s
  else
    let s1 := s.modGroup gi fun g => { g with mirrorTry := g.mirrorTry + 1 }
    match s.addrOf (s.otherDev gi) with
    | none => countScrim 3 s1
    | some a =>
      (List.range (ceilDiv (g.jseq - g.acked) 16)).foldl (fun s i =>
        scrimSend a 0x21 gi (g.mirrorTry + 1) (jmirrorBody gi g (g.acked + 16 * i)) s) s1

def execJmirrorRetry (g : Nat) (s : State) : Host.Outcome State Fault Refusal := .next (jmirrorRetry g s)

/-- MIRROR_FAIL_TIMEOUT: ACKED has not advanced for `parity.mirror.fail_ms` while records wait for it (R246). -/
def mirrorFailTimeout (gi : Nat) (s : State) : State :=
  let g := s.group gi
  if s.ddUp && g.keepsJournal && decide (g.acked < g.jseq) then mirrorLost gi s else s

def execMirrorFailTimeout (g : Nat) (s : State) : Host.Outcome State Fault Refusal := .next (mirrorFailTimeout g s)

/-! ### Resynchronisation (R248, R323) -/

/-- A resynchronisation page as it is sent (layout: DESIGN CHOICE, log 9): GROUP; FIRST and LAST; EPOCH; the JSEQ at which it was read; then
the page. -/
def resyncPage (gi epoch jseq i n : Nat) (page : List Byte) : List Byte :=
  leBytes 1 gi ++ leBytes 1 (flag (i == 0) 0 + flag (i + 1 == n) 1) ++ leBytes 2 0 ++ leBytes 4 epoch ++ leBytes 8 jseq ++ page

/-- RESYNC_START: the owner pairs again, when the conditions of R323 that it can see hold, and streams the group's band table, substitution
entries, spare lists, zones, lost-extent list and map pages, all read now; records from this JSEQ on go by JMIRROR (R248). -/
def resyncStart (gi : Nat) (s : State) : State :=
  let g := s.group gi
  let pair := [g.devA, g.devB]
  if !s.ddUp || g.role != .owner || g.mirror != .solo || !s.partnerReached gi then s
  else if s.turnMismatch || g.wits.any fun w => pair.contains w.dev then raise Code.evScrimPairRefused Kind.group gi [] s
  else
    let s1 := s.modGroup gi fun g => { g with mirror := .resync, resyncSent := true, acked := g.jseq,
                                              mirrorTry := 0 }
    let maps := (s.mapPagesOf gi).filterMap fun p => (s.ns? p.1).map fun n => n.mapPage g.jseq p.2
    let pages := pagesOf 16384 (s.checkpointBytes gi) ++ maps
    let s2 := pages.zipIdx.foldl (fun s p => toPartner gi 0x23 (resyncPage gi g.epoch g.jseq p.2 pages.length p.1) s) s1
    ((s.host.nss.filter fun n => n.group == gi).map Ns.nsx).foldl (fun s x => mirrorNs x false s) s2

def execResyncStart (g : Nat) (s : State) : Host.Outcome State Fault Refusal := .next (resyncStart g s)

/-- What a page holds, as keys of `Group.pageSeq` with the JSEQ at which it was read (R248 step 3). -/
def ResyncPage.keys (p : ResyncPage) : List (Nat × Nat × Nat) :=
  let g := p.image.group
  let at' (k : Nat) (i : Nat) : Nat × Nat × Nat := (k, i, p.jseq)
  g.bands.map (fun b => at' keyBand b.num) ++ (if g.lost.isEmpty then [] else [at' keyLost 0]) ++
    (if g.members.isEmpty then [] else [at' keyMember 0]) ++
    (p.image.nss.map fun n => (n.map.map fun e => at' n.nsx (n.pageOf e.1)).eraseDups ++ n.zones.map fun z => at' n.nsx z.num).flatten

/-- A page's band table, owner records and lost entries join the copy, with the JSEQ from which records apply to them. -/
def Group.takePage (g : Group) (page : ResyncPage) : Group :=
  let p := page.image.group
  let nums := p.bands.map Band.num
  let guas := p.owners.map Owner.gua
  { g with bands := (g.bands.filter fun b => !nums.contains b.num) ++ p.bands,
           owners := (g.owners.filter fun o => !guas.contains o.gua) ++ p.owners,
           pageSeq := page.keys ++ g.pageSeq,
           lost := g.lost ++ p.lost, members := if p.members.isEmpty then g.members else p.members }

/-- A page's map and zones join a namespace of the copy. -/
def takeNs (l : List Ns) (n : Ns) : List Ns :=
  if l.any fun x => x.nsx == n.nsx then
    l.map fun x => if x.nsx == n.nsx then { n with map := x.map ++ n.map, zones := x.zones ++ n.zones } else x
  else l ++ [n]

/-- The two controllers agree on the pair, as far as a page shows (R323). -/
def State.pairAgrees (s : State) (gi : Nat) (p : ResyncPage) : Bool :=
  let g := s.group gi
  let i := p.image.group
  let same := !g.formed || (g.uid == i.uid && g.devA == i.devA && g.devB == i.devB && g.wits.map Witness.dev == i.wits.map Witness.dev)
  let mods := i.members.all fun m => m.st == .missing || (s.bay m.bay).modId == m.moduleId
  same && mods && !s.turnMismatch && !(i.wits.any fun w => w.dev == i.devA || w.dev == i.devB)

/-- The copy is cleared, and the configuration of the page taken (R248 step 1). -/
def clearCopy (gi : Nat) (p : ResyncPage) (s : State) : State :=
  let old := s.group gi
  let i := p.image.group
  let s1 := s.modHost fun h => { h with nss := h.nss.filter fun n => n.group != gi }
  s1.modGroup gi fun _ =>
    { i with role := old.role, won := false, known := old.known, heard := old.heard, promised := old.promised,
             wits := i.wits.map fun w => { dev := w.dev, mp := w.mp }, attempt := none, failedAt := none, hand := none,
             handedBy := none, bands := [], owners := [], lost := [], journal := [], stripes := [], dieAccs := [],
             collects := [], skim := [], logPages := [], ckptPages := [], copies := [], replay := [], mountWait := false,
             jseq := p.jseq, acked := p.jseq, topSeen := p.jseq, retired := p.jseq, applied := p.jseq, logged := p.jseq,
             durable := p.jseq, ckptSeq := p.jseq, pageSeq := [], settled := false, unfit := false, mirror := .service, resyncSent := true, requested := false, requestAgain := false }

/-- The labels of a page's namespaces are written, and namespaces that are gone leave the copy (R351). -/
def takeConfig (page : Machine.ResyncPage) (s : State) : State :=
  let ours (slot : Nat) : Bool := slot < 2048 && page.image.nss.any fun n => n.nsx == slot % 1024
  let s1 := (page.labels.filter fun l => ours l.slot).foldl (fun s l => setLabel l.slot l.bytes s) s
  s1.modHost fun h => { h with nss := h.nss.filter fun n => !(n.group == page.g && page.gone.contains n.nsx) }

/-- RESYNC_RX: a page is stored. After the last one the controller is PARTNER, and says so by a JACK (R248, R325; log 18). -/
def resyncRx (page : Machine.ResyncPage) (s : State) : State :=
  let gi := page.g
  let g := s.group gi
  let may := g.role = .partner || g.role = .fenced || g.role = .none
  if !s.ddUp || 5 < gi || !may || !s.takesRoles || page.epoch < g.known then s
  else if !s.pairAgrees gi page then raise Code.evScrimPairRefused Kind.group gi [] s
  else
    let s1 := if page.first then clearCopy gi page s else s
    let s2 := ownerHeard gi (s1.modGroup gi fun g => { g.takePage page with known := page.epoch, epoch := page.epoch })
    let s3 := takeConfig page (s2.modHost fun h => { h with nss := page.image.nss.foldl takeNs h.nss })
    if page.last then
      let s4 := setRole gi .partner (s3.modGroup gi fun g => { g with resyncSent := false })
      toPartner gi 0x22 (jackBody gi 0 (s4.group gi).known (s4.group gi).acked) s4
    else s3

def execResyncRx (page : Machine.ResyncPage) (s : State) : Host.Outcome State Fault Refusal := .next (resyncRx page s)

/-! ### Copy 4 at the responder (R255) -/

/-- JCOPY bodies: up to 16 records each, LAST in the final one; COUNT 0 and NONE when there is no record. -/
def jcopyBody (gi uid flags : Nat) (first : Nat) (rs : List JRec) (top : Nat) : List Byte :=
  leBytes 1 gi ++ leBytes 1 rs.length ++ leBytes 1 flags ++ leBytes 1 0 ++ leBytes 4 top ++ leBytes 8 first ++ leBytes 8 uid ++
    leBytes 8 0 ++ (rs.map (recBytes gi)).flatten

/-- JCOPY_REQ_RX: the records of the group from FROM_JSEQ, whatever the role, in any mode but ISLAND. -/
def jcopyReqRx (src : Nat) (body : List Byte) (s : State) : State :=
  let gi := leAt body 0 1 % 8
  let g := s.group gi
  let uid := leAt body 16 8
  let rs := g.journal.filter fun r => decide (leAt body 8 8 ≤ r.jseq)
  if !s.ddUp || 5 < gi || body.length != 32 then s
  else if !g.formed || g.uid != uid || rs = [] then scrimSend src 0x25 gi 0 (jcopyBody gi uid 3 (leAt body 8 8) [] 0) s
  else
    let top := rs.foldl (fun a r => Nat.max a r.epoch) 0
    let n := ceilDiv rs.length 16
    (List.range n).foldl (fun s i =>
      let part := (rs.drop (16 * i)).take 16
      scrimSend src 0x25 gi 0 (jcopyBody gi uid (flag (i + 1 == n) 0) ((part.head?.map JRec.jseq).getD 0) part top) s) s

def execJcopyReqRx (src : Nat) (body : List Byte) (s : State) : Host.Outcome State Fault Refusal := .next (jcopyReqRx src body s)

end Sys2Proof.Machine
end

