-- ==== Sys2Proof/Machine/Mount.lean ====
section
/-! DEFINITION. Mounting a group: the checkpoint and the delta log, the choice of a journal copy, what it replays, and the
units that R249 reads (R171, R238, R249, R254 to R256, R536). -/

namespace Sys2Proof.Machine

/-! ### Copies (R254, R536) -/

/-- Records whose JSEQs follow one another from a JSEQ on. -/
def runFrom : Nat → List JRec → List JRec
  | _, [] => []
  | j, r :: rs => if r.jseq = j then r :: runFrom (j + 1) rs else []

/-- The JSEQ below which a copy misses nothing that still matters: all of it is retired, or is in the map already (R536;
DEDUCED, log 20). -/
def Group.copyStart (g : Group) (c : JCopy) : Nat :=
  Nat.max g.applied (match c.base with | some b => b | none => (c.recs.head?.map JRec.jseq).getD 0)

/-- The records of a copy that count: up to its first damaged or missing JSEQ (R254). -/
def Group.counted (g : Group) (c : JCopy) : List JRec :=
  let j := g.copyStart c
  (c.recs.filter fun r => decide (r.jseq < j)) ++ runFrom j (c.recs.filter fun r => decide (j ≤ r.jseq))

/-- A copy counts when it holds a record, or says that every record is retired. -/
def Group.copyCounts (g : Group) (c : JCopy) : Bool := c.base.isSome || !(g.counted c).isEmpty

/-- One above the last JSEQ of a copy that counts, and its EPOCH. -/
def Group.copyEnd (g : Group) (c : JCopy) : Nat := Nat.max (g.copyStart c) (((g.counted c).getLast?.map JRec.jseq).getD 0 + 1)
def Group.copyEpoch (g : Group) (c : JCopy) : Nat := (g.counted c).foldl (fun a r => Nat.max a r.epoch) 0

/-- The copy with the highest (EPOCH, last JSEQ), the earliest in the order on equal pairs (R254). -/
def Group.bestCopy (g : Group) : Option JCopy :=
  let better (a b : JCopy) : Bool :=
    decide (g.copyEpoch b < g.copyEpoch a) || (g.copyEpoch a == g.copyEpoch b &&
      (decide (g.copyEnd b < g.copyEnd a) || (g.copyEnd a == g.copyEnd b && decide (a.order < b.order))))
  (g.copies.filter g.copyCounts).foldl (fun a c => match a with
    | none => some c
    | some x => if better c x then some c else some x) none

/-! ### Replay (R249, R536) -/

/-- The units of a WRITE record: (GUA, WSEQ, nsx, unit, zoned). -/
def JRec.writeUnits (r : JRec) : List (Nat × Nat × Nat × Nat × Bool) :=
  (List.range r.wCount).map fun i => (r.wGua + i, r.wWseq + i, r.wNsx, r.wUnit + i, r.wZoned)

/-- A STRIPE_DONE record covers a unit's stripe. -/
def Group.doneBy (g : Group) (rs : List JRec) (gua : Nat) : Bool :=
  rs.any fun r => r.ty == 2 && leAt r.body 0 2 == guaBand gua && decide (leAt r.body 2 4 ≤ g.stripeOf (guaDu gua)) &&
    decide (g.stripeOf (guaDu gua) < leAt r.body 2 4 + leAt r.body 6 2)

/-- The reads of R249 start, in class 0. -/
def startReplay (gi : Nat) (s : State) : State :=
  (s.group gi).replay.foldl (fun s u =>
    requestBuf { cls := 0, use := .replay gi u.1, place := (s.group gi).placeOf gi u.1, nsx := u.2.2.1, unitNo := u.2.2.2.1 } s) s

/-- The chosen copy is replayed over the map: every record not yet in it takes its effect, in order; WRITE units that no
STRIPE_DONE covers are read, unless a later record has moved the map on (R146); the records above the delta log's last become this
controller's own journal (R249, R536). -/
def replayCopy (gi : Nat) (c : JCopy) (s : State) : State :=
  let g := s.group gi
  let rs := g.counted c
  let top := g.copyEnd c
  let s1 := (rs.filter fun r => decide (g.applied ≤ r.jseq)).foldl (applyRec gi) s
  let units := ((rs.filter fun r => r.ty == 1).map JRec.writeUnits).flatten
  let own := rs.filter fun r => decide (g.durable ≤ r.jseq)
  let unread := units.filter fun u => !g.doneBy rs u.1 && s1.validAt gi u.1
  s1.modGroup gi fun g =>
    { g with journal := own, jseq := top, topSeen := top, applied := top, acked := top, logged := g.durable,
             retired := (own.head?.map JRec.jseq).getD top, dieAccs := c.accs, replay := unread }

/-- WSEQ starts at the highest one found plus 2^32 (R238). -/
def liftWseq (gi : Nat) (s : State) : State := s.modGroup gi fun g => { g with wseq := g.wseq - 1 + 2 ^ 32 }

/-- A copy is chosen. When none counts and the delta log does not reach the group's last record, the group is held in FAILED
with cause JOURNAL_LOST (R254, R256). -/
def mountChoose (gi : Nat) (s : State) : State :=
  let g := s.group gi
  let solo := !(g.attempt.any Attempt.planned)
  let settled (g : Group) : Group :=
    { g with copies := [], mountWait := false, mirror := if solo then .solo else .service }
  match g.bestCopy with
  | some c =>
    let s1 := liftWseq gi ((replayCopy gi c s).modGroup gi settled)
    mountDone gi (startReplay gi s1)
  | none =>
    let s1 := liftWseq gi (s.modGroup gi fun g =>
      { settled g with jseq := g.applied, topSeen := g.applied, acked := g.applied, journal := [], retired := g.applied })
    if g.logReaches then mountDone gi s1
    else mountDone gi (raise Code.evGroupJournalLost Kind.group gi [] (setHealth gi .failed 1 s1))

/-- The dies of the present members are asked (R188), and copy 4 is requested when the other controller can be reached; else
the choice is made (R254, R255, R335). -/
def mountGather (gi : Nat) (copies : List JCopy) (s : State) : State :=
  let s1 := (s.group gi).presentBays.foldl (fun s b => askDies b s) (s.modGroup gi fun g => { g with copies })
  if s.partnerReached gi then
    let g := s1.group gi
    toPartner gi 0x24 (leBytes 1 gi ++ leBytes 3 0 ++ leBytes 4 g.known ++ leBytes 8 g.applied ++ leBytes 8 g.uid ++ leBytes 8 0)
      (s1.modGroup gi fun g => { g with mountWait := true })
  else mountChoose gi s1

/-- Copy 1 at a takeover: the partner's copy in SRAM, unless it is stale (R254). -/
def Group.ownCopy (g : Group) : List JCopy :=
  if g.resyncSent then [] else [{ order := 1, recs := g.journal, base := some g.retired }]

/-! ### JCOPY (R254, R255) -/

/-- JCOPY_RX: a message extends copy 4, up to the first record that is damaged or out of order. -/
def jcopyRx (body : List Byte) (s : State) : State :=
  let gi := leAt body 0 1 % 8
  let g := s.group gi
  if !s.ddUp || 5 < gi || !g.mountWait || body.length != 32 + 64 * leAt body 1 1 || leAt body 16 8 != g.uid then s
  else
    let good := ((carried body).takeWhile Option.isSome).filterMap id
    let old := (g.copies.find? fun c => c.order == 4).getD { order := 4 }
    let want := match old.recs.getLast? with | some r => r.jseq + 1 | none => leAt body 8 8
    let recs := if leAt body 8 8 = want then old.recs ++ runFrom want good else old.recs
    let ends := bit (leAt body 2 1) 0 || bit (leAt body 2 1) 1 || decide (recs.length < old.recs.length + leAt body 1 1)
    let s1 := s.modGroup gi fun g =>
      { g with copies := (g.copies.filter fun c => c.order != 4) ++ (if recs = [] then [] else [{ old with recs, last := ends }]) }
    if ends then mountChoose gi s1 else s1

def execJcopyRx (body : List Byte) (s : State) : Host.Outcome State Fault Refusal := .next (jcopyRx body s)

/-- JCOPY_TIMEOUT: 2 s have passed. The copy ends at the records received; when no copy counts, the wait goes on, with the
request made again (R254). -/
def jcopyTimeout (gi : Nat) (s : State) : State :=
  let g := s.group gi
  if !s.ddUp || !g.mountWait then s
  else if g.copies.any g.copyCounts then mountChoose gi s
  else if s.partnerReached gi then
    toPartner gi 0x24 (leBytes 1 gi ++ leBytes 3 0 ++ leBytes 4 g.known ++ leBytes 8 g.applied ++ leBytes 8 g.uid ++ leBytes 8 0) s
  else s

def execJcopyTimeout (g : Nat) (s : State) : Host.Outcome State Fault Refusal := .next (jcopyTimeout g s)

/-- JOURNAL_WAIT_TIMEOUT: `parity.journal.wait_s` has passed (R254, R256). -/
def journalWaitTimeout (gi : Nat) (s : State) : State :=
  if s.ddUp && (s.group gi).mountWait then mountChoose gi s else s

def execJournalWaitTimeout (g : Nat) (s : State) : Host.Outcome State Fault Refusal := .next (journalWaitTimeout g s)

/-! ### GROUP_MOUNT (R171) -/

/-- A member as a mount finds it: in the bay where its module stands; one whose module is not there is missing. -/
def State.memberAt (s : State) (mark : Nat) (x : Member) : Member :=
  let bay := s.bayOfModule x.moduleId x.bay
  let here := (s.bay bay).st == .ready && (s.bay bay).modId == x.moduleId
  if here || x.st == .missing then { x with bay, accepted := 0 }
  else { x with st := .missing, mark := if x.st = .current then mark else x.mark, since := s.clock, window := true, accepted := 0 }

/-- The checkpoint is loaded in place of what the controller holds of the group (R171 step 2). -/
def loadImage (gi : Nat) (img : GroupImage) (s : State) : State :=
  let old := s.group gi
  let i := img.group
  let s1 := s.modHost fun h => { h with nss := (h.nss.filter fun n => n.group != gi) ++ img.nss.map fun n => { n with group := gi } }
  s1.modGroup gi fun _ =>
    { i with formed := true, role := old.role, won := old.won, epoch := Nat.max old.epoch i.epoch,
             known := Nat.max old.known i.epoch, heard := s.tregs.frames, promised := old.promised,
             wits := i.wits.map fun w => { dev := w.dev, mp := w.mp }, attempt := old.attempt, failedAt := none, hand := none,
             handedBy := none, members := i.members.map (s.memberAt i.seq), journal := [], stripes := [], dieAccs := [],
             collects := [], skim := [], logPages := [], ckptPages := [], copies := [], replay := [], mountWait := false,
             settled := false, unfit := false, ckptSeq := i.jseq, applied := i.jseq, durable := i.jseq, logged := i.jseq, retired := i.jseq, mirror := .solo, resyncSent := false,
             requested := false, requestAgain := false, exposure := [], rebuildCharged := 0 }

/-- The delta log is replayed from the checkpoint on, and each map page from its own sequence on (R171 step 3). -/
def replayLog (gi : Nat) (log : List JRec) (s : State) : State :=
  let s1 := log.foldl (applyRec gi) s
  let top := log.foldl (fun a r => Nat.max a (r.jseq + 1)) (s.group gi).applied
  s1.modGroup gi fun g => { g with applied := top, durable := top, logged := top, retired := top }

/-- GROUP_MOUNT: a controller with no role mounts a group, or one that has won a takeover with a stale copy (log 13). The newest valid anchor
leads to the checkpoint (R171 steps 1 to 4). -/
def groupMount (gi : Nat) (img : MountImage) (s : State) : State :=
  let g := s.group gi
  let cold := g.role == .none && s.takesRoles
  let stale := g.role == .takingOver && g.won && g.resyncSent && g.attempt.all fun a => a.bays.isEmpty
  if 5 < gi || !s.ddUp || !(cold || stale) then s
  else
    let s1 := setRole gi .takingOver (s.modGroup gi fun g => { g with won := true, formed := true, settled := false })
    match img.newest with
    | none => mountDone gi (setHealth gi .failed 2 s1)
    | some ckpt =>
      let s2 := setHealth gi .mounting 0 (loadImage gi ckpt s1)
      let s3 := (replayLog gi img.log s2).modGroup gi fun g => { g with logReaches := img.reaches }
      let s4 := if cold then (s3.group gi).presentBays.foldl (fun s b => setEpoch b (s3.group gi).epoch s) s3 else s3
      if s4.groupFits gi then mountGather gi img.images s4 else notFit gi s4

def execGroupMount (g : Nat) (img : Machine.MountImage) (s : State) : Host.Outcome State Fault Refusal :=
  .next (groupMount g img s)

end Sys2Proof.Machine
end

