-- ==== Sys2Proof/Machine/Takeover.lean ====
section
/-! DEFINITION. Leases, votes and takeovers at the owner and the partner; epochs at the modules (R226, R326 to R328, R334 to
R337). -/

namespace Sys2Proof.Machine

/-! ### Leases (R326, R327) -/

/-- The lease is lost: no I/O to the group until two grants count again (R327). -/
def loseLease (gi : Nat) (s : State) : State :=
  let s1 := endGroupCmds gi false (s.modGroup gi fun g => { g with hand := none })
  let s2 := purgeHawk (fun n _ => s1.nsIn gi n) s1
  raise Code.evScrimLeaseLost Kind.group gi [] (setScrimEvt 2 (setRole gi .leaseLost s2))

/-- LEASE_LAPSE: fewer than two grants count now (R326, R327). -/
def leaseLapse (gi : Nat) (s : State) : State :=
  if s.ddUp && (s.group gi).role.owns && decide (s.grants gi < 2) then loseLease gi s else s

def execLeaseLapse (g : Nat) (s : State) : Host.Outcome State Fault Refusal := .next (leaseLapse g s)

/-- A message from a witness of the group marks it as answering (R337). -/
def witnessHeard (gi dev : Nat) (f : Witness → Witness) (s : State) : State :=
  s.modGroup gi fun g =>
    { g with wits := updWhere (fun w => w.dev == dev && dev != 0) (fun w => f { w with answered := some s.tregs.frames }) g.wits }

/-- A message of a witness to this controller: its group and its fields. -/
def fromWitness (body : List Byte) (f : Nat → WitMsg → State → State) (s : State) : State :=
  let m := WitMsg.ofBytes body
  if !s.ddUp || body.length != 64 then s
  else match s.groupOf m.uid with
    | some gi => if (s.group gi).wits.any fun w => w.dev == m.sender then f gi m s else s
    | none => s

/-- An answer to a renewal: a grant counts from the boundary at which its renewal was sent, and a DENY under a higher epoch
ends it. An owner without a lease is fenced by such a DENY, and returns with two grants (R326, R327). -/
def leaseAnswer (gi : Nat) (m : WitMsg) (s : State) : State :=
  let g := s.group gi
  let w := (g.wits.find? fun w => w.dev == m.sender).getD {}
  match w.sent.find? fun p => p.1 == m.tag with
  | none => s
  | some (tag, at_) =>
    let higher := decide (g.epoch < m.entryEpoch ∨ g.epoch < m.promised)
    let upd (w : Witness) : Witness :=
      let w1 := { w with sent := w.sent.filter fun p => p.1 != tag }
      if m.answer = 1 then { w1 with granted := some (Nat.max at_ (w.granted.getD 0)) }
      else if higher then { w1 with granted := none } else w1
    let s1 := (witnessHeard gi m.sender upd s).modGroup gi fun g => { g with promised := Nat.max g.promised m.promised }
    if g.role = .leaseLost && m.answer = 0 && higher then fence gi s1
    else if g.role = .leaseLost && 2 ≤ s1.grants gi then setRole gi .owner s1
    else s1

/-- LEASE_ANSWER_RX. The second copy of an answer finds its TAG spent (R330). -/
def leaseAnswerRx (body : List Byte) (s : State) : State := fromWitness body leaseAnswer s

def execLeaseAnswerRx (body : List Byte) (s : State) : Host.Outcome State Fault Refusal := .next (leaseAnswerRx body s)

/-- WITNESS_UNREACHABLE: the count of answering witnesses is below two, and has changed since it was last told (R337). -/
def witnessUnreachable (gi : Nat) (s : State) : State :=
  let n := s.witnessesSeen gi
  let g := s.group gi
  if !s.ddUp || g.role = .none then s
  else if 2 ≤ n then s.modGroup gi fun g => { g with reachTold := none }
  else if g.reachTold = some n then s
  else raise Code.evScrimWitnessUnreachable Kind.group gi [] (setScrimEvt 6 (s.modGroup gi fun g => { g with reachTold := some n }))

def execWitnessUnreachable (g : Nat) (s : State) : Host.Outcome State Fault Refusal := .next (witnessUnreachable g s)

/-! ### Attempts (R328, R334) -/

/-- The epoch proposed: one more than the highest of the copy's, the present members' MOD_EPOCH and every PROMISED returned (R226,
R334). -/
def State.nextEpoch (s : State) (gi : Nat) : Nat :=
  let g := s.group gi
  let copy := g.journal.foldl (fun a r => Nat.max a r.epoch) (Nat.max g.epoch g.known)
  1 + g.presentBays.foldl (fun a b => Nat.max a (s.bay b).modEpoch) (Nat.max copy g.promised)

/-- TAKEOVER_REQ goes to the three witnesses, and the role is TAKING_OVER (R334). -/
def startAttempt (gi : Nat) (planned : Bool) (s : State) : State :=
  let s1 := nextTag s
  let e := s.nextEpoch gi
  let m := { s1.witMsg gi with epoch := e, flags := flag planned 1, lease := s1.leaseL, period := s1.periodUs }
  let a : Attempt := { epoch := e, planned, tag := s1.scrim.tag, sentAt := s.tregs.frames }
  setRole gi .takingOver (toWitnesses gi 0x53 m (s1.modGroup gi fun g => { g with attempt := some a, won := false, failedAt := none }))

/-- The partner has heard nothing of the owner for L + G boundaries (R328). -/
def State.ownerSilent (s : State) (gi : Nat) : Bool :=
  decide ((s.group gi).heard + s.leaseL + s.leaseG ≤ s.tregs.frames)

/-- TAKEOVER_TRIGGER: votes are requested, and the lapse is reported (R318, R328). -/
def takeoverTrigger (gi : Nat) (s : State) : State :=
  let g := s.group gi
  if s.takesRoles && g.role == .partner && g.attempt.isNone && g.failedAt.isNone && s.ownerSilent gi then
    startAttempt gi false (reportDev (s.otherDev gi) 2 s)
  else s

def execTakeoverTrigger (g : Nat) (s : State) : Host.Outcome State Fault Refusal := .next (takeoverTrigger g s)

/-- HANDOVER_COMMIT_RX: the partner asks for votes at once (R328, R341 step 5). -/
def handoverCommitRx (body : List Byte) (s : State) : State :=
  fromPair body (fun gi _ s =>
    let g := s.group gi
    if g.role = .partner && g.handedBy.isSome && g.attempt.isNone then startAttempt gi true s else s) s

def execHandoverCommitRx (body : List Byte) (s : State) : Host.Outcome State Fault Refusal := .next (handoverCommitRx body s)

/-- An attempt ends without the group: the role is PARTNER again (R334, R335). -/
def endAttempt (gi : Nat) (s : State) : State :=
  setRole gi .partner (s.modGroup gi fun g => { g with attempt := none, won := false, failedAt := some s.tregs.frames,
                                                       handedBy := none })

/-- Every present member has accepted the epoch: the copies are gathered. A stale copy waits for GROUP_MOUNT (R254, R335). -/
def epochsRaised (gi : Nat) (s : State) : State :=
  let g := s.group gi
  if g.resyncSent then s
  else if !s.groupFits gi then notFit gi s
  else mountGather gi g.ownCopy (s.modGroup gi fun g => { g with durable := Nat.max g.durable g.retired, logReaches := false })

/-- TAKEOVER_ATTEMPT_END: 2 × R boundaries have passed without two YES (R334). A won takeover goes on when the members that have
not answered its EPOCH_SET have departed since (R226). -/
def takeoverAttemptEnd (gi : Nat) (s : State) : State :=
  let g := s.group gi
  match g.attempt with
  | some a =>
    if s.ddUp && g.role == .takingOver && !g.won && decide (a.sentAt + 2 * s.leaseR ≤ s.tregs.frames) then
      let s1 := endAttempt gi s
      if g.deniedTold then s1
      else raise Code.evScrimTakeoverDenied Kind.group gi [] (s1.modGroup gi fun g => { g with deniedTold := true })
    else if g.won && !a.bays.isEmpty && a.bays.all fun b => (s.bay b).st != .ready then
      epochsRaised gi (s.modGroup gi fun g => { g with attempt := some { a with bays := [] } })
    else s
  | none => s

def execTakeoverAttemptEnd (g : Nat) (s : State) : Host.Outcome State Fault Refusal := .next (takeoverAttemptEnd g s)

/-- TAKEOVER_RETRY: R boundaries after a failed attempt the next one starts (R334). -/
def takeoverRetry (gi : Nat) (s : State) : State :=
  let g := s.group gi
  match g.failedAt with
  | some f =>
    if s.takesRoles && g.role == .partner && g.attempt.isNone && decide (f + s.leaseR ≤ s.tregs.frames) then
      startAttempt gi false s
    else s
  | none => s

def execTakeoverRetry (g : Nat) (s : State) : Host.Outcome State Fault Refusal := .next (takeoverRetry g s)

/-! ### A takeover won (R335) -/

/-- The takeover goes on from step 1 of R335: ANA Change, and the epoch raised at every present member. -/
def takeoverWon (gi : Nat) (s : State) : State :=
  match (s.group gi).attempt with
  | none => s
  | some a =>
    let bays := (s.group gi).presentBays
    let take (g : Group) : Group :=
      { g with won := true, epoch := a.epoch, known := Nat.max g.known a.epoch, attempt := some { a with bays },
               settled := false, openBand := List.replicate 10 none }
    let s1 := setHealth gi .mounting 0 (setRole gi .takingOver (s.modGroup gi take))
    let s2 := bays.foldl (fun s b => setEpoch b a.epoch s) s1
    if bays = [] then epochsRaised gi s2 else s2

/-- VOTE_RX: a witness's vote, or its answer to a REGISTER. The second YES wins, before 2 × R boundaries have passed (R334); of two
answers of one witness the first counts (R330). -/
def vote (gi : Nat) (m : WitMsg) (s : State) : State :=
  let s1 := (witnessHeard gi m.sender (fun w => w) s).modGroup gi fun g => { g with promised := Nat.max g.promised m.promised }
  let g := s1.group gi
  match g.attempt with
  | some a =>
    if m.tag == a.tag && !a.answered.contains m.sender && !g.won && decide (s.tregs.frames < a.sentAt + 2 * s.leaseR) then
      let a1 := { a with answered := m.sender :: a.answered, yes := if m.answer = 1 then m.sender :: a.yes else a.yes }
      let s2 := s1.modGroup gi fun g => { g with attempt := some a1 }
      if 2 ≤ a1.yes.length then takeoverWon gi s2 else s2
    else s1
  | none => s1

def voteRx (body : List Byte) (s : State) : State := fromWitness body vote s

def execVoteRx (body : List Byte) (s : State) : Host.Outcome State Fault Refusal := .next (voteRx body s)

/-! ### Epochs at the modules (R226) -/

/-- Every present member of a forming group has accepted its epoch: REGISTER to the witnesses, the role OWNER, then the first checkpoint,
which ends FORMING (R226, R258, R331). -/
def formOwn (gi : Nat) (s : State) : State :=
  let g := s.group gi
  let all := (List.range g.w).all fun m => !g.presentMember m || (g.member m).accepted = g.epoch
  if !g.formed || g.health != .forming || g.role != .none || !s.prefers gi || !s.takesRoles || !all then s
  else
    let s1 := nextTag s
    let m := { s1.witMsg gi with other := s1.otherDev gi, lease := s1.leaseL, period := s1.periodUs }
    startCheckpoint gi (eraseSets gi (renewLease gi (setRole gi .owner (toWitnesses gi 0x50 m s1))))

/-- A member holds the epoch that this controller uses. -/
def epochAccepted (gi m bay : Nat) (s : State) : State :=
  let g := s.group gi
  let drop (a : Attempt) : Attempt := { a with bays := a.bays.filter (· != bay) }
  let s1 := s.modGroup gi fun g => { g.modMember m (fun x => { x with accepted := g.epoch }) with attempt := g.attempt.map drop }
  let waited := g.won && g.attempt.any fun a => a.bays.contains bay
  if waited && (s1.group gi).attempt.all fun a => a.bays.isEmpty then epochsRaised gi s1 else formOwn gi s1

/-- EPOCH_REFUSED, or a notice before every epoch is raised: the attempt ends, the copy is stale (R226, R335). -/
def epochRefused (gi : Nat) (s : State) : State :=
  (endAttempt gi (revokeBays (s.group gi).bays s)).modGroup gi fun g => { g with resyncSent := true, failedAt := none }

/-- A module has reported its MOD_EPOCH (R218, R230). -/
def epochTold (bay e : Nat) (s : State) : State := s.modBay bay fun b => { b with epoch := e, modEpoch := e }

/-- The effect of an EPOCH_SET completion. A module that refuses the epoch it already holds has accepted it before (DEDUCED, log 21). -/
def epochSetEnds (c : Payload.Cpl) (o : FlashOp) (s : State) : State :=
  let s1 := epochTold o.bay c.epoch s
  match o.use, s1.bayMember o.bay with
  | .epochSet e, some (gi, m) =>
    let g := s1.group gi
    if e != g.epoch then s1
    else if c.status = 0 || (c.status = 0x0B && c.epoch == e && (g.attempt.isNone || g.role.owns)) then epochAccepted gi m o.bay s1
    else if c.status = 0x0B then
      if g.role = .takingOver && g.attempt.isSome then epochRefused gi s1
      else if g.epoch < c.epoch then fence gi s1 else s1
    else s1
  | _, _ => s1

/-- EPOCH_SET_CPL. -/
def epochSetCpl (bay : Nat) (entry : List Byte) (s : State) : State := takeCpl bay 0x60 entry epochSetEnds s

def execEpochSetCpl (bay : Nat) (entry : List Byte) (s : State) : Host.Outcome State Fault Refusal := .next (epochSetCpl bay entry s)

/-- EPOCH_NOTICE: a module has taken a new epoch (R225, R226). -/
def epochNotice (bay : Nat) (entry : List Byte) (s : State) : State :=
  let c := cplOf entry
  if !s.fresh bay entry || c.opc != 0xF0 then s
  else
    let s1 := (epochTold bay c.epoch (consumeEntry bay s)).modBay bay fun b => { b with evt := setBit b.evt 4 }
    match s.bayMember bay with
    | some (gi, _) =>
      let g := s.group gi
      if g.role.owns || g.role = .leaseLost then if g.epoch < c.epoch then fence gi s1 else s1
      else if g.role = .takingOver && g.won then
        if g.epoch < c.epoch then (if g.attempt.all fun a => a.bays.isEmpty then fence gi s1 else epochRefused gi s1) else s1
      else if (s.bay bay).epoch < c.epoch && g.role = .takingOver then epochRefused gi s1
      else s1
    | none => s1

def execEpochNotice (bay : Nat) (entry : List Byte) (s : State) : Host.Outcome State Fault Refusal := .next (epochNotice bay entry s)

end Sys2Proof.Machine
end

