-- ==== Sys2Proof/Machine/Witness.lean ====
section
/-! DEFINITION. The witness in the AON controller: its vote table, its answers, and the datagrams of MP (R324, R329 to
R333). -/

namespace Sys2Proof.Machine

/-! ### The vote table (R331) -/

def State.modWit (s : State) (f : WitState → WitState) : State := { s with wit := f s.wit }

/-- L times the frame period of an entry, in clock cycles. -/
def WitEntry.span (e : WitEntry) : Nat := e.lease * e.period * 1600

/-- An entry as it stands at a clock cycle: 2 × L after its creation a PROVISIONAL one is ordinary, with PROMISED its epoch (R331). -/
def WitEntry.at (e : WitEntry) (now : Nat) : WitEntry :=
  if e.provisional && decide (e.created + 2 * e.span ≤ now) then { e with provisional := false, promised := e.epoch } else e

/-- The entry of a group. -/
def State.witEntry (s : State) (uid : Nat) : Option WitEntry :=
  (s.wit.entries.find? fun e => e.uid == uid).map fun e => e.at s.clock

def putEntry (e : WitEntry) (s : State) : State :=
  s.modWit fun w => { w with entries := (w.entries.filter fun x => x.uid != e.uid) ++ [e] }

def WitEntry.inPair (e : WitEntry) (dev : Nat) : Bool := dev == e.devA || dev == e.devB

/-- The last grant is older than L. -/
def WitEntry.lapsed (e : WitEntry) (now : Nat) : Bool := match e.grant with | some t => decide (t + e.span < now) | none => true

/-- A release at the entry's epoch names a device, and is not older than 2 × L. -/
def WitEntry.releasedTo (e : WitEntry) (now dev : Nat) : Bool :=
  match e.release with | some (d, t) => d == dev && decide (now < t + 2 * e.span) | none => false

/-- An entry takes L and the frame period of a message that it accepts. -/
def WitEntry.times (e : WitEntry) (m : WitMsg) : WitEntry := { e with lease := m.lease, period := m.period }

/-- An answer of this witness: its own ID, the request's epoch and TAG, and the entry's owner, epoch and PROMISED (R332). -/
def State.witReply (s : State) (m : WitMsg) (answer reason : Nat) : WitMsg :=
  let e := (s.witEntry m.uid).getD {}
  { uid := m.uid, sender := s.fuse.deviceId, epoch := m.epoch, answer, reason := if answer = 1 then 0 else reason, other := e.owner,
    promised := e.promised, entryEpoch := e.epoch, tag := m.tag }

/-- A YES vote, or a FORCED REGISTER accepted, in the black box (R331). -/
def voteRecord (m : WitMsg) (s : State) : State := bbx 0 Code.fcWitnessVote Kind.none 0 [m.uid, m.epoch, m.sender] s

/-- REGISTER (R324, R331): the answer, and the state after it. The pair device IDs stay those of the message that created the entry, and a
PROVISIONAL entry stays so until it is 2 × L old (R331). An entry that a REGISTER creates has no grant yet (DEDUCED, log 133). -/
def witRegister (m : WitMsg) (s : State) : WitMsg × State :=
  let forced := bit m.flags 0
  let yes (e : WitEntry) : WitMsg × State :=
    let s1 := putEntry (e.times m) s
    let s2 := if forced then voteRecord m s1 else s1
    (s2.witReply m 1 0, s2)
  match s.witEntry m.uid with
  | none =>
    if 1024 ≤ s.wit.entries.length then (s.witReply m 0 5, raise Code.evScrimLimit Kind.none 0 [] s)
    else yes { uid := m.uid, devA := m.sender, devB := m.other, owner := m.sender, epoch := m.epoch, promised := m.epoch,
               created := s.clock }
  | some e =>
    if m.sender = e.owner && m.epoch = e.epoch then
      yes { e with promised := m.epoch }
    else if forced && e.inPair m.sender && decide (e.promised < m.epoch ∧ e.epoch < m.epoch) then
      yes { e with owner := m.sender, epoch := m.epoch, promised := m.epoch, grant := some s.clock, release := none }
    else
      let reason := if !e.inPair m.sender then 1 else if forced then 2 else if m.sender != e.owner then 6 else 7
      (s.witReply m 0 reason, s)

/-- LEASE_RENEW (R331). A grant ends a lapse that this controller has reported (R318). A full table denies as it does a REGISTER (R324,
R332). -/
def witRenew (m : WitMsg) (s : State) : WitMsg × State :=
  let grant (e : WitEntry) : WitMsg × State :=
    let s1 := clearDev m.sender 2 (putEntry ({ e with grant := some s.clock }.times m) s)
    ({ s1.witReply m 1 0 with flags := flag e.provisional 2 }, s1)
  match s.witEntry m.uid with
  | none =>
    if 1024 ≤ s.wit.entries.length then (s.witReply m 0 5, s)
    else grant { uid := m.uid, devA := m.sender, devB := m.other, owner := m.sender, epoch := m.epoch, promised := m.epoch,
                 provisional := true, created := s.clock }
  | some e =>
    if m.sender = e.owner && m.epoch = e.epoch && decide (e.promised ≤ m.epoch) then grant e
    else if e.provisional && e.inPair m.sender && m.sender != e.owner && decide (e.epoch < m.epoch) then grant { e with owner := m.sender, epoch := m.epoch }
    else
      let reason := if !e.inPair m.sender then 1 else if m.sender != e.owner then 6 else 7
      ({ s.witReply m 0 reason with flags := flag e.provisional 2 }, s)

/-- TAKEOVER_REQ (R331). A lapse that the vote rests on is reported by the data die, when it runs (R318). -/
def witTakeover (m : WitMsg) (s : State) : WitMsg × State :=
  match s.witEntry m.uid with
  | none => (s.witReply m 0 4, s)
  | some e =>
    if e.provisional then (s.witReply m 0 4, s)
    else if !e.inPair m.sender then (s.witReply m 0 1, s)
    else if m.epoch ≤ e.promised || m.epoch ≤ e.epoch then (s.witReply m 0 2, s)
    else if e.lapsed s.clock || e.releasedTo s.clock m.sender then
      let e1 := { e with owner := m.sender, epoch := m.epoch, promised := m.epoch, grant := some s.clock, release := none }
      let s1 := voteRecord m (putEntry (e1.times m) s)
      let saw := s.ddUp && !e.releasedTo s.clock m.sender && e.owner != m.sender
      (s1.witReply m 1 0, if saw then reportDev e.owner 2 s1 else s1)
    else (s.witReply m 0 3, s)

/-- RELEASE (R331): held, when the sender owns the entry at its epoch. It has no answer. -/
def witRelease (m : WitMsg) (s : State) : State :=
  match s.witEntry m.uid with
  | none => s
  | some e =>
    if !e.provisional && m.sender == e.owner && m.epoch == e.epoch then putEntry { e with release := some (m.other, s.clock) } s
    else s

/-! ### Over Scrim (R330) -/

/-- A message to this witness over Scrim, and its answer to the sender's address: the data die carries both, in the request's flow (R317, R329, R330). -/
def witScrim (ty : Nat) (f : WitMsg → State → WitMsg × State) (src flow : Nat) (body : List Byte) (s : State) : State :=
  if !s.ddUp || body.length != 64 then s
  else
    let (r, s1) := f (WitMsg.ofBytes body) s
    scrimSend src ty flow 0 r.bytes s1

/-- WITNESS_REGISTER_RX. -/
def execWitnessRegisterRx (src flow : Nat) (body : List Byte) (s : State) : Host.Outcome State Fault Refusal :=
  .next (witScrim 0x54 witRegister src flow body s)

/-- A renewal over Scrim: a copy from the group's other controller tells the partner that the owner lives; any other is for
the witness (R326, R328). -/
def witnessRenewRx (src flow : Nat) (body : List Byte) (s : State) : State :=
  let m := WitMsg.ofBytes body
  match (if body.length = 64 then s.groupOf m.uid else none) with
  | some gi =>
    if s.ddUp && m.sender == s.otherDev gi && decide ((s.group gi).known ≤ m.epoch) then
      ownerHeard gi (s.modGroup gi fun g => { g with known := Nat.max g.known m.epoch })
    else s
  | none => witScrim 0x52 witRenew src flow body s

def execWitnessRenewRx (src flow : Nat) (body : List Byte) (s : State) : Host.Outcome State Fault Refusal :=
  .next (witnessRenewRx src flow body s)

/-- WITNESS_TAKEOVER_RX. -/
def execWitnessTakeoverRx (src flow : Nat) (body : List Byte) (s : State) : Host.Outcome State Fault Refusal :=
  .next (witScrim 0x54 witTakeover src flow body s)

/-- WITNESS_RELEASE_RX. -/
def witnessReleaseRx (body : List Byte) (s : State) : State :=
  if s.ddUp && body.length = 64 then witRelease (WitMsg.ofBytes body) s else s

def execWitnessReleaseRx (body : List Byte) (s : State) : Host.Outcome State Fault Refusal := .next (witnessReleaseRx body s)

/-- RELEASE_HOLD_EXPIRY: a release is held for 2 × L (R331). -/
def releaseHoldExpiry (uid : Nat) (s : State) : State :=
  match s.witEntry uid with
  | some e =>
    match e.release with
    | some (_, t) => if t + 2 * e.span ≤ s.clock then putEntry { e with release := none } s else s
    | none => s
  | none => s

def execReleaseHoldExpiry (uid : Nat) (s : State) : Host.Outcome State Fault Refusal := .next (releaseHoldExpiry uid s)

/-- PROVISIONAL_MATURE: 2 × L after its creation an entry is ordinary, with PROMISED its epoch (R331). -/
def provisionalMature (uid : Nat) (s : State) : State :=
  match s.wit.entries.find? fun e => e.uid == uid with
  | some e => if e.provisional && decide (e.created + 2 * e.span ≤ s.clock) then putEntry (e.at s.clock) s else s
  | none => s

def execProvisionalMature (uid : Nat) (s : State) : Host.Outcome State Fault Refusal := .next (provisionalMature uid s)

/-! ### Over MP (R333) -/

/-- The highest SEQ accepted from a sender. -/
def WitState.seqOf (w : WitState) (dev : Nat) : Nat := ((w.seqs.find? fun p => p.1 == dev).map Prod.snd).getD 0

/-- A datagram passes the checks of R333. -/
def State.datagramOk (s : State) (b : List Byte) : Bool :=
  match s.wit.key with
  | none => false
  | some k =>
    let ty := leAt b 4 2
    b.length == 96 && b.take 4 == asciiBytes "DWWT" && decide (0x50 ≤ ty) && decide (ty ≤ 0x56) && leAt b 6 2 == 64 &&
      b.drop 80 == messageMac k (b.take 80) && decide (s.wit.seqOf (WitMsg.ofBytes (slice b 16 64)).sender < leAt b 8 8)

/-- A checked datagram: requests are answered to its source; answers and handover messages go to the data die, when it
runs. -/
def datagram (addr : List Byte) (port ty : Nat) (body : List Byte) (s : State) : State :=
  let m := WitMsg.ofBytes body
  let back (t : Nat) (r : WitMsg × State) : State := sendMp addr port t r.1 r.2
  match ty with
  | 0x50 => back 0x54 (witRegister m s)
  | 0x51 => back 0x52 (witRenew m s)
  | 0x52 => leaseAnswerRx body s
  | 0x53 => back 0x54 (witTakeover m s)
  | 0x54 => voteRx body s
  | 0x55 => witRelease m s
  | _ =>
    match m.step with
    | 1 => handoverOfferRx body s
    | 2 => handoverAckRx body s
    | 3 => handoverCommitRx body s
    | 4 => handoverCancelRx body s
    | 5 => handoverRequestRx body s
    | _ => s

/-- WITNESS_DATAGRAM_RX: the AON controller checks a datagram, keeps its SEQ, and handles it (R329, R330, R333). -/
def witnessDatagramRx (addr : List Byte) (port : Nat) (bytes : List Byte) (s : State) : State :=
  if s.pins.pwronLow || !s.datagramOk bytes then s
  else
    let body := slice bytes 16 64
    let dev := (WitMsg.ofBytes body).sender
    let s1 := s.modWit fun w => { w with seqs := (dev, leAt bytes 8 8) :: w.seqs.filter fun p => p.1 != dev }
    datagram addr port (leAt bytes 4 2) body s1

def execWitnessDatagramRx (addr : List Byte) (port : Nat) (bytes : List Byte) (s : State) : Host.Outcome State Fault Refusal :=
  .next (witnessDatagramRx addr port bytes s)

end Sys2Proof.Machine
end

