-- ==== Sys2Proof/Machine/ScrimFrame.lean ====
section
/-! DEFINITION. Scrim frames as they arrive: protection, the route header, and what each message type leads to (R311 to R314). -/

namespace Sys2Proof.Machine

/-- The route header and the body, from offset 26 of the frame on; none when LENGTH does not fit. -/
def routeHead (b : List Byte) : Option RouteHead :=
  let n := leAt b 8 2
  if 16 + n ≤ b.length then
    some { dst := leAt b 0 2 % 4096, flood := bit (leAt b 0 2) 12, src := leAt b 2 2 % 4096, ttl := leAt b 4 1,
           cls := leAt b 5 1 % 8, ty := leAt b 6 2, flow := leAt b 10 2, body := slice b 16 n }
  else none

/-! ### Protection (R311) -/

/-- A protected frame opened with a key of 32 bytes and its salt: the IV is the salt, then PN as the frame carries it (DEDUCED,
log 25). -/
def openFrame (key frame : List Byte) : Option (List Byte) :=
  let k := Aes.ofBytes (key.take 32)
  let iv := Aes.ofBytes (key.drop 32 ++ slice frame 18 8)
  let n := frame.length - 42
  let ct := Aes.ofBytes (slice frame 26 n)
  if Aes.gcmTag k iv (Aes.ofBytes (frame.take 26)) ct == Aes.ofBytes (frame.drop (26 + n)) then
    some (Aes.toBytes (Aes.gcmCrypt k iv ct)) else none

/-- A frame whose ICV fails is dropped and counted; 16 within a second bring the adjacency down (R310, R311). -/
def icvFailed (port : Nat) (s : State) : State :=
  let recent := ((s.adj port).icvAt.filter fun t => decide (s.clock < t + 1600000000)) ++ [s.clock]
  let s1 := countScrim 2 (s.modAdj port fun a => { a with icvAt := recent })
  if 16 ≤ recent.length then adjDown port s1 else s1

/-! ### Types (R314) -/

/-- A consumed frame does what its type says. The bodies of RESYNC and PTP messages the spec leaves to no layout that this model
reads: their rows bring them (log 9). -/
def consume (h : RouteHead) (s : State) : State :=
  match h.ty with
  | 0x21 => jmirrorRx h.src h.body s
  | 0x22 => jackRx h.body s
  | 0x23 => s
  | 0x24 => jcopyReqRx h.src h.body s
  | 0x25 => jcopyRx h.body s
  | 0x31 => peerReadReq h.src h.body s
  | 0x32 => peerReadRsp h.src h.body (peerHeard h.src s)
  | 0x40 => s
  | 0x50 => witScrim 0x54 witRegister h.src h.flow h.body s
  | 0x51 => witnessRenewRx h.src h.flow h.body s
  | 0x53 => witScrim 0x54 witTakeover h.src h.flow h.body s
  | 0x55 => witnessReleaseRx h.body s
  | 0x52 => leaseAnswerRx h.body s
  | 0x54 => voteRx h.body s
  | 0x56 => datagram [] 0 0x56 h.body s
  | 0x60 => mbxScrimRequest h.src ((s.devAt h.src).getD 0) h.body s
  | _ => countScrim 4 s

/-- A type of R314. -/
def scrimType (ty : Nat) : Bool :=
  [0x01, 0x02, 0x10, 0x11, 0x12, 0x21, 0x22, 0x23, 0x24, 0x25, 0x31, 0x32, 0x40, 0x50, 0x51, 0x52, 0x53, 0x54, 0x55, 0x56,
   0x60].contains ty

/-- A frame for another controller goes on towards it, its class unchanged (R313). -/
def forward (h : RouteHead) (s : State) : State :=
  if h.ttl ≤ 1 then countScrim 3 s
  else match s.nextHop h.src h.dst h.flow 0 with
    | some p => sendOn p { h with ttl := h.ttl - 1 } s
    | none => countScrim 3 s

/-- A frame that has passed its protection (R313, R314); only a FULL adjacency carries one (R310). -/
def route (port : Nat) (h : RouteHead) (s : State) : State :=
  if (s.adj port).st != .full then s
  else if !scrimType h.ty then countScrim 4 s
  else if h.ty = 0x11 then lsaAckRx port h.body s
  else if h.flood then
    if h.ty = 0x10 then lsaRx port h.body s else if h.ty = 0x12 then faultReportRx port h.body s else s
  else if h.dst = s.scrim.addr && s.scrim.claimed then consume h s
  else forward h s

/-- A frame with P = 0: HELLO and KEYX only (R311). -/
def plainFrame (port : Nat) (h : RouteHead) (s : State) : State :=
  if h.ty = 0x01 then helloRx port h.body s
  else if h.ty = 0x02 then
    if leAt h.body 8 1 = 1 then keyxInitRx port h.body s else keyxConfirmRx port h.body s
  else s

/-- A protected frame: accepted under the key that its AN names, with a PN above the last one; the first frame under a new key
brings that key into use (R311). -/
def protectedFrame (port : Nat) (frame : List Byte) (s : State) : State :=
  let a := s.adj port
  let an := bits (leAt frame 14 1) 5 2
  let pn := leAt frame 18 8
  let next := !a.rxNext.isEmpty && an == a.an && (an != a.rxAn || a.rxKey.isEmpty)
  let key := if next then a.rxNext else a.rxKey
  if key.isEmpty || (!next && an != a.rxAn) then icvFailed port s
  else
    let s0 := useKey (3077 + 2 * port) s
    match openFrame key frame with
    | none => icvFailed port s0
    | some b =>
      if !next && pn ≤ a.rxPn then s0
      else
        let s1 := s0.modAdj port fun a =>
          if next then { a with rxKey := a.rxNext, rxNext := [], rxAn := an, rxPn := pn } else { a with rxPn := pn }
        match routeHead b with
        | some h => if h.ty ≤ 0x02 then s1 else route port h (frameCipher h s1)
        | none => s1

/-- A Scrim frame that the port accepts: VER 1, protected or not (R311). Its source address is the neighbour's (R312). -/
def scrimAccept (port : Nat) (frame : List Byte) (s0 : State) : State :=
  let flags := leAt frame 14 1
  let s := s0.modAdj port fun a => { a with nbrMac := leAt frame 6 6 }
  if frame.length < 42 || bits flags 0 4 != 1 then s0
  else if bit flags 4 then (if frame.length < 58 then s else protectedFrame port frame s)
  else match routeHead (frame.drop 26) with
    | some h => plainFrame port h s
    | none => s

/-- SCRIM_FRAME_RX: a frame from its destination address to its ICV arrives on SP port p; one whose FCS is wrong is dropped (R288). -/
def scrimFrameRx (port : Nat) (frame : List Byte) (fcsOk : Bool) (s : State) : State :=
  if !s.ddUp || 3 < port || !s.spEnabled port then s
  else
    let len := frame.length + 4
    let bad := leAt frame 12 2 != 0xB588 || decide (9216 < len)
    let s1 := mirrorFrame (8 + port) 0 false 0 3 (bad || !fcsOk) false len none frame (netCount Nc.rxFrames (8 + port) 0 s)
    if !fcsOk then netCount Nc.fcsErr (8 + port) 0 s1
    else if bad then netEvt (8 + port) 6 (netCount Nc.rxUnaccepted (8 + port) 0 s1) else scrimAccept port frame s1

def execScrimFrameRx (port : Nat) (frame : Payload.WireFrame) (s : State) : Host.Outcome State Fault Refusal :=
  .next (scrimFrameRx port frame.bytes frame.fcsOk s)

end Sys2Proof.Machine
end

