-- ==== Sys2Proof/Machine/Net.lean ====
section
/-! DEFINITION. Ethernet ports and shaping: frames in and out, PFC, port down and up, policing, CNP caps, mirror reset, gate
commits (R274 to R302). -/

namespace Sys2Proof.Machine

/-! ### What a host sub-port accepts (R279, R282) -/

/-- Where a frame belongs that a sub-port accepts. -/
inductive FrameKind where
  | session | control (cls : Nat) | mac
  deriving DecidableEq, Repr, Inhabited

/-- IPv4 or IPv6 payload for the sub-port: protocol, its first bytes and the destination. -/
def ipKind (s : State) (ptpOn : Bool) (proto : Nat) (l4 : List Byte) (v6 : Bool) : Option FrameKind :=
  let dport := beNat (slice l4 2 2)
  let ptp := s.paramN 0x1015
  if proto = 17 then
    if dport = 4791 then some .session
    else if ptpOn && (dport = 319 || dport = 320) && ptp = (if v6 then 2 else 1) then some (.control 7)
    else none
  else if proto = 6 then
    if dport = s.paramN 0x200A || dport = s.paramN 0x200B then some .session else none
  else if !v6 && proto = 1 then (if leAt l4 0 1 = 8 || leAt l4 0 1 = 0 then some (.control 6) else none)
  else if v6 && proto = 58 then
    let t := leAt l4 0 1
    if t = 128 || t = 129 then some (.control 6) else if t = 135 || t = 136 then some (.control 7) else none
  else none

/-- The kind of frame that a sub-port accepts, by the frame's own bytes (R279): destination, VLAN, and payload; PTP on the ports of
`time.ptp.host_ports` only (R42). -/
def frameKind (s : State) (port : Nat) (x : SubPort) (frame : List Byte) : Option FrameKind :=
  let ptpOn := (s.paramN 0x1014).testBit port
  let h := padTo 128 frame
  let mac := leAt h 0 6
  let tagged := bit x.vlan 15
  let isTag := beNat (slice h 12 2) == 0x8100
  let off := if isTag then 16 else 12
  let ty := beNat (slice h off 2)
  let l3 := h.drop (off + 2)
  if !(mac == x.mac || bit (leAt h 0 1) 0) then none
  else if ty = 0x8808 then some .mac
  else if isTag != tagged || (tagged && beNat (slice h 14 2) % 4096 != x.vlan % 4096) then none
  else if ty = 0x0806 then (if x.prefix4 ≠ 0 && leAt l3 24 4 = x.ipv4 then some (.control 7) else none)
  else if ty = 0x88F7 then (if ptpOn && s.paramN 0x1015 = 0 then some (.control 7) else none)
  else if ty = 0x0800 then
    let ihl := 4 * (leAt l3 0 1 % 16)
    let ptp := ptpOn && leAt l3 9 1 = 17 && s.paramN 0x1015 = 1
    if (x.prefix4 ≠ 0 && leAt l3 16 4 = x.ipv4) || ptp then ipKind s ptpOn (leAt l3 9 1) (l3.drop ihl) false else none
  else if ty = 0x86DD then
    let nd := leAt l3 6 1 = 58 && (leAt l3 40 1 = 135 || leAt l3 40 1 = 136)
    let own := x.prefix6 ≠ 0 && slice l3 24 16 = x.ipv6
    let ptp := ptpOn && leAt l3 6 1 = 17 && s.paramN 0x1015 = 2
    if own || ptp || (nd && x.prefix6 ≠ 0 && slice l3 48 16 = x.ipv6) then ipKind s ptpOn (leAt l3 6 1) (l3.drop 40) true else none
  else none

/-! ### Policing (R298, R299) -/

/-- Bytes that a rate in Mb/s yields over some cycles. -/
def mbpsBytes (rate cycles : Nat) : Nat := rate * 125000 * cycles / 1600000000

/-- The colour of a frame of B bytes and the buckets after it: 0 green, 1 yellow, 2 red. -/
def colourOf (b tc tp : Nat) : Nat × Nat × Nat :=
  if tp < b then (2, tc, tp) else if tc < b then (1, tc, tp - b) else (0, tc - b, tp - b)

/-- A frame of an association is policed by its grant: its colour, 3 when it is not policed (R298). -/
def policeAssoc (a : Assoc) (len : Nat) (s : State) : Nat × State :=
  match s.grantOf a.nqn with
  | none => (3, s)
  | some g =>
    if g.cir = 0 then (3, s)
    else
      let full : Policer := { assoc := a.num, tc := g.cbs * 1024, tp := g.pbs * 1024, at_ := s.clock }
      let p := (s.net.policers.find? fun x => x.assoc == a.num).getD full
      let dt := s.clock - p.at_
      let (c, tc, tp) := colourOf len (Nat.min (g.cbs * 1024) (p.tc + mbpsBytes g.cir dt))
        (Nat.min (g.pbs * 1024) (p.tp + mbpsBytes g.pir dt))
      let q := { p with tc, tp, at_ := s.clock }
      (c, s.modNet fun n => { n with policers := q :: n.policers.filter fun x => x.assoc != a.num })

/-- A frame of no association on a host sub-port (R299). -/
def policeFree (p sub len : Nat) (s : State) : Nat × State :=
  let x := s.subPort p sub
  let add := mbpsBytes (s.paramN 0x607B) (s.clock - x.bucketAt)
  let (c, tc, tp) := colourOf len (Nat.min 1048576 (x.tc + add)) (Nat.min 1048576 (x.tp + add))
  (c, s.modSub p sub fun x => { x with tc, tp, bucketAt := s.clock })

/-- Red frames of an association: EV_NET_POLICE_RED at most once per minute (R299). -/
def tellRed (a : Option Assoc) (p : Nat) (s : State) : State :=
  match a with
  | none => s
  | some a =>
    match s.net.policers.find? fun x => x.assoc == a.num with
    | none => s
    | some x =>
      if s.passed x.told 60000000 then
        raise Code.evNetPoliceRed Kind.assoc a.cntlid [p]
          (s.modNet fun n => { n with policers := updWhere (fun y => y.assoc == a.num) (fun y => { y with told := some s.clock })
                                                    n.policers })
      else s

/-! ### A frame from a host (R281 to R288) -/

/-- A received frame's egress: the target engine of its session, or MGT, with its class (R281, R282). -/
def State.rxEgress (s : State) (f : Payload.EthFrame) (k : FrameKind) : Nat × Nat × Option Nat :=
  match f.conn with
  | some (c, q) =>
    match s.sessAt c q with
    | some x => (12 + x.engine, ((s.sessGrant x.num).map Grant.cls).getD 3, some x.num)
    | none => (20, 6, none)
  | none => (20, (match k with | .control c => c | _ => 6), none)

/-- An accepted frame is admitted to its egress queue, placed in the headroom of a lossless class, or dropped (R284,
R286). -/
def admitRx (f : NetFrame) (i : Nat × Nat × Nat) (sess : Option Nat) (colour : Nat) (s : State) : State :=
  let (p, sub, cls) := i
  let drop (kind : Nat) (s : State) : State :=
    mirrorFrame p sub false cls colour true false f.len sess f.head (netCount kind p cls s)
  let take (x : NetFrame) (s : State) : State :=
    pfcStates (joinQueue x (mirrorFrame p sub false cls colour false false f.len sess f.head s))
  let off := (s.subPort p sub).xoff.testBit cls
  match (if s.lossless p cls && off then none else admitted? f s) with
  | some x => take x s
  | none =>
    if s.lossless p cls then
      if s.ingressHeadroom i + cellsOf f.len ≤ s.paramN 0x6071 then take { f with headroom := cellsOf f.len } s
      else drop Nc.pfcOverflow s
    else tellBufDrop p (netEvt p 2 (drop Nc.bufDrop s))

/-- A frame that a host sub-port accepts is policed, then admitted (R298, R299). -/
def acceptRx (f : Payload.EthFrame) (k : FrameKind) (s : State) : State :=
  let a := f.conn.bind fun c => s.assocAt c.1
  let (port, cls, sess) := s.rxEgress f k
  let (colour, s1) := match a with
    | some a => policeAssoc a f.len s
    | none => policeFree f.port f.sub f.len s
  let lost (kind : Nat) (s : State) : State :=
    mirrorFrame f.port f.sub false cls colour true false f.len sess f.head (netCount kind f.port cls s)
  let x : NetFrame := { port, sub := 0, cls, key := 0, len := f.len, head := f.head, src := f.port,
                        ingress := some (f.port, f.sub, cls) }
  if colour = 2 then tellRed a f.port (netEvt f.port 5 (lost Nc.redDrop s1))
  else if colour = 1 && decide (s1.freeCells * 100 < s1.paramN 0x607C * s1.poolCells) then lost Nc.yellowDrop s1
  else admitRx x (f.port, f.sub, cls) sess colour s1

/-- HOST_FRAME_RX (R279, R281, R288, R292): received whole, FCS checked, accepted or dropped, policed, admitted. -/
def hostFrameRx (f : Payload.EthFrame) (s : State) : State :=
  if !s.ddUp || 7 < f.port || !s.subUp f.port f.sub then s
  else
    let s1 := netCount Nc.rxFrames f.port 0 s
    let bad (kind : Nat) (s : State) : State :=
      mirrorFrame f.port f.sub false 0 3 true false f.len none f.head (netCount kind f.port 0 s)
    if !f.fcsOk then bad Nc.fcsErr s1
    else match (if 9216 < f.len then none else frameKind s f.port (s.subPort f.port f.sub) f.head) with
      | none => netEvt f.port 6 (bad Nc.rxUnaccepted s1)
      | some .mac => mirrorFrame f.port f.sub false 0 3 false false f.len none f.head s1
      | some k => acceptRx f k s1

def execHostFrameRx (f : Payload.EthFrame) (s : State) : Host.Outcome State Fault Refusal := .next (hostFrameRx f s)

/-! ### Frames from internal sources (R281, R285, R290) -/

/-- A path of the switch from an internal port: host-bound to a sub-port, Scrim-bound through CIPH, from an SP port's
direction to a consumer (R281). -/
def pathOk (src port : Nat) : Bool :=
  if src < 12 || 23 < src then false
  else if port < 8 then src ≤ 20
  else if port < 12 then src == 21
  else if port = 21 then src != 21
  else src == 21 && port ≤ 23

/-- The class and queue of a frame that an internal source sends: a session's data has its grant's class and its own queue
on its own sub-port; everything else has the control queue (R281, R282). -/
def outFrame (f : Payload.NetOut) (s : State) : NetFrame :=
  let x : NetFrame := { port := f.port, sub := f.sub, cls := f.cls % 8, len := f.len, head := f.head, ecn := f.ecn, src := f.src }
  match f.sess.bind fun c => s.sessAt c.1 c.2 with
  | some q =>
    if f.port < 8 then { x with port := q.port, sub := q.sub, cls := ((s.sessGrant q.num).map Grant.cls).getD 3, key := q.num }
    else x
  | none => x

/-- Held frames are admitted in order; a source that holds one sends nothing more to that queue until it is in (R285). -/
def admitHeld (held : List NetFrame) (s : State) : State :=
  let same (a b : NetFrame) : Bool := a.src == b.src && a.at' b.port b.sub b.cls
  held.foldl (fun s f =>
    if !s.subUp f.port f.sub then s
    else if s.net.held.any (same f) then s.modNet fun n => { n with held := n.held ++ [f] }
    else match admitted? f s with
      | some x => joinQueue x s
      | none => s.modNet fun n => { n with held := n.held ++ [f] }) (s.modNet fun n => { n with held := [] })

/-- INTERNAL_FRAME_ADMIT: an internal source offers a frame, or buffer has become free for those that are held (R285). A
frame bound to a sub-port that is down is dropped before it is sent (R290), and one whose path is not listed is dropped
(R281). -/
def internalFrameAdmit (f : Option Payload.NetOut) (s : State) : State :=
  if !s.ddUp then s
  else
    let new := match f with
      | some f => if pathOk f.src f.port && decide (f.len ≤ 9216) then [outFrame f s] else []
      | none => []
    pfcStates (admitHeld (s.net.held ++ new) s)

def execInternalFrameAdmit (f : Option Payload.NetOut) (s : State) : Host.Outcome State Fault Refusal :=
  .next (internalFrameAdmit f s)

/-! ### Selection (R296, R301) -/

/-- The queues of a class that one selection looks at: the first 16 ready ones by start tag. -/
def ClassTag.window (c : ClassTag) : List QueueTag :=
  ((c.queues.filter QueueTag.ready).mergeSort fun a b => decide (a.start ≤ b.start)).take 16

/-- select(port) of R296: the class, queue and frame that go next. -/
def State.selected (s : State) (x : Sched) : Option (Nat × Nat × NetFrame) :=
  let order := ((List.range 8).filter fun c => (nth x.classes c).ready).mergeSort fun a b =>
    decide ((nth x.classes a).start ≤ (nth x.classes b).start)
  order.findSome? fun c => ((nth x.classes c).window).findSome? fun q =>
    match s.headOf x.port x.sub c q.key with
    | some f => if s.fits x.port c f.len then some (c, q.key, f) else none
    | none => none

/-- The tags after a frame of a queue has been sent: port and class times, the class's finish, the queue's next head or its
place left (R296). -/
def Sched.sent (x : Sched) (cls key wire weight classWeight : Nat) (nextWire : Option Nat) : Sched :=
  let c := nth x.classes cls
  let start := (((c.queues.find? fun q => q.key == key).map QueueTag.start)).getD 0
  let after (q : QueueTag) : QueueTag :=
    match nextWire with
    | some w => { q with start := q.finish, finish := q.finish + w * 256 / Nat.max 1 weight }
    | none => { q with ready := false }
  let finish := c.start + wire * 256 / Nat.max 1 classWeight
  let c' := { c with vtime := start, finish, start := finish, queues := updWhere (fun q => q.key == key) after c.queues }
  { x with vtime := c.start, classes := upd x.classes cls fun _ => c' }

/-- A selected frame leaves: its cells are free, ECN marks it by its queue's fill, on a host port its VLAN tag
or its DSCP carries the class (R282), its CNP bucket pays, it is counted and
mirrored (R284, R287, R292, R297). -/
def sendFrame (p sub cls key : Nat) (f : NetFrame) (s : State) : State :=
  let cells := ((s.net.frames.filter fun x => x.at' p sub cls).map fun x => x.guaranteed + x.shared + x.headroom).sum
  let mark := f.ecn && decide (Config.freeNat s.free % 2 ^ 32 < s.ecnChance cells)
  let pay (x : CnpCap) : CnpCap := { x with bucket := s.capNow x - wireBytes f.len, at_ := s.clock }
  let s1 := s.drew.modNet fun n => { n with frames := n.frames.erase f, caps := updWhere (fun x => x.sess == key && key != 0) pay n.caps }
  let s2 := if mark then netCount Nc.ecnMarked p cls s1 else s1
  let s3 := if p < 12 then
      mirrorFrame p sub true cls 3 false ((s.paramN (0x6020 + p)).testBit cls) f.len (if key = 0 then none else some (key % 65536))
        f.head (netCount Nc.txFrames p cls s2)
    else s2
  let vlan := (s.subPort p sub).vlan
  let tag := if p < 8 && bit vlan 15 then some (vlan % 4096, cls) else none
  pfcStates (s3.emit (.frame p sub cls key f.len mark tag (if p < 8 && tag.isNone then 8 * cls else 0)))

/-- PORT_SELECT (R296): the port can start a frame, and the scheduler selects and sends one that fits its gate. -/
def portSelect (p sub : Nat) (s : State) : State :=
  if !s.ddUp || !s.subUp p sub then s
  else
    let s0 := refreshSched p sub s
    let x := s0.net.sched p sub
    if s0.clock < x.sendEnd then s0
    else match s0.selected x with
      | none => s0
      | some (cls, key, f) =>
        let s1 := sendFrame p sub cls key f s0
        let next := if s1.eligible p sub cls key then (s1.headOf p sub cls key).map fun f => wireBytes f.len else none
        let y := x.sent cls key (wireBytes f.len) (s0.queueWeight key) (s0.paramN (0x6068 + cls)) next
        let ends := s0.clock + ceilDiv (wireBytes f.len * 8 * 16) (10 * s0.rateOf p)
        refreshSched p sub (s1.modNet fun n => n.putSched { y with sending := cls, sendEnd := ends })

def execPortSelect (port sub : Nat) (s : State) : Host.Outcome State Fault Refusal := .next (portSelect port sub s)

/-! ### PFC (R286) -/

/-- PFC_FRAME_RX: the class-enable vector and a time for each class. A lossless class pauses, or resumes on a time of 0. A
class whose pauses are being ignored does neither. -/
def pfcFrameRx (p sub vec : Nat) (times : List Nat) (s : State) : State :=
  if !s.ddUp || 11 < p || !s.subUp p sub then s
  else
    let one (s : State) (c : Nat) : State :=
      if !vec.testBit c || !s.lossless p c then s
      else
        let s1 := netCount Nc.pauseRx p c s
        if (s.subPort p sub).ignoring.testBit c then s1
        else s1.modSub p sub fun x => { x with paused := if nth times c = 0 then clearBit x.paused c else setBit x.paused c }
    refreshSched p sub ((List.range 8).foldl one s)

def execPfcFrameRx (port sub vec : Nat) (times : List Nat) (s : State) : Host.Outcome State Fault Refusal :=
  .next (pfcFrameRx port sub vec times s)

/-- PFC_PAUSE_EXPIRY: the pause time runs out. -/
def pfcPauseExpiry (p sub cls : Nat) (s : State) : State :=
  refreshSched p sub (s.modSub p sub fun x => { x with paused := clearBit x.paused cls })

def execPfcPauseExpiry (port sub cls : Nat) (s : State) : Host.Outcome State Fault Refusal := .next (pfcPauseExpiry port sub cls s)

/-- PFC_WATCHDOG: the class has been paused for the watchdog time. Further pauses are ignored, its frames are dropped. -/
def pfcWatchdog (p sub cls : Nat) (s : State) : State :=
  if 11 < p || !(s.subPort p sub).paused.testBit cls then s
  else
    let s1 := s.modSub p sub fun x => { x with ignoring := setBit x.ignoring cls }
    let s2 := s1.modNet fun n => { n with frames := n.frames.filter fun f => !f.at' p sub cls }
    raise Code.evNetPfcWatchdog Kind.port p [cls] (netEvt p 4 (pfcStates (refreshSched p sub s2)))

def execPfcWatchdog (port sub cls : Nat) (s : State) : Host.Outcome State Fault Refusal := .next (pfcWatchdog port sub cls s)

/-- PFC_WATCHDOG_RECOVER: pauses are honoured again. -/
def pfcWatchdogRecover (p sub cls : Nat) (s : State) : State :=
  s.modSub p sub fun x => { x with ignoring := clearBit x.ignoring cls }

def execPfcWatchdogRecover (port sub cls : Nat) (s : State) : Host.Outcome State Fault Refusal :=
  .next (pfcWatchdogRecover port sub cls s)

/-! ### Ports down and up (R289 to R291) -/

/-- Egress queues of a sub-port are freed, the frame in transmission is abandoned, and held frames bound to it are dropped
(R290 steps 1 to 4). Its queues keep their last finish tags (R295). -/
def clearQueues (p sub : Nat) (s : State) : State :=
  let off (c : ClassTag) : ClassTag := { c with ready := false, queues := c.queues.map fun q => { q with ready := false } }
  pfcStates (s.modNet fun n => { n with
    frames := n.frames.filter fun f => !(f.port == p && f.sub == sub),
    held := n.held.filter fun f => !(f.port == p && f.sub == sub),
    scheds := updWhere (fun x => x.port == p && x.sub == sub) (fun x => { x with classes := x.classes.map off, sendEnd := 0 })
      n.scheds })

/-- SUBPORT_DOWN (R290, R291). -/
def subportDown (p sub : Nat) (s : State) : State :=
  if 11 < p || !(s.subPort p sub).up then s
  else
    let mine (x : Session) : Bool := x.port == p && x.sub == sub
    let s0 := s.modSub p sub fun x => { x with up := false, paused := 0, ignoring := 0, xoff := 0 }
    let s1 := netEvt p 0 (clearQueues p sub s0)
    let before := s1.host.sessions.length
    let s2 := if p < 8 then
        let a := (s1.host.sessions.filter mine).foldl (fun s q => teardown q.num s) s1
        (a.host.assocs.filter fun x => x.port == p && x.sub == sub).foldl (fun s x => teardownAssoc x.num s) a
      else (List.range 6).foldl (fun s g => jmirrorRetry g s) (adjDown (p - 8) s1)
    raise Code.evNetPortDown Kind.port p [sub, before - s2.host.sessions.length] s2

def execSubportDown (port sub : Nat) (s : State) : Host.Outcome State Fault Refusal := .next (subportDown port sub s)

/-- SUBPORT_UP: up for `net.link.hold_down_ms` (R289). -/
def subportUp (p sub : Nat) (s : State) : State :=
  let x := s.netPort p
  if !s.ddUp || 11 < p || !x.enable || (s.subPort p sub).up || subsOfMode x.mode ≤ sub then s
  else raise Code.evNetPortUp Kind.port p [sub] (netEvt p 1 (s.modSub p sub fun x => { x with up := true }))

def execSubportUp (port sub : Nat) (s : State) : Host.Outcome State Fault Refusal := .next (subportUp port sub s)

/-- A write of NET_PORT_CFG.ENABLE (R278, R289): setting it puts mode, media and lossless classes into effect and the port trains
afresh, with auto-negotiation and link training on KR and CR only (R275); clearing it
declares every sub-port down. -/
def netPortEnable (p : Nat) (en : Bool) (s : State) : State :=
  let x := s.netPort p
  let tell (s : State) : State := if p < 8 then discoveryChanged s else s
  if 11 < p || x.enable == en then s
  else if en then
    let mode := s.paramN (0x6000 + p)
    let media := s.paramN (0x6010 + p)
    tell ((s.modPort p fun x => { x with enable := true, mode, media, pfc := s.paramN (0x6030 + p) }).emit (.portTrain p mode media))
  else tell <| (List.range 4).foldl (fun s i => subportDown p i s) (s.modPort p fun x => { x with enable := false })

def execNetPortEnable (port : Nat) (enable : Bool) (s : State) : Host.Outcome State Fault Refusal :=
  .next (if s.ddUp then s.hostWrite (netPortEnable port enable s) else s)

/-! ### CNP (R297) -/

/-- Rate of a session's sub-port in Mb/s. -/
def State.sessRate (s : State) (q : Session) : Nat := s.rateOf q.port * 1000

/-- CNP_RX: the session's rate is capped, or its cap cut, at most once per 50 µs. -/
def cnpRx (cntlid qid : Nat) (s : State) : State :=
  match s.sessAt cntlid qid with
  | none => s
  | some q =>
    let s1 := netCount Nc.cnpRx q.port (((s.sessGrant q.num).map Grant.cls).getD 3) s
    let cut (r : Nat) : Nat := r * (100 - s.paramN 0x6076) / 100
    match s.net.caps.find? fun x => x.sess == q.num with
    | none => s1.modNet fun n => { n with caps := { sess := q.num, rate := cut (s.sessRate q), at_ := s.clock, last := s.clock } :: n.caps }
    | some x =>
      if s.clock < x.last + 80000 then s1
      else
        let y := { x with rate := Nat.max 100 (cut x.rate), bucket := s.capNow x, at_ := s.clock, last := s.clock }
        s1.modNet fun n => { n with caps := updWhere (fun z => z.sess == q.num) (fun _ => y) n.caps }

def execCnpRx (cntlid qid : Nat) (s : State) : Host.Outcome State Fault Refusal := .next (cnpRx cntlid qid s)

/-- CNP_RECOVER: a recovery interval has passed without a CNP; the cap rises, and is lifted at the sub-port's rate. -/
def cnpRecover (cntlid qid : Nat) (s : State) : State :=
  match s.sessAt cntlid qid with
  | none => s
  | some q =>
    match s.net.caps.find? fun x => x.sess == q.num with
    | none => s
    | some x =>
      let r := x.rate + s.paramN 0x6078
      if s.sessRate q ≤ r then s.modNet fun n => { n with caps := n.caps.filter fun z => z.sess != q.num }
      else
        let y := { x with rate := r, bucket := s.capNow x, at_ := s.clock }
        s.modNet fun n => { n with caps := updWhere (fun z => z.sess == q.num) (fun _ => y) n.caps }

def execCnpRecover (cntlid qid : Nat) (s : State) : Host.Outcome State Fault Refusal := .next (cnpRecover cntlid qid s)

/-- TRANSPORT_RETRANSMIT (R299): unacknowledged data of a connection is sent again. -/
def transportRetransmit (cntlid qid : Nat) (s : State) : State :=
  let live := if qid = 0 then (s.assocAt cntlid).isSome else (s.sessAt cntlid qid).isSome
  if live && s.ddUp then s.emit (.resend cntlid qid) else s

def execTransportRetransmit (cntlid qid : Nat) (s : State) : Host.Outcome State Fault Refusal :=
  .next (transportRetransmit cntlid qid s)

/-! ### Mirror reset and gate commits (R12, R294, R300) -/

/-- NET_MIRROR_CTRL.RESET. -/
def mirrorReset (s : State) : State := s.modNet fun n => { n with prod := 0, cons := 0, fullTold := false }

def execMirrorReset (s : State) : Host.Outcome State Fault Refusal :=
  .next (if s.ddUp then s.hostWrite (mirrorReset s) else s)

end Sys2Proof.Machine
end

