-- ==== Sys2Proof/Machine/Skim.lean ====
section
/-! DEFINITION. Skim and rebuild rows: the patrol pass, the comparison of a stripe, refresh, the end of a band's rebuild,
spare delay and return window (R201 to R205, R259 to R263). -/

namespace Sys2Proof.Machine

/-! ### The pass (R201, R207) -/

/-- Stripes of a band that hold at least one valid unit. -/
def State.skimStripes (s : State) (gi band : Nat) : List Nat :=
  let g := s.group gi
  let own := (g.owners.filter fun o => guaBand o.gua == band && s.mapNames gi o).map fun o => g.stripeOf (guaDu o.gua)
  (List.range g.stripesPerBand).filter own.contains

/-- The CLOSED bands of every owned group, in increasing SEQ. -/
def State.skimOrder (s : State) : List (Nat × Nat) :=
  let all := s.ownedGroups.map fun gi => (((s.group gi).bands.filter fun b => b.st == .closed).map fun b => (gi, b.num, b.seq))
  (all.flatten.mergeSort fun a b => decide (a.2.2 ≤ b.2.2)).map fun b => (b.1, b.2.1)

/-- SKIM_PASS_START (R201): a pass lists what it will read. -/
def skimPassStart (s : State) : State :=
  if s.paramN 0x4010 = 1 && !s.flash.skimOn && s.ddUp then
    let left := (s.skimOrder.map fun b => (s.skimStripes b.1 b.2).map fun q => (b.1, b.2, q)).flatten
    s.modFlash fun f => { f with skimOn := true, skimLeft := left, skimStart := s.tregs.frames,
                                 skimBehind := false }
  else s

def execSkimPassStart (s : State) : Host.Outcome State Fault Refusal := .next (skimPassStart s)

/-- The pass is over when every stripe has been patrolled: EV_SKIM_PASS_DONE (R201, R208). -/
def skimEnd (s : State) : State :=
  let busy := s.groups.any fun g => !g.skim.isEmpty
  if s.flash.skimOn && s.flash.skimLeft = [] && !busy then
    raise Code.evSkimPassDone Kind.none 0 [s.tregs.frames - s.flash.skimStart]
      (s.modFlash fun f => { f with skimOn := false })
  else s

/-- Every chunk of the stripe is there to be compared: none missing, left out or lost, and it is not the end of a band that was closed
early or was OPEN at a cut (R202). -/
def Group.comparable (g : Group) (band q : Nat) : Bool :=
  let b := g.band band
  ((List.range g.w).all fun m => g.currentAt m band q && !b.holes.contains (q, m) && !(g.member m).dead.contains (g.dieOf q)) &&
    !g.stripeLost band q && !(b.cut && decide (b.wp ≤ (q + 1) * g.perStripe))

/-- The owner that a unit's tag must name; a unit that nothing was placed at carries filler. -/
def Group.ownerAt (g : Group) (p : Place) : Nat × Nat :=
  match (g.guaOf p).bind g.ownerOf with
  | some o => (o.nsx, o.unit)
  | none => (0, 0)

/-- One unit of a stripe is read for its tag. -/
def readTag (gi band q : Nat) (s : State) (mu : Nat × Nat) : State :=
  let p : Place := { g := gi, band, q, member := mu.1, u := mu.2 }
  let o := (s.group gi).ownerAt p
  requestBuf { cls := 4, use := .skimTag gi band q mu.1 mu.2, place := p, nsx := o.1, unitNo := o.2 } s

/-- The data members of a stripe whose chunks are there to be read. -/
def Group.presentData (g : Group) (band q : Nat) : List Nat :=
  (List.range g.w).filter fun m => g.roleOf q m != g.w - 1 && g.currentAt m band q && !(g.band band).holes.contains (q, m)

/-- Units of a stripe, by member and position. -/
def unitsAt (ms us : List Nat) : List (Nat × Nat) := (ms.map fun m => us.map fun u => (m, u)).flatten

/-- The reads of one stripe start: both buffers of each unit position, or each present unit for its tag (R202). -/
def skimStripe (s : State) (x : Nat × Nat × Nat) : State :=
  let (gi, band, q) := x
  let g := s.group gi
  if g.comparable band q then
    let w : SkimWork := { band, q, data := List.replicate 4 none, parity := List.replicate 4 none }
    let p (u : Nat) : Place := { g := gi, band, q, member := g.parityMember q, u }
    (List.range 4).foldl (fun s u =>
      requestBuf { cls := 4, use := .skimParity gi band q u, place := p u }
        (requestBuf { cls := 4, use := .skimData gi band q u, place := p u, how := .stripe } s))
      (s.modGroup gi fun g => { g with skim := g.skim ++ [w] })
  else
    let want := unitsAt (g.presentData band q) [0, 1, 2, 3]
    want.foldl (readTag gi band q) (s.modGroup gi fun g => { g with skim := g.skim ++ [{ band, q, compare := false, want }] })

/-- Frame boundaries of the pass's period (R201, R207), and those left of it. -/
def State.skimFrames (s : State) : Nat := s.paramN 0x4011 * 3600000000000 / s.period
def State.skimFramesLeft (s : State) : Nat := s.skimFrames - (s.tregs.frames - s.flash.skimStart)

/-- The first `now` stripes of what is left of the pass are compared. -/
def skimTake (now : Nat) (s : State) : State :=
  skimEnd ((s.flash.skimLeft.take now).foldl skimStripe
    (s.modFlash fun f => { f with skimLeft := f.skimLeft.drop now }))

/-- A frame boundary's work for Skim: bands that are CLOSED no more drop out, the allowance of the frame, and the stripes
it pays for. A pass behind its period is told of once, and goes on with a thousandth of what is left (R201). -/
def skimFrame (s : State) : State :=
  if !s.flash.skimOn then s
  else
    let keep (x : Nat × Nat × Nat) : Bool := ((s.group x.1).band x.2.1).st == .closed && (s.role x.1).owns
    let s1 := s.modFlash fun f => { f with skimLeft := f.skimLeft.filter keep }
    let n := s1.flash.skimLeft.length
    let left := s1.skimFramesLeft
    let s2 := if left = 0 && decide (0 < n) && !s1.flash.skimBehind then
        raise Code.evSkimBehind Kind.none 0 [] (s1.modFlash fun f => { f with skimBehind := true }) else s1
    let allow := if s2.flash.skimBehind then ceilDiv n 1000 else ceilDiv n (Nat.max 1 left)
    let waits := s2.flash.waits.any fun w => w.cls == 4
    skimTake (if waits then 0 else Nat.min allow n) s2

/-- Clearing `skim.enable` abandons the pass (R207). -/
def skimAbandon (s : State) : State :=
  { s.modFlash fun f => { f with skimOn := false, skimLeft := [] } with groups := s.groups.map fun g => { g with skim := [] } }

/-! ### The comparison (R205) -/

/-- The unit positions at which a stripe's comparison failed or a read failed outright. -/
def SkimWork.badAt (w : SkimWork) : List Nat :=
  (List.range 4).filter fun u => (w.failed.any fun f => f.2 == u) || nth w.data u != nth w.parity u

/-- Every outcome of the reads under way is in. -/
def SkimWork.ready (w : SkimWork) : Bool :=
  if w.compare && w.want = [] then
    (List.range 4).all fun u =>
      (w.failed.any fun f => f.2 == u) || ((nth w.data u).isSome && (nth w.parity u).isSome)
  else w.tags.length == w.want.length

/-- EV_SKIM_PARITY_REPAIR, at most once per minute per group (R208). -/
def tellRepair (gi : Nat) (s : State) : State :=
  if s.passed (s.group gi).repairTold 60000000 then
    raise Code.evSkimParityRepair Kind.group gi [] (s.modGroup gi fun g => { g with repairTold := some s.clock })
  else s

/-- Units of one position that failed their own tags, and those that are lost. -/
def SkimWork.failedTags (w : SkimWork) (u : Nat) : List Nat :=
  (w.tags.filter fun t => t.2.1 == u && t.2.2 != 0).map Prod.fst
def SkimWork.lostTags (w : SkimWork) (u : Nat) : List Nat :=
  (w.tags.filter fun t => t.2.1 == u && t.2.2 == 2).map Prod.fst

/-- The units of one position that R205 makes lost: two or more that fail their tags, one whose rescue has failed too, and, where more
reads of the stripe than one have failed outright, those whose read failed. -/
def SkimWork.lostAt (w : SkimWork) (u : Nat) : List Nat :=
  let unread := if 2 ≤ w.failed.length then (w.failed.filter fun f => f.2 == u).map Prod.fst else []
  let fails := w.failedTags u
  (if 2 ≤ fails.length then fails else w.lostTags u) ++ unread

/-- A unit that a comparison found bad is lost with cause 3, if it is valid. -/
def skimLose (gi : Nat) (w : SkimWork) (u : Nat) (s : State) (m : Nat) : State :=
  match (s.group gi).guaOf { g := gi, band := w.band, q := w.q, member := m, u } with
  | some gua => if s.validAt gi gua then loseUnit gi gua 3 s else s
  | none => s

/-- The outcome of one unit position after its units' tags have been checked (R205): its counters and its losses. A single unit that fails
its tag while no map entry names it is not repaired. -/
def skimOutcome (gi : Nat) (w : SkimWork) (s : State) (u : Nat) : State :=
  let g := s.group gi
  let unread := (w.failed.filter fun f => f.2 == u).length
  let lost := w.lostAt u
  let invalid (m : Nat) : Bool := match g.guaOf { g := gi, band := w.band, q := w.q, member := m, u } with
    | some gua => !s.validAt gi gua
    | none => true
  let s1 := s.modCtrs gi fun c => if 0 < unread then { c with skimReadFail := c.skimReadFail + unread }
    else { c with skimMismatch := c.skimMismatch + 1 }
  if !lost.isEmpty then
    tellLost gi ((lost.foldl (skimLose gi w u) s1).modCtrs gi fun c => { c with skimLost := c.skimLost + 1 })
  else if 0 < unread then tellRepair gi s1
  else match w.failedTags u with
    | [] => tellRepair gi (s1.modCtrs gi fun c => { c with skimParityBad := c.skimParityBad + 1 })
    | m :: _ =>
      if invalid m then s1
      else tellRepair gi (s1.modCtrs gi fun c => { c with skimRepaired := c.skimRepaired + 1 })

/-- SKIM_STRIPE_COMPARE (R205): the reads of a stripe have finished. A match ends it; otherwise the data units of the
positions at fault are read for their tags, and when those are in, the outcome follows and the stripe's valid units are
relocated into stream 8. -/
def skimStripeCompare (gi band q : Nat) (s : State) : State :=
  let g := s.group gi
  match g.skim.find? fun w => w.band == band && w.q == q && w.ready with
  | none => s
  | some w =>
    let done (s : State) : State := s.modGroup gi fun g => { g with skim := g.skim.filter fun x => !(x.band == band && x.q == q) }
    if !w.compare then
      let bad := (w.tags.filter fun t => t.2.2 != 0).length
      skimEnd (done (s.modCtrs gi fun c => { c with skimTagFail := c.skimTagFail + bad }))
    else if w.badAt = [] then
      skimEnd (done (s.modCtrs gi fun c => { c with skimStripes := c.skimStripes + 1 }))
    else if w.want = [] then
      let want := unitsAt (g.presentData band q) w.badAt
      want.foldl (readTag gi band q) (skimResult gi band q (fun w => { w with want }) s)
    else
      let s1 := w.badAt.foldl (skimOutcome gi w) s
      let gua (t : Nat × Nat × Nat) : Option Nat := g.guaOf { g := gi, band, q, member := t.1, u := t.2.1 }
      let bad := (w.tags.filter fun t => t.2.2 == 1).filterMap gua
      skimEnd (done (relocateWith gi band (g.stripeUnits band q) bad false s1))

def execSkimStripeCompare (g band q : Nat) (s : State) : Host.Outcome State Fault Refusal := .next (skimStripeCompare g band q s)

/-! ### Rebuild (R260, R261, R263) -/

/-- Every row that a target has to rebuild in a band is rebuilt. -/
def Group.bandRebuilt (g : Group) (m band : Nat) : Bool :=
  (List.range g.dies).all fun k =>
    (g.member m).rows.any fun r => r.1 == band && r.2.1 == k && decide (g.rowsUsed m band k ≤ r.2.2)

/-- REBUILD_BAND_DONE (R261): the REBUILD_BAND record, the next bands, and after the last the member is current and its group's space is
assessed again (R177). -/
def rebuildBandDone (gi band : Nat) (s : State) : State :=
  let g := s.group gi
  let mine (m : Nat) : Bool :=
    (g.member m).st != .missing && (g.member m).st != .current && (g.member m).active.contains band && g.bandRebuilt m band
  match (if g.role.owns then lowest mine g.w else none) with
  | none => s
  | some m =>
    let put (x : Member) : Member :=
      { x with todo := x.todo.filter (· != band), active := x.active.filter (· != band), rows := x.rows.filter fun r => r.1 != band,
               newFrom := x.newFrom.filter fun p => p.1 != band }
    let whole (b : Band) : Band := { b with holes := b.holes.filter fun h => h.2 != m }
    let s1 := journal gi 0x0E (bodyRebuilt band m) (s.modGroup gi fun g => (g.modMember m put).modBand band whole)
    if ((s1.group gi).member m).todo = [] then
      let s2 := s1.modGroup gi fun g => g.modMember m fun x => { x with st := .current, window := false, erasedSince := [] }
      let s3 := raise Code.evGroupRebuildDone Kind.group gi [m] (journalMember gi m s2)
      spaceCheck gi (noticeGroup gi 7 1 0 (refreshHealth gi s3))
    else nextBands gi m s1

def execRebuildBandDone (g band : Nat) (s : State) : Host.Outcome State Fault Refusal := .next (rebuildBandDone g band s)

/-- SPARE_DELAY_EXPIRY (R260). -/
def spareDelayExpiry (gi m : Nat) (s : State) : State :=
  let g := s.group gi
  if g.role.owns && decide (m < g.w) && (g.member m).st = .missing then
    takeSpares (s.modGroup gi fun g => g.modMember m fun x => { x with spareDue := true })
  else s

def execSpareDelayExpiry (g m : Nat) (s : State) : Host.Outcome State Fault Refusal := .next (spareDelayExpiry g m s)

/-- RETURN_WINDOW_EXPIRY (R263): the bitmap is discarded, and a later return is a full rebuild. -/
def returnWindowExpiry (gi m : Nat) (s : State) : State :=
  if (s.group gi).role.owns && decide (m < (s.group gi).w) && ((s.group gi).member m).st = .missing then
    s.modGroup gi fun g => g.modMember m fun x => { x with window := false, erasedSince := [] }
  else s

def execReturnWindowExpiry (g m : Nat) (s : State) : Host.Outcome State Fault Refusal := .next (returnWindowExpiry g m s)

end Sys2Proof.Machine
end

