-- ==== Sys2Proof/Machine/Counters.lean ====
section
/-! DEFINITION. The counters that STATS reads (R394). The spec gives no order to them and leaves those of ch. 5 without a
name: they stand here in the order of the chapters (DESIGN CHOICE, log 32). -/

namespace Sys2Proof.Machine

/-- A counter: its name, its instance kind (0 none, 1 group, 2 bay, 3 port × 8 + class, 4 port), its value for an instance. -/
structure Counter where
  name : String
  kind : Nat
  value : State → Nat → Nat

/-- Instances of a kind (R394). -/
def instances (kind : Nat) : Nat :=
  if kind = 1 then 6 else if kind = 2 then 24 else if kind = 3 then 96 else if kind = 4 then 12 else 1

def ofStage (name : String) (f : StageCtrs → Nat) : Counter := ⟨name, 0, fun s _ => f s.flash.ctrs⟩
def ofGroup (name : String) (f : GroupCtrs → Nat) : Counter := ⟨name, 1, fun s i => f (nth s.groups i).ctrs⟩
def ofBay (name : String) (f : Bay → Nat) : Counter := ⟨name, 2, fun s i => f (nth s.flash.bays i)⟩
def ofClass (name : String) (k : Nat) : Counter := ⟨name, 3, fun s i => nth (nth s.net.ports (i / 8)).ctrs (8 * k + i % 8)⟩
def ofPort (name : String) (k : Nat) : Counter := ⟨name, 4, fun s i => (((nth s.net.ports i).ctrs.drop (8 * k)).take 8).sum⟩
def ofScrim (name : String) (i : Nat) : Counter := ⟨name, 0, fun s _ => nth s.scrim.ctrs i⟩
def ofCiph (name : String) (f : CiphCtrs → Nat) : Counter := ⟨name, 0, fun s _ => f s.ciph.ctrs⟩
def ofMbx (name : String) (f : MbxState → Nat) : Counter := ⟨name, 0, fun s _ => f s.mbx⟩

def counters0 : List Counter :=
  [ ofStage "stage.late_data" StageCtrs.lateData, ofStage "stage.malformed" StageCtrs.malformed,
    ofStage "stage.late_abort" StageCtrs.lateAbort, ofStage "stage.xor_rescue" StageCtrs.xorRescue,
    ofStage "stage.tag_fail" StageCtrs.tagFail, ofStage "stage.wait_host" StageCtrs.waitHost,
    ofStage "stage.orphans" StageCtrs.orphans, ofStage "stage.peer_sent" StageCtrs.peerSent,
    ofStage "stage.peer_hit" StageCtrs.peerHit, ofStage "stage.peer_late" StageCtrs.peerLate,
    ofStage "stage.peer_bad" StageCtrs.peerBad, ofStage "hawk.hits" StageCtrs.hits, ofStage "hawk.misses" StageCtrs.misses,
    ofStage "hawk.installs" StageCtrs.installs, ofStage "hawk.installs_skipped" StageCtrs.skipped,
    ofStage "hawk.evictions" StageCtrs.evictions ]

def counters1 : List Counter :=
  [ ofGroup "ftl.host_units" GroupCtrs.hostUnits, ofGroup "ftl.programmed_units" GroupCtrs.programmed,
    ofGroup "ftl.relocated_units" GroupCtrs.relocated, ofGroup "ftl.blocks_retired" GroupCtrs.blocksRetired,
    ofGroup "turn.readaround" GroupCtrs.readaround, ofGroup "turn.ra_fallback" GroupCtrs.raFallback,
    ofGroup "turn.suspends_program" GroupCtrs.suspProg, ofGroup "turn.suspends_erase" GroupCtrs.suspErase,
    ofBay "turn.overruns" Bay.overruns, ofGroup "skim.stripes" GroupCtrs.skimStripes,
    ofGroup "skim.mismatch" GroupCtrs.skimMismatch, ofGroup "skim.repaired" GroupCtrs.skimRepaired,
    ofGroup "skim.parity_bad" GroupCtrs.skimParityBad, ofGroup "skim.lost" GroupCtrs.skimLost,
    ofGroup "skim.read_fail" GroupCtrs.skimReadFail, ofGroup "skim.tag_fail" GroupCtrs.skimTagFail,
    ofGroup "skim.refresh_blocks" GroupCtrs.skimRefresh, ofBay "baylnk.late_cpl" Bay.lateCpl,
    ofBay "baylnk.timeouts" Bay.timeouts, ofBay "baylnk.aborts" Bay.aborts, ofBay "baylnk.invalid" Bay.invalid,
    ofBay "baylnk.bad_read" Bay.badRead, ofBay "baylnk.bad_write" Bay.badWrite, ofBay "baylnk.fenced" Bay.fencedCnt ]

def counters2 : List Counter :=
  [ ofClass "net.rx_frames" Nc.rxFrames, ofClass "net.tx_frames" Nc.txFrames, ofPort "net.rx_unaccepted" Nc.rxUnaccepted,
    ofPort "net.fcs_err" Nc.fcsErr, ofClass "net.buf_drop" Nc.bufDrop, ofClass "net.pfc_overflow" Nc.pfcOverflow,
    ofClass "net.pfc_pause_rx" Nc.pauseRx, ofClass "net.police_yellow_drop" Nc.yellowDrop,
    ofClass "net.police_red_drop" Nc.redDrop, ofClass "net.ecn_marked" Nc.ecnMarked,
    ofClass "net.gate_overrun" Nc.gateOverrun, ofPort "net.cnp_rx" Nc.cnpRx, ofPort "net.mirror.lost" Nc.mirrorLost,
    ofScrim "scrim.addr_changes" 0, ofScrim "scrim.loops" 1, ofScrim "scrim.icv_fail" 2, ofScrim "scrim.no_route" 3,
    ofScrim "scrim.bad_type" 4, ofScrim "scrim.fault_evicted" 5, ofScrim "scrim.takeovers" 6, ofScrim "scrim.handovers" 7 ]

def counters3 : List Counter :=
  [ ofCiph "cipher.blocks" CiphCtrs.blocks, ofCiph "cipher.dummy.d0" (fun c => nth c.dummy 0),
    ofCiph "cipher.dummy.d1" (fun c => nth c.dummy 1), ofCiph "cipher.dummy.d2" (fun c => nth c.dummy 2),
    ofCiph "cipher.dummy.d3" (fun c => nth c.dummy 3), ofCiph "cipher.cache_hits" CiphCtrs.hits, ofCiph "cipher.cache_misses" CiphCtrs.misses,
    ofCiph "cipher.derivations" CiphCtrs.derivations, ofCiph "cipher.retired" CiphCtrs.retired,
    ofCiph "cipher.tag_fail" CiphCtrs.tagFail, ofCiph "cipher.keyx_fail" CiphCtrs.keyxFail,
    ofCiph "cipher.entropy_fail" CiphCtrs.entropyFail, ofCiph "cipher.q0.blocks" (fun c => nth c.queued 0),
    ofCiph "cipher.q1.blocks" (fun c => nth c.queued 1), ofCiph "cipher.q2.blocks" (fun c => nth c.queued 2),
    ofCiph "cipher.q3.blocks" (fun c => nth c.queued 3), ofMbx "mbx.area_drops" MbxState.areaDrops,
    ofMbx "mbx.auth_fail" MbxState.authFail, ofMbx "mbx.requests" MbxState.requests, ofMbx "mbx.jobs" MbxState.jobsRun ]

/-- Every counter. -/
def counters : List Counter := counters0 ++ counters1 ++ counters2 ++ counters3

end Sys2Proof.Machine
end

