-- ==== Sys2Proof/Machine/HostAdmin.lean ====
section
/-! DEFINITION. Host admin commands: Identify, Get Log Page, Abort, features, asynchronous events, directives (R77 to R80,
R93, R98, R102), and the capsule reserve (R63). Fields that the spec gives are laid over free bytes: the rest of a
published structure is open (log 28). -/

namespace Sys2Proof.Machine

/-- An admin command runs for its association on its admin queue: on another queue its opcode is not supported, and a fused
one is an invalid field (R77, R100). -/
def admin (c : Payload.Capsule) (f : Assoc → State → State) (s : State) : State :=
  withAssoc c (fun a s =>
    if c.qid ≠ 0 then reply c Sc.opcode true 0 0 s
    else if c.fuse ≠ 0 then reply c Sc.field true 0 0 s
    else f a s) s

/-- `n` free bytes with fields laid over them (log 28). -/
def layOver (s : State) (n : Nat) (fs : List (Nat × List Byte)) : List Byte :=
  fs.foldl (fun b f => b.take f.1 ++ f.2 ++ b.drop (f.1 + f.2.length)) (leBytes n s.freeNat)

/-! ### Identify (R65, R69, R77, R80) -/

/-- The granted namespaces of an association, in order of NSID. -/
def State.grantedNs (s : State) (a : Assoc) : List Ns :=
  (s.host.nss.filter fun n => s.granted a.nqn n.nsx && !n.deleting).mergeSort fun x y => decide (x.nsx ≤ y.nsx)

/-- Identify Namespace (R65). -/
def idNamespace (s : State) (n : Ns) : List Byte :=
  let per := leBytes 2 (16384 / n.lba - 1)
  layOver s 4096
    [ (0, leBytes 8 n.lbas), (8, leBytes 8 n.lbas), (24, leBytes 1 0x12), (25, [0]), (26, [0]), (27, leBytes 3 0), (30, [1]),
      (34, per), (36, per), (64, per), (66, per), (70, per), (72, per), (92, leBytes 4 (n.group + 1)),
      (99, leBytes 1 (flag (s.writeProtected n) 0)), (104, padTo 16 n.nguid),
      (128, leBytes 4 (field (if n.lba512 then 9 else 12) 16 8)) ]

/-- Identify Controller (R57, R59, R60, R66, R80). -/
def idController (s : State) (a : Assoc) : List Byte :=
  layOver s 4096
    [ (77, [9]), (78, leBytes 2 a.cntlid), (80, leBytes 4 0x00020000), (111, leBytes 1 (if a.discovery then 2 else 1)),
      (259, [15]), (262, [255]), (320, leBytes 2 1), (342, [10]), (343, leBytes 1 0x1D), (344, leBytes 4 6),
      (348, leBytes 4 6), (516, leBytes 4 1024), (520, leBytes 2 0x8C), (525, [1]), (531, [1]), (540, leBytes 4 1024),
      (768, padTo 256 (if a.discovery then discoveryNqn else s.subsystemNqn)), (1792, leBytes 4 68), (1796, leBytes 4 1),
      (1800, leBytes 2 0), (1802, leBytes 1 0), (1803, [1]) ]

/-- A list of NSIDs above one given, at most 1,024. -/
def idList (ns : List Ns) (above : Nat) : List Byte :=
  padTo 4096 ((((ns.map fun n => n.nsx + 1).filter fun i => decide (above < i)).take 1024).flatMap fun i => leBytes 4 i)

/-- Identification descriptors of a namespace: its NGUID and its command set. -/
def idDescriptors (n : Ns) : List Byte :=
  padTo 4096 ([2, 16, 0, 0] ++ padTo 16 n.nguid ++ [4, 1, 0, 0] ++ leBytes 1 (if n.zoned then 2 else 0))

/-- Zoned Identify Namespace: active and open resources, reads across zones, zone size (R69 to R71). -/
def idZoned (s : State) (n : Ns) : List Byte :=
  layOver s 4096
    [ (0, leBytes 2 0), (2, leBytes 2 1), (4, leBytes 4 (n.maxActive - 1)), (8, leBytes 4 (n.maxOpen - 1)),
      (2816, leBytes 8 (n.zoneUnits * 4)), (2824, [0]) ]

/-- NVME_IDENTIFY: CNS 00h to 03h, 05h to 08h, 1Ch; CSI 00h and 02h. -/
def nvmeIdentify (c : Payload.Capsule) (s : State) : State :=
  admin c (fun a s =>
    let cns := c.cdw10 % 256
    let csi := bits c.cdw11 24 8
    let withNs (f : Ns → State → State) (s : State) : State :=
      match s.hostNs a c.nsid with
      | some n => f n s
      | none => reply c Sc.badNs true 0 0 s
    let send (b : List Byte) (s : State) : State := replyData c b 0 s.drew
    let csOk := csi = 0 || csi = 2
    if cns = 0x00 then withNs (fun n s => send (idNamespace s n) s) s
    else if cns = 0x01 then send (idController s a) s
    else if cns = 0x02 then send (idList (s.grantedNs a) c.nsid) s
    else if cns = 0x03 then withNs (fun n s => send (idDescriptors n) s) s
    else if cns = 0x05 then
      withNs (fun n s =>
        if csi = 2 && n.zoned then send (idZoned s n) s
        else if csi = 0 then send (leBytes 4096 s.freeNat) s
        else reply c Sc.field true 0 0 s) s
    else if cns = 0x06 && csi = 0 then send (leBytes 4096 s.freeNat) s
    else if cns = 0x06 && csi = 2 then send (layOver s 4096 [(0, [9])]) s
    else if cns = 0x07 && csOk then send (idList ((s.grantedNs a).filter fun n => n.zoned == (csi == 2)) c.nsid) s
    else if cns = 0x08 then
      withNs (fun n s => send (layOver s 4096 [(1, [1]), (4, leBytes 4 (n.group + 1)),
        (8, leBytes 1 (flag (s.writeProtected n) 0)), (14, [1])]) s) s
    else if cns = 0x1C then send (padTo 4096 (leBytes 8 5)) s
    else reply c Sc.field true 0 0 s) s

def execNvmeIdentify (c : Payload.Capsule) (s : State) : Host.Outcome State Fault Refusal :=
  .next (arrive nvmeIdentify c s)

/-! ### Log pages (R58, R78, R96, R98, R99) -/

/-- An entry of the Error Information Log. -/
def errorBytes (e : ErrEntry) : List Byte :=
  padTo 64 (leBytes 8 e.count ++ leBytes 2 e.sqid ++ leBytes 2 e.cid ++ leBytes 2 (e.status * 2) ++ leBytes 2 0xFFFF ++
    leBytes 8 e.lba ++ leBytes 4 e.nsid ++ leBytes 4 0 ++ leBytes 8 e.info)

/-- Percentage Used: the highest wear among the owned groups, saturating (R175). -/
def State.percentUsed (s : State) : Nat := Nat.min 255 ((s.ownedGroups.map s.wearPct).foldl Nat.max 0)

/-- SMART / Health Information: the warning bit of R99, the wear (R175) and the counts; the rest is open. -/
def smartBytes (s : State) : List Byte :=
  layOver s 512
    [ (0, leBytes 1 (flag s.host.warnSpent 3)), (5, leBytes 1 s.percentUsed), (32, leBytes 16 (ceilDiv s.host.readBytes 512000)),
      (48, leBytes 16 (ceilDiv s.host.writeBytes 512000)), (64, leBytes 16 s.host.readCmds),
      (80, leBytes 16 s.host.writeCmds), (176, leBytes 16 s.host.errCount) ]

/-- Commands supported and effects: admin opcodes from byte 0, I/O opcodes from byte 1,024. -/
def effectBytes : List Byte :=
  let admin := [0x02, 0x06, 0x08, 0x09, 0x0A, 0x0C, 0x18, 0x19, 0x1A, 0x7F]
  let reads := [0x00, 0x02, 0x0C, 0x7A, 0x85, 0x86]
  let writes := [0x01, 0x08, 0x09, 0x79, 0x7D]
  (List.range 256).flatMap (fun o => leBytes 4 (if admin.contains o then 1 else 0)) ++
    (List.range 256).flatMap (fun o => leBytes 4 (if reads.contains o then 1 else if writes.contains o then 3 else 0)) ++
    List.replicate 2048 0

/-- The ANA log: the groups of granted namespaces, with their namespaces unless only groups are asked for (R66). -/
def anaBytes (s : State) (a : Assoc) (groupsOnly : Bool) : List Byte :=
  let ns := s.grantedNs a
  let gs := (List.range 6).filter fun g => ns.any fun n => n.group == g
  let one (g : Nat) : List Byte :=
    let mine := if groupsOnly then [] else ns.filter fun n => n.group == g
    leBytes 4 (g + 1) ++ leBytes 4 mine.length ++ leBytes 8 s.host.anaCount ++ leBytes 1 (s.anaState g) ++ leBytes 15 0 ++
      mine.flatMap fun n => leBytes 4 (n.nsx + 1)
  leBytes 8 s.host.anaCount ++ leBytes 2 gs.length ++ leBytes 6 0 ++ gs.flatMap one

/-- The Changed Zone List of a namespace. -/
def changedZoneBytes (a : Assoc) (n : Ns) : List Byte :=
  let zs := (a.changedZones.filter fun z => z.1 == n.nsx).map Prod.snd
  if 511 < zs.length then padTo 4096 (leBytes 2 0xFFFF)
  else padTo 4096 (leBytes 2 zs.length ++ leBytes 6 0 ++ zs.flatMap fun z => leBytes 8 (z * n.zoneUnits * 4))

/-- A decimal number in ASCII. -/
def decimal (n : Nat) : List Byte := (Nat.toDigits 10 n).map fun d => BitVec.ofNat 8 d.toNat

/-- A discovery entry: transport (1 RDMA, 3 TCP), address family, port, service and address (R58). -/
def discoveryEntry (s : State) (p sub tr fam : Nat) (x : SubPort) : List Byte :=
  let svc := if tr = 3 then s.paramN 0x200A else s.paramN 0x200C
  let text := if fam = 1 then ((List.range 4).map fun i => decimal (bits x.ipv4 (8 * i) 8)).intersperse [46] |>.flatten
    else ((List.range 8).map fun i => hexDigits 4 (beNat (slice x.ipv6 (2 * i) 2))).intersperse [58] |>.flatten
  layOver s 1024
    [ (0, leBytes 1 tr), (1, leBytes 1 fam), (2, [2]), (4, leBytes 2 (p * 4 + sub)), (6, leBytes 2 0xFFFF), (8, leBytes 2 32),
      (32, padTo 32 (decimal svc)), (256, padTo 256 s.subsystemNqn), (512, padTo 256 text) ]

/-- This controller's entries: each transport and address of each sub-port of an enabled host port. -/
def discoveryEntries (s : State) : List (List Byte) :=
  (List.range 8).flatMap fun p =>
    if !(s.netPort p).enable then []
    else (List.range (subsOfMode (s.netPort p).mode)).flatMap fun i =>
      let x := s.subPort p i
      let fams := (if x.prefix4 ≠ 0 then [1] else []) ++ (if x.prefix6 ≠ 0 then [2] else [])
      fams.flatMap fun f => [discoveryEntry s p i 1 f x, discoveryEntry s p i 3 f x]

/-- The Discovery Log Page (R58). How a controller learns the other's entries is open: those are free, and the same at every read until
the other controller is found again (log 29). -/
def discoveryBytes (s : State) : List Byte :=
  let mine := discoveryEntries s
  let (other, theirs) := match s.host.partnerDisc with
    | some i => (Config.freeNat i % 129, leBytes (1024 * (Config.freeNat i % 129)) (Config.freeNat (i + 1)))
    | none => (0, [])
  padTo 1024 (leBytes 8 s.host.discGen ++ leBytes 8 (mine.length + other) ++ leBytes 2 0) ++ mine.flatten ++ theirs

/-- The ranges of lost units of a namespace, as (first unit, units, cause), in increasing order (R98). -/
def State.lostRanges (s : State) (n : Ns) : List (Nat × Nat × Nat) :=
  let g := s.group n.group
  let units := (g.owners.filter fun o => o.nsx == n.nsx && g.isLost o.gua && s.mapNames n.group o).map fun o =>
    (o.unit, g.lostCause o.gua)
  let sorted := units.mergeSort fun a b => decide (a.1 ≤ b.1)
  (sorted.foldl (fun (acc : List (Nat × Nat × Nat)) u => match acc with
    | (f, k, c) :: rest => if f + k = u.1 && c = u.2 then (f, k + 1, c) :: rest else (u.1, 1, u.2) :: acc
    | [] => [(u.1, 1, u.2)]) []).reverse

/-- Log C0h: header and 16-byte entries (R98). -/
def lostPage (s : State) (n : Ns) : List Byte :=
  let per := 16384 / n.lba
  let rs := s.lostRanges n
  leBytes 4 rs.length ++ leBytes 4 (s.group n.group).lostGen ++
    rs.flatMap fun r => leBytes 8 (r.1 * per) ++ leBytes 4 (r.2.1 * per) ++ leBytes 2 r.2.2 ++ leBytes 2 0

/-- Log C0h is read for a namespace: with none left to read, the Lost Extents Added notice is cleared (R103). -/
def lostRead (a nsx : Nat) (s : State) : State :=
  s.modAssoc a fun a =>
    let left := a.lostLeft.filter (· != nsx)
    { a with lostLeft := left, notices := if left = [] then a.notices.filter fun n => !(n.1 == 7 && n.2.1 == 0) else a.notices }

/-- A page's bytes from an offset, as many as were asked for. -/
def logSlice (c : Payload.Capsule) (page : List Byte) : List Byte :=
  let len := (bits c.cdw10 16 16 + (c.cdw11 % 65536) * 65536 + 1) * 4
  let off := c.cdw12 + c.cdw13 * 2 ^ 32
  padTo len (slice page off len)

/-- GET_LOG_PAGE (R78). Reading a changed list clears it unless RAE is set (NVMe). -/
def getLogPage (c : Payload.Capsule) (s : State) : State :=
  admin c (fun a s =>
    let lid := c.cdw10 % 256
    let rae := bit c.cdw10 15
    let send (page : List Byte) (s : State) : State := replyData c (logSlice c page) 0 s
    let withNs (f : Ns → State → State) (s : State) : State :=
      match s.hostNs a c.nsid with
      | some n => f n s
      | none => reply c Sc.badNs true 0 0 s
    if lid = 0x01 then send (s.host.errors.flatMap errorBytes) s
    else if lid = 0x02 then
      if c.nsid ≠ 0 && c.nsid ≠ 0xFFFFFFFF then reply c Sc.field true 0 0 s else send (smartBytes s) s.drew
    else if lid = 0x04 then
      let page := padTo 4096 (if 1024 < a.changedNs.length then leBytes 4 0xFFFFFFFF
        else (a.changedNs.mergeSort (· ≤ ·)).flatMap fun n => leBytes 4 (n + 1))
      send page (if rae then s else s.modAssoc a.num fun a => { a with changedNs := [] })
    else if lid = 0x05 then send effectBytes s
    else if lid = 0x0C then send (anaBytes s a (bit c.cdw10 8)) s
    else if lid = 0xBF then
      withNs (fun n s =>
        if !n.zoned then reply c Sc.field true 0 0 s
        else send (changedZoneBytes a n) (if rae then s
          else s.modAssoc a.num fun a => { a with changedZones := a.changedZones.filter fun z => z.1 != n.nsx })) s
    else if lid = 0x70 && a.discovery then send (discoveryBytes s) s.drew
    else if lid = 0xC0 then withNs (fun n s => send (lostPage s n) (if rae then s else lostRead a.num n.nsx s)) s
    else reply c Sc.logPage true 0 0 s) s

def execGetLogPage (c : Payload.Capsule) (s : State) : Host.Outcome State Fault Refusal := .next (arrive getLogPage c s)

/-! ### Abort (R79) -/

/-- A command may be aborted: a Paced Read, or one that has neither dispatched a flash operation nor sent a byte (R79). What a write has
put into staging stays there, as a write that has no completion may (log 30). -/
def Cmd.abortable (x : Cmd) : Bool := x.kind == .paced || !x.begun

/-- The next paced read of a session goes on. -/
def nextPaced (sess : Nat) (s : State) : State :=
  match (s.host.cmds.filter fun x => x.paced && x.sess == sess).head? with
  | some z => runRead z.num s
  | none => s

/-- NVME_ABORT: the command named by SQID and CID completes with Command Abort Requested inside its window; else DW0 bit 0
says that it was not aborted. -/
def nvmeAbort (c : Payload.Capsule) (s : State) : State :=
  admin c (fun a s =>
    let sqid := c.cdw10 % 65536
    let cid := bits c.cdw10 16 16
    if sqid = 0 && a.aers.contains cid then
      let s1 := s.modAssoc a.num fun a => { a with aers := a.aers.erase cid }
      reply c Sc.ok false 0 0 (answerAdmin a.num cid Sc.aborted false 0 0 s1)
    else match s.sessAt c.cntlid sqid with
      | none => reply c Sc.ok false 1 0 s
      | some q =>
        match s.host.cmds.find? fun x => x.sess == q.num && x.cid == cid && !x.silent with
        | none => reply c Sc.ok false 1 0 s
        | some x =>
          if x.abortable then
            let s1 := failCmd x.num Sc.aborted false 0 s
            reply c Sc.ok false 0 0 (if x.paced then nextPaced q.num s1 else s1)
          else reply c Sc.ok false 1 0 s) s

def execNvmeAbort (c : Payload.Capsule) (s : State) : Host.Outcome State Fault Refusal := .next (arrive nvmeAbort c s)

/-! ### Features (R60, R67, R80, R93) -/

/-- Set Features C1h is in range (R93). -/
def policyOk (c : Payload.Capsule) : Bool :=
  let d := c.cdw12
  let b := c.cdw14
  c.cdw11 < 2 ^ 17 && (d = 0 || (20 ≤ d && d ≤ 10000)) && c.cdw13 ≤ 400000 && 16 ≤ b && b ≤ 16384

/-- A session takes a policy: a new rate applies to bytes not yet sent (R92). -/
def putPolicy (p : Policy) (s : State) (q : Session) : State :=
  s.modSess q.num fun q => { q with policy := p, bucket := Nat.min (p.burst * 1024) (s.bucketNow q), bucketAt := s.clock }

/-- Set Features C1h: one session, or with SQID FFFFh all of the association's, present and future (R93). -/
def setPolicy (c : Payload.Capsule) (a : Assoc) (s : State) : State :=
  let sqid := c.cdw11 % 65536
  let p : Policy := { ra := bit c.cdw11 16, deadline := c.cdw12, rate := c.cdw13, burst := c.cdw14 }
  let qs := s.host.sessions.filter fun q => q.assoc == a.num && (sqid == 0xFFFF || q.qid == sqid)
  if !policyOk c || sqid = 0 || (sqid ≠ 0xFFFF && qs = []) then reply c Sc.field true 0 0 s
  else if p.rate = 0 && qs.any fun q => decide (0 < s.pacedLeft q.num) then reply c Sc.sequence true 0 0 s
  else
    let s1 := qs.foldl (putPolicy (s.fixPolicy p)) s
    reply c Sc.ok false 0 0 (if sqid = 0xFFFF then s1.modAssoc a.num fun a => { a with policy := some p } else s1)

/-- Set Features 84h: no protection, or Write Protect (R67). -/
def setProtect (c : Payload.Capsule) (a : Assoc) (s : State) : State :=
  match s.hostNs a c.nsid with
  | none => reply c Sc.badNs true 0 0 s
  | some n =>
    let v := c.cdw11 % 8
    match s.anaRefusal n.group false with
    | some st => reply c st false 0 0 s
    | none =>
      if 1 < v then reply c Sc.field true 0 0 s
      else if v = 0 && (s.group n.group).space = .spent then reply c Sc.groupSpent true 0 0 s
      else
        let s1 := mirrorNs n.nsx false (s.modNs n.nsx fun n => { n with protect := v == 1 })
        reply c Sc.ok false 0 0 (if n.protect = (v == 1) then s1 else nsChanged [n.nsx] s1)

/-- SET_FEATURES: 07h, 0Bh, 0Fh, 84h and C1h; none is saveable (R80). -/
def setFeatures (c : Payload.Capsule) (s : State) : State :=
  admin c (fun a s =>
    let fid := c.cdw10 % 256
    if bit c.cdw10 31 then reply c Sc.notSaveable true 0 0 s
    else if fid = 0x07 then
      let nsq := c.cdw11 % 65536
      let ncq := bits c.cdw11 16 16
      if nsq = 0xFFFF || ncq = 0xFFFF then reply c Sc.field true 0 0 s
      else if s.host.sessions.any fun q => q.assoc == a.num then reply c Sc.sequence true 0 0 s
      else
        let n := Nat.min (Nat.min nsq ncq) (s.paramN 0x2001 - 1)
        reply c Sc.ok false (n + n * 65536) 0 (s.modAssoc a.num fun a => { a with queues := n })
    else if fid = 0x0B then reply c Sc.ok false 0 0 (s.modAssoc a.num fun a => { a with aec := c.cdw11 })
    else if fid = 0x0F then
      if katoOk c.cdw11 then reply c Sc.ok false 0 0 (s.modAssoc a.num fun a => { a with kato := katoOf c.cdw11 })
      else reply c Sc.field true 0 0 s
    else if fid = 0x84 then setProtect c a s
    else if fid = 0xC1 then setPolicy c a s
    else reply c Sc.field true 0 0 s) s

def execSetFeatures (c : Payload.Capsule) (s : State) : Host.Outcome State Fault Refusal := .next (arrive setFeatures c s)

/-- GET_FEATURES: the current value (R80, R93). -/
def getFeatures (c : Payload.Capsule) (s : State) : State :=
  admin c (fun a s =>
    let fid := c.cdw10 % 256
    if fid = 0x07 then reply c Sc.ok false (a.queues + a.queues * 65536) 0 s
    else if fid = 0x0B then reply c Sc.ok false a.aec 0 s
    else if fid = 0x0F then reply c Sc.ok false a.kato 0 s
    else if fid = 0x84 then
      match s.hostNs a c.nsid with
      | some n => reply c Sc.ok false (flag (s.writeProtected n) 0) 0 s
      | none => reply c Sc.badNs true 0 0 s
    else if fid = 0xC1 then
      match s.sessAt c.cntlid (c.cdw11 % 65536) with
      | some q =>
        let d := q.policy.deadline
        let data := leBytes 2 d ++ leBytes 1 (flag q.policy.ra 0) ++ [0] ++ leBytes 4 q.policy.rate ++ leBytes 2 q.policy.burst ++
          leBytes 6 0
        replyData c data (d + flag q.policy.ra 16) s
      | none => reply c Sc.field true 0 0 s
    else reply c Sc.field true 0 0 s) s

def execGetFeatures (c : Payload.Capsule) (s : State) : Host.Outcome State Fault Refusal := .next (arrive getFeatures c s)

/-! ### Events, keep alive, directives -/

/-- ASYNC_EVENT_REQUEST: a held notice completes it at once; at most 16 wait (R60, R102). -/
def asyncEventRequest (c : Payload.Capsule) (s : State) : State :=
  admin c (fun a s =>
    match a.notices with
    | n :: rest =>
      reply c Sc.ok false (n.1 + n.2.1 * 256 + n.2.2 * 65536) 0 (s.modAssoc a.num fun a => { a with notices := rest })
    | [] =>
      if 16 ≤ a.aers.length then reply c Sc.field true 0 0 s
      else s.modAssoc a.num fun a => { a with aers := a.aers ++ [c.cid] }) s

def execAsyncEventRequest (c : Payload.Capsule) (s : State) : Host.Outcome State Fault Refusal :=
  .next (arrive asyncEventRequest c s)

/-- KEEP_ALIVE: its arrival has restarted the timer (R64). -/
def keepAlive (c : Payload.Capsule) (s : State) : State := admin c (fun _ s => reply c Sc.ok false 0 0 s) s

def execKeepAlive (c : Payload.Capsule) (s : State) : Host.Outcome State Fault Refusal := .next (arrive keepAlive c s)

/-- DIRECTIVE_SEND: Enable Directive of the Identify directive for Streams; Release Identifier and Release Resources of
Streams (NVMe, R77). -/
def directiveSend (c : Payload.Capsule) (s : State) : State :=
  admin c (fun a s =>
    let oper := c.cdw11 % 256
    let dt := bits c.cdw11 8 8
    match s.hostNs a c.nsid with
    | none => reply c Sc.badNs true 0 0 s
    | some n =>
      if dt = 0 && oper = 1 then
        if bits c.cdw12 8 8 ≠ 1 then reply c Sc.field true 0 0 s
        else
          let rest := a.streams.filter (· != n.nsx)
          reply c Sc.ok false 0 0 (s.modAssoc a.num fun a =>
            { a with streams := if bit c.cdw12 0 then n.nsx :: rest else rest })
      else if dt = 1 && (oper = 1 || oper = 2) then reply c Sc.ok false 0 0 s
      else reply c Sc.field true 0 0 s) s

def execDirectiveSend (c : Payload.Capsule) (s : State) : Host.Outcome State Fault Refusal := .next (arrive directiveSend c s)

/-- DIRECTIVE_RECEIVE: Return Parameters of the Identify directive; Return Parameters, Get Status and Allocate Resources of
Streams, whose values the spec leaves open (NVMe, R77, log 28). -/
def directiveReceive (c : Payload.Capsule) (s : State) : State :=
  admin c (fun a s =>
    let oper := c.cdw11 % 256
    let dt := bits c.cdw11 8 8
    let len := (c.cdw10 + 1) * 4
    match s.hostNs a c.nsid with
    | none => reply c Sc.badNs true 0 0 s
    | some n =>
      if dt = 0 && oper = 1 then
        let on := if a.streams.contains n.nsx then 3 else 1
        replyData c (padTo (Nat.min len 4096) (leBytes 32 3 ++ leBytes 32 on)) 0 s
      else if dt = 1 && (oper = 1 || oper = 2) then replyData c (leBytes (Nat.min len 131074) s.freeNat) 0 s.drew
      else if dt = 1 && oper = 3 then reply c Sc.ok false (s.freeNat % 65536) 0 s.drew
      else reply c Sc.field true 0 0 s) s

def execDirectiveReceive (c : Payload.Capsule) (s : State) : Host.Outcome State Fault Refusal :=
  .next (arrive directiveReceive c s)

/-- UNSUPPORTED_COMMAND: any other opcode (R77, R81). -/
def unsupportedCommand (c : Payload.Capsule) (s : State) : State := reply c Sc.opcode true 0 0 s

def execUnsupportedCommand (c : Payload.Capsule) (s : State) : Host.Outcome State Fault Refusal :=
  .next (arrive unsupportedCommand c s)

/-! ### The capsule reserve (R63) -/

/-- A capsule of an admin queue by its opcode; a Fabrics command by its type, in byte 4 of the capsule. -/
def runAdmin (c : Payload.Capsule) (s : State) : State :=
  if c.opc = 0x7F then
    let t := c.nsid % 256
    if t = 0x00 then propertySet c s
    else if t = 0x04 then propertyGet c s
    else if t = 0x08 then disconnect c s
    else unsupportedCommand c s
  else if c.opc = 0x02 then getLogPage c s
  else if c.opc = 0x06 then nvmeIdentify c s
  else if c.opc = 0x08 then nvmeAbort c s
  else if c.opc = 0x09 then setFeatures c s
  else if c.opc = 0x0A then getFeatures c s
  else if c.opc = 0x0C then asyncEventRequest c s
  else if c.opc = 0x18 then keepAlive c s
  else if c.opc = 0x19 then directiveSend c s
  else if c.opc = 0x1A then directiveReceive c s
  else unsupportedCommand c s

/-- A capsule of an I/O queue by its opcode (R81). -/
def runIo (c : Payload.Capsule) (s : State) : State :=
  if c.opc = 0x00 then nvmeFlush c s
  else if c.opc = 0x01 then nvmeWrite c s
  else if c.opc = 0x02 then nvmeRead c s
  else if c.opc = 0x08 then writeZeroes c s
  else if c.opc = 0x09 then datasetManagement c s
  else if c.opc = 0x0C then nvmeVerify c s
  else if c.opc = 0x79 then zoneMgmtSend c s
  else if c.opc = 0x7A then zoneMgmtReceive c s
  else if c.opc = 0x7D then zoneAppend c s
  else if c.opc = 0x7F && c.nsid % 256 = 0x08 then disconnect c s
  else if c.opc = 0x85 then gatheredRead c s
  else if c.opc = 0x86 then pacedRead c s
  else unsupportedCommand c s

/-- CAPSULE_RESERVE_ADMIT: a context has become free, and the oldest held capsule is decoded. -/
def capsuleReserveAdmit (s : State) : State :=
  match s.host.held with
  | [] => s
  | h :: rest =>
    if 65536 ≤ s.contexts || s.flush.active then s
    else
      let s1 := advance h.cap (s.modHost fun x => { x with held := rest })
      if h.cap.qid = 0 then runAdmin h.cap s1 else runIo h.cap s1

def execCapsuleReserveAdmit (s : State) : Host.Outcome State Fault Refusal := .next (capsuleReserveAdmit s)

end Sys2Proof.Machine
end

