-- ==== Sys2Proof/Machine/KeyOps.lean ====
section
/-! DEFINITION. Faults of Keying and of the entropy source, TLS records, and the Keying commands (R348, R351, R356 to R359, R362,
R367, R394). -/

namespace Sys2Proof.Machine

/-! ### Faults (R348, R367) -/

/-- ROOT_KEY_FAULT: Keying stops deriving, and the controller enters CONTAINED with cause 1. -/
def rootKeyFault (s : State) : State :=
  let s1 := s.modFuse fun f => { f with rootSt := .uncorrectable }
  if !s.ddUp then s1
  else
    let s2 := s1.modCiph fun c => { c with rootOk := false, keying := false, evt := setBit c.evt 0 }
    enterContained 1 (raise Code.evCiphRootFault Kind.none 0 [] s2)

def execRootKeyFault (s : State) : Host.Outcome State Fault Refusal := .next (rootKeyFault s)

/-- ENTROPY_FAIL. -/
def entropyFail (s : State) : State :=
  if !s.ddUp then s
  else raise Code.evCiphEntropyFail Kind.none 0 [] (s.modCiph fun c =>
    { c with entropyOk := false, evt := setBit c.evt 1, ctrs := { c.ctrs with entropyFail := c.ctrs.entropyFail + 1 } })

def execEntropyFail (s : State) : Host.Outcome State Fault Refusal := .next (entropyFail s)

/-- ENTROPY_RECOVER: the DRBG reseeds. -/
def entropyRecover (s : State) : State := if s.ddUp then s.modCiph fun c => { c with entropyOk := true, drbg := 0 } else s

def execEntropyRecover (s : State) : Host.Outcome State Fault Refusal := .next (entropyRecover s)

/-! ### TLS (R358) -/

/-- TLS_RECORD_RX: the record's mask takes the PAD key (R356), and the record takes the next receive sequence number; its length, up to
16,384 bytes, is not part of the command, so its blocks on Q2 are free (R363; log 3). One whose tag fails is dropped; bad_record_mac goes
out, and the session is torn down (R94). -/
def tlsRecordRx (cntlid qid : Nat) (tagOk : Bool) (s : State) : State :=
  match s.tlsKey cntlid qid with
  | none => s
  | some k =>
    if !s.ciph.recs.any fun r => r.sess == k then s
    else if tagOk then
      (cipherWork 2 (3 + s.freeNat % 1024) (useKey 3072 s.drew)).modCiph fun c => { c with recs := updWhere (fun r => r.sess == k) (fun r => { r with rxSeq := r.rxSeq + 1 }) c.recs }
    else
      let s1 := ((useKey 3072 s).modCiph fun c => { c with ctrs := { c.ctrs with tagFail := c.ctrs.tagFail + 1 } }).emit (.tlsAlert cntlid qid)
      transportError cntlid qid s1

def execTlsRecordRx (cntlid qid : Nat) (tagOk : Bool) (s : State) : Host.Outcome State Fault Refusal :=
  .next (tlsRecordRx cntlid qid tagOk s)

/-- TLS_KEY_UPDATE: a new masked key and IV for one direction, from the key schedule (free, log 3); its sequence number starts
again at zero. -/
def tlsKeyUpdate (cntlid qid : Nat) (tx : Bool) (s : State) : State :=
  match s.tlsKey cntlid qid with
  | none => s
  | some k =>
    let key := Config.freeNat s.free % 2 ^ 256
    let iv := Config.freeNat (s.free + 1) % 2 ^ 96
    let upd (r : TlsRec) : TlsRec :=
      if tx then { r with txKey := key, txIv := iv, txSeq := 0 } else { r with rxKey := key, rxIv := iv, rxSeq := 0 }
    (useKey 3072 { s with free := s.free + 2 }).modCiph fun c => { c with recs := updWhere (fun r => r.sess == k) upd c.recs }

def execTlsKeyUpdate (cntlid qid : Nat) (tx : Bool) (s : State) : Host.Outcome State Fault Refusal :=
  .next (tlsKeyUpdate cntlid qid tx s)

/-! ### Labels (R349 to R351) -/

/-- LABEL_WRITE: NS_XTS, NS_GMAC and TLS_PSK labels. No command writes the labels that the controller writes itself, and a GEN
that does not rise is refused (R351). The Hawk entries of a namespace whose slot changes go (R23), and its labels are mirrored to the
partner (R351). -/
def labelWrite (body : List Byte) (s : State) : Answer × State :=
  let slot := leAt body 0 2
  let l := slice body 4 32
  if 3072 ≤ slot || bits (leAt l 1 1) 1 7 != 0 then (.st Code.stBadField, s)
  else if labelValid l && decide (labelGen l ≤ labelGen (s.label slot)) then (.st Code.stBadField, s)
  else
    let s1 := setLabel slot l (if slot < 2048 then purgeHawk (fun n _ => n == slot % 1024) s else s)
    (.ok, if slot < 2048 then mirrorNs (slot % 1024) false s1 else s1)

def execLabelWrite (chan : Nat) (s : State) : Host.Outcome State Fault Refusal := .next (serve chan 0x0601 labelWrite s)

/-- LABEL_READ. -/
def labelRead (body : List Byte) (s : State) : Answer :=
  let slot := leAt body 0 2
  if slot < 4096 then .ok (s.label slot) else .st Code.stRange

def execLabelRead (chan : Nat) (s : State) : Host.Outcome State Fault Refusal := .next (serveRead chan 0x0602 labelRead s)

/-! ### Crypto-erase (R362) -/

/-- GEN_ADVANCE, step 1: the namespace is marked retiring, and the job begins. -/
def genAdvance (body : List Byte) (s : State) : Answer × State :=
  let nsx := leAt body 0 2
  let gen := leAt body 4 4
  match s.ns? nsx with
  | none => (.st Code.stNotFound, s)
  | some n =>
    if !(s.role n.group).owns then (.st Code.stNotOwner, s)
    else if !n.encrypted then (.st Code.stBadField, s)
    else if gen ≤ labelGen (s.label nsx) then (.st Code.stBadField, s)
    else if n.genRetired || n.deleting then (.st Code.stBusy, s)
    else startJob 0x0603 nsx gen Code.stOk (fun _ s => s.modNs nsx fun n => { n with genRetired := true }) [] s

def execGenAdvance (chan : Nat) (s : State) : Host.Outcome State Fault Refusal := .next (serve chan 0x0603 genAdvance s)

/-- Everything of a namespace is unmapped, with DEALLOC or ZONE records (R81, R362, R394). -/
def eraseNs (n : Ns) (s : State) : State :=
  if n.zoned then
    n.zones.foldl (fun s z => dropZone n.nsx z.num (journal n.group 0x0C (bodyZone n.nsx z.num 1) s)) s
  else unmapUnits n.nsx 0 (ceilDiv n.size 16384) s

/-- GEN_ADVANCE, steps 2 to 5: Hawk purged, everything unmapped, both labels with the new GEN in one step, the event. Commands decoded
before go on; a request of theirs that still carries the old GEN then fails with RETIRED (R68, R361, R362). -/
def genRetire (nsx gen : Nat) (s : State) : State :=
  match s.ns? nsx with
  | none => s
  | some n =>
    let s1 := eraseNs n (purgeHawk (fun k _ => k == nsx) s)
    let uid := (s.group n.group).uid
    let s2 := setLabel (1024 + nsx) (mkLabel 2 1 nsx gen uid n.nguid) (setLabel nsx (mkLabel 1 1 nsx gen uid n.nguid) s1)
    raise Code.evCiphGenRetired Kind.ns (nsx + 1) [] (mirrorNs nsx false (s2.modNs nsx fun n => { n with genRetired := false }))

/-! ### PSK_EXPORT (R359) -/

/-- Base64 of a byte string. -/
def base64Char (v : Nat) : Nat :=
  if v < 26 then 65 + v else if v < 52 then 71 + v else if v < 62 then v - 4 else if v = 62 then 43 else 47
def base64Group (b : List Byte) : List Byte :=
  let v := (beNat (padTo 3 b))
  let c (i : Nat) : Byte := BitVec.ofNat 8 (base64Char (bits v (18 - 6 * i) 6))
  if b.length = 3 then [c 0, c 1, c 2, c 3] else if b.length = 2 then [c 0, c 1, c 2, 61] else [c 0, c 1, 61, 61]
def base64 (b : List Byte) : List Byte :=
  ((List.range (ceilDiv b.length 3)).map fun i => base64Group (slice b (3 * i) (Nat.min 3 (b.length - 3 * i)))).flatten

/-- The NVMe/TCP PSK interchange format, hash identifier 02: the key and its CRC-32 in Base64 (NVMe/TCP; PRESUMED, log 26). -/
def pskString (key : List Byte) : List Byte :=
  asciiBytes "NVMeTLSkey-1:02:" ++ base64 (key ++ leBytes 4 (crc32 key)) ++ asciiBytes ":"

/-- PSK_EXPORT. -/
def pskExport (chan : Nat) (body : List Byte) (s : State) : Answer × State :=
  let g := leAt body 0 2
  if s.paramN 0x8007 = 0 then (.st Code.stLocked, s)
  else if !s.host.grants.any fun x => x.num == g then (.st Code.stNotFound, s)
  else match s.workingKey (2048 + g) 3 with
    | none => (.st Code.stInternal, bbx 1 Code.fcInternal Kind.chan chan [s.freeNat % 2 ^ 32] s.drew)
    | some k =>
      let str := pskString (Aes.toBytes k)
      (.ok (leBytes 2 str.length ++ str), raise Code.evCiphPskExported Kind.chan chan [g, chan] (useKey (2048 + g) s))

def execPskExport (chan : Nat) (s : State) : Host.Outcome State Fault Refusal := .next (serve chan 0x0604 (pskExport chan) s)

end Sys2Proof.Machine
end

