-- ==== Sys2Proof/Machine/SysCmds.lean ====
section
/-! DEFINITION. The System commands of the mailbox (R394), and the event commands (R396). -/

namespace Sys2Proof.Machine

/-- The value at a byte of a body. -/
def byteAt (b : List Byte) (i : Nat) : Nat := leAt b i 1

/-! ### IDENTIFY, STATS, STATS_DESCRIBE -/

/-- IDENTIFY's answer; `fw` false: the firmware fields read 0 (R382). -/
def identifyBody (fw : Bool) (s : State) : List Byte :=
  leBytes 2 0x2400 ++ leBytes 1 0xB0 ++ leBytes 1 (flag s.sys.slotB 0) ++ leBytes 8 s.fuse.deviceId ++
    (if fw then [3, 2, 0] else [0, 0, 0]) ++ leBytes 1 0 ++ leBytes 2 (if fw then 0x0201 else 0) ++
    leBytes 1 s.mode.mode.ctorIdx ++ leBytes 1 s.fuse.lifecycle ++ leBytes 4 s.bbx.ddResets

def execIdentify (chan : Nat) (s : State) : Host.Outcome State Fault Refusal :=
  .next (serveRead chan 0x0101 (fun _ s => .ok (identifyBody true s)) s)

/-- STATS: the counters from FIRST that exist; an INSTANCE that one of them does not have is out of range (log 32). -/
def stats (b : List Byte) (s : State) : Answer :=
  let first := leAt b 0 2
  let count := leAt b 2 2
  let inst := leAt b 4 2
  let got := (counters.drop first).take count
  if count = 0 || 500 < count || got.isEmpty || got.any (fun c => c.kind != 0 && instances c.kind ≤ inst) then
    .st Code.stRange
  else .ok (leBytes 2 got.length ++ leBytes 6 0 ++ (got.map fun c => leBytes 8 (c.value s inst)).flatten)

def execStats (chan : Nat) (s : State) : Host.Outcome State Fault Refusal := .next (serveRead chan 0x0102 stats s)

/-- STATS_DESCRIBE. -/
def statsDescribe (b : List Byte) (_ : State) : Answer :=
  let first := leAt b 0 2
  let count := leAt b 2 2
  let got := (counters.drop first).take count
  if count = 0 || 63 < count || got.isEmpty then .st Code.stRange
  else .ok (leBytes 2 counters.length ++ leBytes 6 0 ++
    (got.map fun c => padTo 48 (asciiBytes c.name) ++ padTo 16 (leBytes 1 c.kind)).flatten)

def execStatsDescribe (chan : Nat) (s : State) : Host.Outcome State Fault Refusal :=
  .next (serveRead chan 0x0103 statsDescribe s)

/-! ### NET_ADDR, MIRROR_READ -/

/-- NET_ADDR: the addresses of a host sub-port (R279). -/
def netAddr (b : List Byte) (s : State) : Answer × State :=
  let p := byteAt b 0
  let i := byteAt b 1
  if 7 < p || 3 < i || 32 < byteAt b 10 || 128 < byteAt b 11 then (.st Code.stRange, s)
  else if bits (leAt b 8 2) 12 3 ≠ 0 then (.st Code.stBadField, s)
  else if s.host.sessions.any (fun q => q.port == p && q.sub == i) then (.st Code.stBusy, s)
  else
    let s1 := s.modSub p i fun x =>
      { x with mac := leAt b 2 6, vlan := leAt b 8 2, prefix4 := byteAt b 10, prefix6 := byteAt b 11, ipv4 := leAt b 12 4,
               ipv6 := slice b 16 16 }
    (.ok, discoveryChanged s1)

def execNetAddr (chan : Nat) (s : State) : Host.Outcome State Fault Refusal := .next (serve chan 0x0104 netAddr s)

/-- MIRROR_READ: COUNT records from an index; NET_MIRROR_CONS stays (R294). -/
def mirrorRead (b : List Byte) (s : State) : Answer :=
  let first := leAt b 0 4
  let count := leAt b 4 2
  let rec' (i : Nat) : List Byte := (List.range 160).map fun k => s.mirrorByte ((first + i) % s.paramN 0x607E * 160 + k)
  if count = 0 || 25 < count then .st Code.stRange
  else .ok (leBytes 4 s.net.prod ++ leBytes 4 0 ++ ((List.range count).map rec').flatten)

def execMirrorRead (chan : Nat) (s : State) : Host.Outcome State Fault Refusal := .next (serveRead chan 0x0105 mirrorRead s)

/-! ### RESET, CREDENTIAL, JOB_STATUS -/

/-- The data die is reset, at once or when the owned groups have been handed over (R341, R394). -/
def resetFor (handOver : Bool) (reason : Nat) (s : State) : State :=
  if handOver then leaveStart (s.modMode fun m => { m with resetAfter := some reason }) else dataDieReset reason s

/-- RESET: the answer goes first. -/
def resetCmd (chan : Nat) (s : State) : State :=
  let kind := byteAt (reqBody (s.chan chan).req) 0
  serveThen chan 0x0106 (fun _ s => (some (if kind ≤ 1 then .ok else .st Code.stRange), s))
    (fun s => if kind ≤ 1 then resetFor (kind == 0) 2 s else s) s

def execReset (chan : Nat) (s : State) : Host.Outcome State Fault Refusal := .next (resetCmd chan s)

/-- CREDENTIAL: from a BAR2 or SMBus channel only (R379); all zeros clears it; the channel's stage goes (R392). -/
def credential (chan : Nat) (b : List Byte) (s : State) : Answer × State :=
  let c := byteAt b 0
  let cred := slice b 4 32
  if s.transport chan ≠ 1 && s.transport chan ≠ 3 then (.st Code.stPrivilege, s)
  else if 63 < c then (.st Code.stRange, s)
  else (.ok, s.modChan c fun h => { h with credential := if allZero cred then [] else cred, stage := [] })

def execCredential (chan : Nat) (s : State) : Host.Outcome State Fault Refusal :=
  .next (serve chan 0x0107 (credential chan) s)

/-- JOB_STATUS (R383). -/
def jobStatus (b : List Byte) (s : State) : Answer :=
  match s.mbx.jobs.find? fun j => j.num == leAt b 0 2 with
  | none => .st Code.stNotFound
  | some j => .ok (leBytes 2 j.opcode ++ leBytes 1 (flag (!j.running) 0) ++ leBytes 1 0 ++
      leBytes 2 (if j.running then 0 else j.status) ++ leBytes 1 j.percent)

def execJobStatus (chan : Nat) (s : State) : Host.Outcome State Fault Refusal := .next (serveRead chan 0x0108 jobStatus s)

/-! ### Events (R396) -/

/-- EVENT_READ. -/
def eventRead (b : List Byte) (s : State) : Answer :=
  let n := leAt b 8 2
  if n = 0 || 63 < n then .st Code.stRange
  else
    let r := eventReadBody s.mbx (leAt b 0 8) n (leAt b 12 16)
    { status := Code.stOk, detail := r.2, body := r.1 }

def execEventRead (chan : Nat) (s : State) : Host.Outcome State Fault Refusal := .next (serveRead chan 0x0B01 eventRead s)

/-- EVENT_WAIT: as EVENT_READ when a matching record exists, else it holds the channel. -/
def eventWait (chan : Nat) (b : List Byte) (s : State) : Option Answer × State :=
  let (f, n, mask) := (leAt b 0 8, leAt b 8 2, leAt b 12 16)
  let ms := leAt b 28 4
  if n = 0 || 63 < n || ms = 0 || 10000 < ms then (some (.st Code.stRange), s)
  else if s.mbx.events.any fun e => f ≤ e.seq && eventMatches mask e then (some (eventRead b s), s)
  else (none, (s.unqueue chan).modChan chan fun h => { h with waiting := true })

def execEventWait (chan : Nat) (s : State) : Host.Outcome State Fault Refusal :=
  .next (serveThen chan 0x0B02 (eventWait chan) id s)

/-- EVENT_WAIT_TIMEOUT: COUNT 0. -/
def eventWaitTimeout (chan : Nat) (s : State) : State :=
  if (s.chan chan).waiting && s.ddUp then
    let (f, n, mask) := eventArgs (s.chan chan).req
    let r := eventReadBody s.mbx f n mask
    answer chan Code.stOk r.2 r.1 s
  else s

def execEventWaitTimeout (chan : Nat) (s : State) : Host.Outcome State Fault Refusal := .next (eventWaitTimeout chan s)

end Sys2Proof.Machine
end

