-- ==== Sys2Proof/Machine/NsCmds.lean ====
section
/-! DEFINITION. The Namespaces commands of the mailbox (R65, R70, R127, R132, R150, R156, R178, R394). -/

namespace Sys2Proof.Machine

/-! ### Space (R150, R178) -/

/-- Capacity of a group in bytes (R178). -/
def State.groupCapacity (s : State) (gi : Nat) : Nat :=
  let g := s.group gi
  (g.bases - s.paramN 0x3003 - 10) * (g.bandUnits * 16384) * (100 - s.paramN 0x3009) / 100

/-- Bytes of the namespaces bound to a group, one left out. -/
def State.boundBytes (s : State) (gi except : Nat) : Nat :=
  ((s.host.nss.filter fun n => n.group == gi && n.nsx != except).map Ns.size).sum

/-- Bytes left for the conventional map with 256 GiB of DRAM, the most that R150 speaks of (DESIGN CHOICE, log 33). -/
def State.mapBytes (s : State) : Nat :=
  256 * 2 ^ 30 - (2 * 2 ^ 30 + 256 * 2 ^ 20 + 128 * 2 ^ 20 + s.paramN 0x300B * 2 ^ 20 + 2 ^ 30 + 2 ^ 30)

/-- Map bytes and zone entries that the namespaces take, one left out (R150). -/
def State.mapTaken (s : State) (except : Nat) : Nat :=
  ((s.host.nss.filter fun n => !n.zoned && n.nsx != except).map fun n => 5 * ceilDiv n.size 16384).sum
def State.zonesTaken (s : State) (except : Nat) : Nat :=
  ((s.host.nss.filter fun n => n.zoned && n.nsx != except).map fun n => n.size / (n.zoneUnits * 16384)).sum

/-- A namespace of this size fits in its group and in DRAM. R150 asks it of both controllers: both hold the maps of the same groups, one
as their owner and the other as their partner, and the model gives both the same DRAM and extent pool, so that one test says it of
both (DESIGN CHOICE, log 33). -/
def State.nsFits (s : State) (n : Ns) : Bool :=
  decide (s.boundBytes n.group n.nsx + n.size ≤ s.groupCapacity n.group) &&
    (if n.zoned then decide (s.zonesTaken n.nsx + n.size / (n.zoneUnits * 16384) ≤ 8388608)
     else decide (s.mapTaken n.nsx + 5 * ceilDiv n.size 16384 ≤ s.mapBytes))

/-- A size is a whole number of LBAs, or of zones. -/
def Ns.sizeOk (n : Ns) : Bool := n.size != 0 && n.size % (if n.zoned then n.zoneUnits * 16384 else n.lba) == 0

/-! ### NS_CREATE, NS_DELETE, NS_RESIZE -/

/-- The namespace that an NS_CREATE asks for. -/
def nsOfBody (nsx : Nat) (b : List Byte) (s : State) : Ns :=
  let id := slice b 16 16
  let zoned := byteAt b 3 == 1
  { nsx, group := byteAt b 2, zoned, lba512 := byteAt b 4 == 0, zoneCode := byteAt b 5, encrypted := byteAt b 6 == 1,
    hawk := byteAt b 7, size := leAt b 8 8,
    nguid := if allZero id then leBytes 16 s.freeNat else id,
    cls := s.paramN 0x300E, maxActive := s.paramN 0x200D, maxOpen := s.paramN 0x200E }

/-- Fields of an NS_CREATE within their ranges. -/
def nsFieldsOk (b : List Byte) : Bool :=
  byteAt b 3 ≤ 1 && byteAt b 4 ≤ 1 && byteAt b 5 ≤ 5 && byteAt b 6 ≤ 1 && byteAt b 7 ≤ 2

/-- NS_CREATE. No encrypted namespace is created in BLANK or RETIRED (R346). -/
def nsCreate (b : List Byte) (s : State) : Answer × State :=
  let asked := leAt b 0 2
  let gi := byteAt b 2
  let nsx := if asked = 0xFFFF then lowest (fun n => (s.ns? n).isNone) 1024 else if asked < 1024 then some asked else none
  if asked != 0xFFFF && 1024 ≤ asked || !nsFieldsOk b then (.st Code.stRange, s)
  else if 6 ≤ gi || !(s.group gi).formed then (.st Code.stNotFound, s)
  else if !(s.role gi).owns then (.st Code.stNotOwner, s)
  else match nsx with
    | none => (.st Code.stNoSpace, s)
    | some x =>
      if (s.ns? x).isSome then (.st Code.stExists, s)
      else
        let n := nsOfBody x b s
        if n.encrypted && !s.keyed then (.st Code.stLocked, s)
        else if n.zoned && n.lba512 then (.st Code.stBadField, s)
        else if !n.sizeOk then (.st Code.stRange, s)
        else if !s.nsFits n then (.st Code.stNoSpace, s)
        else (.ok (leBytes 2 x ++ leBytes 2 0 ++ n.nguid),
          mirrorNs x false (nsChanged [x] (s.drew.modHost fun h => { h with nss := h.nss ++ [n] })))

def execNsCreate (chan : Nat) (s : State) : Host.Outcome State Fault Refusal := .next (serve chan 0x0201 nsCreate s)

/-- The namespace of a command that needs its group's owner. -/
def withNs (nsx : Nat) (f : Ns → State → Answer × State) (s : State) : Answer × State :=
  match s.ns? nsx with
  | none => (.st Code.stNotFound, s)
  | some n => if (s.role n.group).owns then f n s else (.st Code.stNotOwner, s)

/-- NS_DELETE: hosts lose the namespace at once, commands to it end, Hawk is purged, and all its entries become unmapped, so that copies
in progress become orphans (R23, R168); the job then removes it (`nsGone`). -/
def nsDelete (b : List Byte) (s : State) : Answer × State :=
  let unmap (n : Ns) (s : State) : State :=
    let s1 := nsChanged [n.nsx] (s.modNs n.nsx fun n => { n with deleting := true })
    let mine (u : ReadUnit) : Bool := u.nsx == n.nsx
    let s2 := (s1.host.cmds.filter fun x => (x.nsx == n.nsx || x.units.any mine) && x.kind != .flush).foldl
      (fun s x => complete x.num Sc.badNs true (x.failDw0 (x.extentOf mine) 0) 0 s) s1
    eraseNs ((s2.ns? n.nsx).getD n) (purgeHawk (fun k _ => k == n.nsx) s2)
  withNs (leAt b 0 2) (fun n s =>
    if n.deleting || n.genRetired then (.st Code.stBusy, s)
    else startJob 0x0202 n.nsx 0 Code.stOk (fun _ s => unmap n s) [] s) s

def execNsDelete (chan : Nat) (s : State) : Host.Outcome State Fault Refusal := .next (serve chan 0x0202 nsDelete s)

/-- The end of NS_DELETE's job: the namespace is gone, and a spent group is looked at again (R177). -/
def nsGone (nsx : Nat) (s : State) : State :=
  match s.ns? nsx with
  | none => s
  | some n => spaceCheck n.group ((mirrorNs nsx true s).modHost fun h => { h with nss := h.nss.filter fun n => n.nsx != nsx })

/-- NS_RESIZE. -/
def nsResize (b : List Byte) (s : State) : Answer × State :=
  withNs (leAt b 0 2) (fun n s =>
    let m := { n with size := leAt b 8 8 }
    if m.size < n.size || !m.sizeOk then (.st Code.stRange, s)
    else if n.deleting then (.st Code.stBusy, s)
    else if !s.nsFits m then (.st Code.stNoSpace, s)
    else (.ok, mirrorNs n.nsx false (nsChanged [n.nsx] (s.modNs n.nsx fun n => { n with size := m.size })))) s

def execNsResize (chan : Nat) (s : State) : Host.Outcome State Fault Refusal := .next (serve chan 0x0203 nsResize s)

/-! ### NS_ATTR, NS_INFO -/

/-- The peer sources of an NS_ATTR that are used: address and NSID (R132). -/
def sourcesOf (b : List Byte) : List (Nat × Nat) :=
  ((List.range 4).map fun i => (leAt b (16 + 8 * i) 2, leAt b (20 + 8 * i) 4)).filter fun x => x.2 != 0

/-- NS_ATTR: a Hawk mode of OFF purges the namespace's entries before the answer (R127). -/
def nsAttr (b : List Byte) (s : State) : Answer × State :=
  let sel := byteAt b 2
  withNs (leAt b 0 2) (fun n s =>
    if 8 ≤ sel then (.st Code.stBadField, s)
    else if sel.testBit 0 && 2 < byteAt b 3 || sel.testBit 1 && 7 < byteAt b 4 ||
        sel.testBit 2 && (1 < byteAt b 5 || (sourcesOf b).any fun x => 4096 ≤ x.1) then (.st Code.stRange, s)
    else
      let s1 := if sel.testBit 0 then s.modNs n.nsx fun n => { n with hawk := byteAt b 3 } else s
      let s2 := if sel.testBit 0 && byteAt b 3 == 0 then purgeHawk (fun k _ => k == n.nsx) s1 else s1
      let s3 := if sel.testBit 1 then s2.modNs n.nsx fun n => { n with cls := byteAt b 4 } else s2
      let peer (n : Ns) : Ns := { n with peerServe := byteAt b 5 == 1, content := leAt b 8 8, sources := sourcesOf b }
      (.ok, mirrorNs n.nsx false (if sel.testBit 2 then s3.modNs n.nsx peer else s3))) s

def execNsAttr (chan : Nat) (s : State) : Host.Outcome State Fault Refusal := .next (serve chan 0x0204 nsAttr s)

/-- NS_INFO. -/
def nsInfo (b : List Byte) (s : State) : Answer :=
  match s.ns? (leAt b 0 2) with
  | none => .st Code.stNotFound
  | some n => .ok (leBytes 2 n.nsx ++ leBytes 1 n.group ++ leBytes 1 (flag n.zoned 0) ++ leBytes 1 (flag (!n.lba512) 0) ++
      leBytes 1 n.zoneCode ++ leBytes 1 (flag n.encrypted 0) ++ leBytes 1 n.hawk ++ leBytes 8 n.size ++ padTo 16 n.nguid ++
      leBytes 8 n.lbas ++ leBytes 1 (s.anaState n.group))

def execNsInfo (chan : Nat) (s : State) : Host.Outcome State Fault Refusal := .next (serveRead chan 0x0207 nsInfo s)

/-! ### NS_GRANT, NS_SUBSYS -/

/-- The shelf's other controller can be reached over Scrim. -/
def State.shelfReached (s : State) : Bool :=
  match s.scrim.partnerDev with
  | none => false
  | some d => match s.addrOf d with
    | none => false
    | some a => s.scrim.reaches a

/-- A shelf-wide command goes to the other controller as a MAILBOX message (R394; log 34). -/
def tellShelf (chan : Nat) (s : State) : State := sendDev (s.scrim.partnerDev.getD 0) 0x60 0 (s.chan chan).req s

/-- Hosts whose grants have changed are told of the namespaces (R102). -/
def grantChanged (nqn : List Byte) (bitmap : Nat) (s : State) : State :=
  nsChangedFor (fun a => a.nqn == nqn) ((s.host.nss.map Ns.nsx).filter fun n => bitmap.testBit n) s

/-- NS_GRANT: a grant is set or revoked on both controllers. A policed one has PIR at least CIR, and bursts of 16 KiB to 16 MiB (R298). -/
def nsGrant (chan : Nat) (b : List Byte) (s : State) : Answer × State :=
  let num := leAt b 0 2
  let old := s.host.grants.find? fun g => g.num == num
  let g : Grant :=
    { num, cls := byteAt b 2, weight := byteAt b 3, cir := leAt b 4 4, pir := leAt b 8 4, cbs := leAt b 12 4, pbs := leAt b 16 4,
      nqn := nqnOf (slice b 24 256), bitmap := leAt b 280 128 }
  let revoke := byteAt b 20 == 1
  let was := match old with | some o => (o.nqn, o.bitmap) | none => ([], 0)
  let policed := g.cir ≤ g.pir && 16 ≤ g.cbs && g.cbs ≤ 16384 && 16 ≤ g.pbs && g.pbs ≤ 16384
  if 1024 ≤ num || 5 < g.cls || !revoke && g.cir ≠ 0 && !policed then (.st Code.stRange, s)
  else if 1 < byteAt b 20 || !revoke && g.nqn.isEmpty then (.st Code.stBadField, s)
  else if revoke && old.isNone then (.st Code.stNotFound, s)
  else if !s.shelfReached then (.st Code.stPeerUnreachable, s)
  else
    let keep := s.host.grants.filter fun g => g.num != num
    let s1 := tellShelf chan (s.modHost fun h => { h with grants := if revoke then keep else keep ++ [g] })
    let s2 := grantChanged was.1 was.2 s1
    (.ok, if revoke then s2 else grantChanged g.nqn (g.bitmap &&& (2 ^ 1024 - 1 - (if was.1 == g.nqn then was.2 else 0))) s2)

def execNsGrant (chan : Nat) (s : State) : Host.Outcome State Fault Refusal := .next (serve chan 0x0205 (nsGrant chan) s)

/-- NS_SUBSYS: the subsystem NQN, on both controllers (R57). -/
def nsSubsys (chan : Nat) (b : List Byte) (s : State) : Answer × State :=
  if (nqnOf b).isEmpty then (.st Code.stBadField, s)
  else if !s.shelfReached then (.st Code.stPeerUnreachable, s)
  else (.ok, discoveryChanged (tellShelf chan (s.modHost fun h => { h with nqn := some (padTo 224 b) })))

def execNsSubsys (chan : Nat) (s : State) : Host.Outcome State Fault Refusal := .next (serve chan 0x0206 (nsSubsys chan) s)

end Sys2Proof.Machine
end

