-- ==== Sys2Proof/Machine/GroupCmds.lean ====
section
/-! DEFINITION. The Bays, Stripe groups and Scrim commands of the mailbox (R226, R232, R256, R259, R271, R318, R336, R341, R394,
R443). -/

namespace Sys2Proof.Machine

/-! ### Bays -/

/-- Group, member and role of a bay as BAY_STATUS codes them: 0 member, 1 target, 2 spare, 3 unassigned. -/
def State.bayPlace (s : State) (bay : Nat) : Nat × Nat × Nat :=
  match s.bayMember bay with
  | some (gi, m) => (gi, m, if ((s.group gi).member m).st == .target then 1 else 0)
  | none =>
    match lowest (fun gi => (s.group gi).spareBays.contains bay) 6 with
    | some gi => (gi, 0xFF, 2)
    | none => (0xFF, 0xFF, 3)

/-- BAY_STATUS: BAYLNK_STATUS, BAYPWR_STATUS whole (R429), module, group, member and role. -/
def bayStatus (b : List Byte) (s : State) : Answer :=
  let bay := byteAt b 0
  let p := s.bayPlace bay
  if 24 ≤ bay then .st Code.stNotFound
  else .ok (leBytes 4 (s.baylnkStatus bay) ++ leBytes 4 ((s.pchan bay).status s.aonTick) ++ leBytes 8 (s.bay bay).modId ++
    leBytes 1 p.1 ++ leBytes 1 p.2.1 ++ leBytes 1 p.2.2)

def execBayStatus (chan : Nat) (s : State) : Host.Outcome State Fault Refusal := .next (serveRead chan 0x0301 bayStatus s)

/-- BAY_POWER: this controller's channel off, on or cycled (R443). On fails on a channel latched by a damaged FET
(R440). -/
def bayPower (b : List Byte) (s : State) : Answer × State :=
  let bay := byteAt b 0
  let act := byteAt b 1
  if 24 ≤ bay then (.st Code.stNotFound, s)
  else if 2 < act then (.st Code.stRange, s)
  else if act = 1 && (s.pchan bay).st = .latched && (s.pchan bay).byFet then (.st Code.stLocked, s)
  else (.ok, if act = 0 then baypwrOff bay s else if act = 1 then baypwrOn bay s else baypwrCycle bay s)

def execBayPower (chan : Nat) (s : State) : Host.Outcome State Fault Refusal := .next (serve chan 0x0302 bayPower s)

/-- BAY_HOLD, as BAYLNK_CTRL.HOLD. -/
def bayHold (b : List Byte) (s : State) : Answer × State :=
  let bay := byteAt b 0
  if 24 ≤ bay then (.st Code.stNotFound, s)
  else if 1 < byteAt b 1 then (.st Code.stRange, s)
  else if !s.bayIdle bay then (.st Code.stBusy, s)
  else (.ok, setHold bay (byteAt b 1 == 1) s)

def execBayHold (chan : Nat) (s : State) : Host.Outcome State Fault Refusal := .next (serve chan 0x0303 bayHold s)

/-! ### GRP_FORM (R232) -/

/-- The bays that a GRP_FORM lists. -/
def formBays (b : List Byte) : List Nat := (List.range (byteAt b 1)).map fun i => byteAt b (4 + i)

/-- The first row of R232 that fails, counted from 1. What the partner cannot see of the modules it does not check. -/
def formFails (b : List Byte) (s : State) : Option Nat :=
  let w := byteAt b 1
  let bays := formBays b
  let ds := bays.map s.desc
  let used (x : Nat) : Bool := (s.bayPlace x).2.2 != 3
  if w < 4 || 24 < w then some 1
  else if 5 < byteAt b 0 then some 2
  else if bays.any (fun x => 24 ≤ x || used x) || !bays.Nodup || (List.range (24 - w)).any (fun i => byteAt b (4 + w + i) != 0xFF) then
    some 3
  else if bays.any (fun x => (s.bay x).st != .ready) || ds.any (fun d => d.positions != (ds.headD {}).positions) then some 4
  else if ds.any fun d => d.dies < 65 then some 5
  else if bays.any fun x => !s.descFits x w then some 7
  else none

/-- The witnesses that a GRP_FORM names. -/
def formWits (b : List Byte) : List Witness :=
  (List.range 3).map fun i => { dev := leAt b (28 + 8 * i) 8, mp := slice b (52 + 16 * i) 16 }

/-- The least of a list. -/
def least (l : List Nat) : Nat := l.foldl Nat.min (l.headD 0)

/-- The group that a GRP_FORM describes: D and N the smallest of its members', epoch 1 (R144, R226, R232, R238). -/
def formGroup (b : List Byte) (uid : Nat) (s : State) : Group :=
  let bays := formBays b
  let ds := bays.map s.desc
  let other := s.scrim.partnerDev.getD 0
  { formed := true, uid, epoch := 1, known := 1, preferB := byteAt b 2 == 1,
    devA := if s.sys.slotB then other else s.fuse.deviceId, devB := if s.sys.slotB then s.fuse.deviceId else other,
    wits := formWits b, heard := s.tregs.frames, dies := least (ds.map Descriptor.dies),
    positions := (ds.headD {}).positions, blocks := least (ds.map Descriptor.blocks), spares := s.paramN 0x3001,
    members := bays.map fun x => { bay := x, moduleId := (s.bay x).modId } }

/-- The preferred owner forms the group: epoch 1 at every module. It owns the group when all have accepted (`formOwn`, R226). -/
def formOwned (gi : Nat) (s : State) : State := (s.group gi).bays.foldl (fun s x => setEpoch x 1 s) s

/-- GRP_FORM. The controller that it names as preferred owner forms the group; the other passes it on, unless it has come from
there, and becomes PARTNER. Members that do not fit the turn length raise EV_TURN_MODULE_UNFIT (R187), and a partner of another F stops it
(R39). The group UID is drawn by the preferred owner: free (log 35). -/
def grpForm (chan : Nat) (b : List Byte) (s : State) : Answer × State :=
  let gi := byteAt b 0
  let mine := (byteAt b 2 == 1) == s.sys.slotB
  if 1 < byteAt b 2 then (.st Code.stRange, s)
  else match formFails b s with
    | some row => ({ status := Code.stBadField, detail := row },
        if row = 7 then raise Code.evTurnModuleUnfit Kind.group gi [] s else s)
    | none =>
      if (s.group gi).formed then (.st Code.stExists, s)
      else if !s.shelfReached || s.turnMismatch then (.st Code.stPeerUnreachable, s)
      else if !s.takesRoles then (.st Code.stMode, s)
      else
        let uid := s.freeNat % 2 ^ 64
        let begin' (_ : Nat) (s : State) : State :=
          let s1 := s.drew.modGroup gi fun _ => formGroup b uid s
          let s2 := if s.transport chan = 4 then s1 else tellShelf chan s1
          if mine then formOwned gi s2 else setRole gi .partner s2
        startJob 0x0401 gi 0 Code.stOk begin' (leBytes 8 uid) s

def execGrpForm (chan : Nat) (s : State) : Host.Outcome State Fault Refusal := .next (serve chan 0x0401 (grpForm chan) s)

/-! ### The other Stripe groups commands -/

/-- The group of a command that needs its owner. -/
def withGroup (gi : Nat) (f : Group → State → Answer × State) (s : State) : Answer × State :=
  if 6 ≤ gi || !(s.group gi).formed then (.st Code.stNotFound, s)
  else if (s.role gi).owns then f (s.group gi) s
  else (.st Code.stNotOwner, s)

/-- The staging slots of a group are given up. -/
def dropSlots (gi : Nat) (s : State) : State := s.modFlash fun f => { f with slots := f.slots.filter fun w => w.g != gi }

/-- A group is gone: its commands, its bays' work, its slots and its spares, then the group itself. -/
def dissolve (gi : Nat) (g : Group) (s : State) : State :=
  let s1 := dropSlots gi (dropWork gi (revokeBays g.bays (endGroupCmds gi false s)))
  let s2 := g.spareBays.foldl (fun s x => unspare x s) (setRole gi .none s1)
  anaRefresh (s2.modGroup gi fun _ => {})

/-- GRP_DISSOLVE: nothing is erased; the modules become unassigned (R271). -/
def grpDissolve (b : List Byte) (s : State) : Answer × State :=
  let gi := byteAt b 0
  withGroup gi (fun g s =>
    if s.host.nss.any fun n => n.group == gi then (.st Code.stBusy, s) else (.ok, dissolve gi g s)) s

def execGrpDissolve (chan : Nat) (s : State) : Host.Outcome State Fault Refusal := .next (serve chan 0x0402 grpDissolve s)

/-- GRP_ASSIGN: a bay becomes a missing member's target or a designated spare, or is a spare no more (R259; log 36). -/
def grpAssign (b : List Byte) (s : State) : Answer × State :=
  let bay := byteAt b 0
  let act := byteAt b 1
  let gi := byteAt b 2
  let m := byteAt b 3
  let place := s.bayPlace bay
  if 24 ≤ bay then (.st Code.stNotFound, s)
  else if 2 < act then (.st Code.stRange, s)
  else if act = 2 then
    if place.2.2 = 3 then (.ok, s)
    else if !(s.role place.1).owns then (.st Code.stNotOwner, s)
    else if place.2.2 = 2 then (.ok, unspare bay s)
    else (.st Code.stBusy, s)
  else withGroup gi (fun g s =>
    if act = 1 then
      if place.2.2 != 3 then (.st Code.stExists, s)
      else (.ok, takeSpares ((s.modBay bay fun x => { x with spare := true }).modGroup gi fun g =>
        { g with spareBays := bay :: g.spareBays }))
    else if g.w ≤ m then (.st Code.stRange, s)
    else if (g.member m).st != .missing || (place.2.2 != 3 && place.2.2 != 2 && g.bayOf m != bay) then (.st Code.stExists, s)
    else if !s.meets gi bay then (.st Code.stBadField, s)
    else (.ok, makeTarget gi m bay (unspare bay s))) s

def execGrpAssign (chan : Nat) (s : State) : Host.Outcome State Fault Refusal := .next (serve chan 0x0403 grpAssign s)

/-- GRP_ACCEPT_LOSS (R256). -/
def grpAcceptLoss (b : List Byte) (s : State) : Answer × State :=
  let gi := byteAt b 0
  withGroup gi (fun g s =>
    if leAt b 4 4 ≠ g.epoch then (.st Code.stConflict, s)
    else if g.health != .failed || g.cause != 1 then (.st Code.stBadField, s)
    else (.ok, setHealth gi g.healthOf 0 s)) s

def execGrpAcceptLoss (chan : Nat) (s : State) : Host.Outcome State Fault Refusal :=
  .next (serve chan 0x0404 grpAcceptLoss s)

/-- GRP_STATUS. -/
def grpStatus (b : List Byte) (s : State) : Answer :=
  let gi := byteAt b 0
  let g := s.group gi
  if 6 ≤ gi || !g.formed then .st Code.stNotFound
  else .ok (leBytes 1 g.health.ctorIdx ++ leBytes 1 g.space.ctorIdx ++ leBytes 1 g.role.ctorIdx ++ leBytes 1 g.w ++
    leBytes 4 g.epoch ++ leBytes 8 g.uid ++ leBytes 4 g.freeBands.length ++ leBytes 4 g.lost.length ++
    (List.range 24).map (fun i => BitVec.ofNat 8 (if i < g.w then g.bayOf i else 0xFF)) ++
    (List.range 24).map (fun i => BitVec.ofNat 8 (if i < g.w then (g.member i).st.ctorIdx else 0)))

def execGrpStatus (chan : Nat) (s : State) : Host.Outcome State Fault Refusal := .next (serveRead chan 0x0405 grpStatus s)

/-- GRP_LOST_READ. -/
def grpLostRead (b : List Byte) (s : State) : Answer × State :=
  let count := leAt b 8 2
  withGroup (byteAt b 0) (fun g s =>
    if count = 0 || 252 < count then (.st Code.stRange, s)
    else (.ok (leBytes 4 g.lost.length ++ leBytes 4 0 ++ (((g.lost.drop (leAt b 4 4)).take count).map lostBytes).flatten), s)) s

def execGrpLostRead (chan : Nat) (s : State) : Host.Outcome State Fault Refusal := .next (serve chan 0x0406 grpLostRead s)

/-! ### Scrim and pairing -/

/-- FAULT_SUBMIT: a report of class 6 (R318). -/
def faultSubmit (b : List Byte) (s : State) : Answer × State :=
  if 4096 ≤ leAt b 0 2 then (.st Code.stRange, s) else (.ok, originate (leAt b 0 2) 6 (leAt b 2 2) s)

def execFaultSubmit (chan : Nat) (s : State) : Host.Outcome State Fault Refusal := .next (serve chan 0x0501 faultSubmit s)

/-- A forced takeover begins: no votes, the epoch raised, REGISTER with FORCED to the witnesses (R336). -/
def forceTakeover (gi : Nat) (s : State) : State :=
  let s1 := nextTag s
  let e := s.nextEpoch gi
  let m := { s1.witMsg gi with epoch := e, flags := 1, other := s1.otherDev gi, lease := s1.leaseL, period := s1.periodUs }
  let a : Attempt := { epoch := e, forced := true, tag := s1.scrim.tag, sentAt := s.tregs.frames }
  takeoverWon gi (toWitnesses gi 0x50 m (s1.modGroup gi fun g => { g with attempt := some a, failedAt := none }))

/-- FORCE_TAKEOVER, at a controller that does not own the group and may take a role. -/
def grpForceTakeover (b : List Byte) (s : State) : Answer × State :=
  let gi := byteAt b 0
  let g := s.group gi
  if 6 ≤ gi || !g.formed then (.st Code.stNotFound, s)
  else if leAt b 4 4 ≠ g.epoch then (.st Code.stConflict, s)
  else if !(g.role == .partner || g.role == .fenced || g.role == .takingOver) || g.won || !s.takesRoles then (.st Code.stMode, s)
  else startJob 0x0502 gi 0 Code.stOk (fun _ s => forceTakeover gi s) [] s

def execForceTakeover (chan : Nat) (s : State) : Host.Outcome State Fault Refusal :=
  .next (serve chan 0x0502 grpForceTakeover s)

/-- HANDOVER: the owner offers a handover at once, and the preferred owner moves (R341, R394). -/
def grpHandover (b : List Byte) (s : State) : Answer × State :=
  let gi := byteAt b 0
  withGroup gi (fun g s =>
    if g.role != .owner || g.hand.isSome then (.st Code.stBusy, s)
    else if !s.partnerReached gi || s.turnMismatch then (.st Code.stPeerUnreachable, s)
    else (.ok, startHandover gi .command s)) s

def execHandover (chan : Nat) (s : State) : Host.Outcome State Fault Refusal := .next (serve chan 0x0503 grpHandover s)

end Sys2Proof.Machine
end

