-- ==== Sys2Proof/Machine/ParamRules.lean ====
section
/-! DEFINITION. The checks and the effects of a parameter change (R10, R390, R391, R533, and the rules between values that the
chapters state), and commits (R11, R12). -/

namespace Sys2Proof.Machine

/-! ### The checks of one entry (R378, R388, R390) -/

/-- The number that 8 bytes spell for a type (R388). -/
def rawValue (ty v : Nat) : Int := if ty = 5 then ofTwos 64 v else (v : Int)

/-- The lowest privilege that may write a parameter (R388). -/
def writePriv (num : Nat) : Nat := if num / 0x1000 = 8 || num / 0x1000 = 10 || (0x1100 ≤ num && num < 0x1200) then 2 else 1

/-- A LOCKED parameter is inside its write window (R366, R390). -/
def State.unlocked (s : State) (num : Nat) : Bool :=
  if num = 0x8001 || num = 0x8002 then s.fuse.lifecycle == 1 && !blown s.fuse.debugLock
  else if num = 0x3001 then decide (s.fuse.lifecycle < 2)
  else false

/-- A value as PARAM_GET and the registers show it: in DEPLOYED the countermeasures read 3 and 1 (R366). -/
def State.shown (s : State) (num : Nat) : Int :=
  if 2 ≤ s.fuse.lifecycle && num = 0x8001 then 3 else if 2 ≤ s.fuse.lifecycle && num = 0x8002 then 1 else s.param num

/-- The first check of R390 that an entry fails, before the rules between values. -/
def entryError (s : State) (priv : Nat) (num : Nat) (v : Int) (gen : Option Nat) : Option Nat :=
  match paramRow num with
  | none => some Code.stNoParam
  | some (r, _) =>
    if priv < writePriv num then some Code.stPrivilege
    else if r.cls = 3 && !s.unlocked num then some Code.stLocked
    else if v < r.min || r.max < v then some Code.stRange
    else if gen.any fun g => g != s.paramGen num then some Code.stConflict
    else none

/-! ### Rules between values -/

/-- Values that would hold after some entries. -/
abbrev Values := Nat → Int

/-- The values in effect with entries laid over them, the last one prevailing. -/
def State.withEntries (s : State) (es : List StageEntry) : Values := fun num =>
  match (es.filter fun e => e.num == num).getLast? with
  | some e => e.val
  | none => s.param num

/-- A threshold in mA over the shunt lies from 2.5 to 75 mV (R436). -/
def shuntOk (v : Values) (num : Nat) : Bool := decide (2500000 ≤ v num * v 0x9010) && decide (v num * v 0x9010 ≤ 75000000)

/-- Bay power: R436 and R451. -/
def bayValuesOk (v : Values) : Bool :=
  decide (v 0x9002 < v 0x9003) && decide (3 * v 0x9003 ≤ 2 * v 0x9004) && shuntOk v 0x9002 && shuntOk v 0x9003 &&
    shuntOk v 0x9004 && decide (v 0x9021 < v 0x9020)

/-- The lease: R329. -/
def leaseOk (v : Values) : Bool :=
  decide (4 * v 0x7021 ≤ v 0x7020) && decide (4 * v 0x7022 ≤ v 0x7020) &&
    decide ((v 0x7020 * v 0x1017 + 999999) / 1000000 + 1 ≤ v 0x7022)

/-- The guard still fits every group that the controller serves or partners (R187, R207). -/
def guardOk (v : Values) (s : State) : Bool :=
  (List.range 6).all fun gi =>
    let g := s.group gi
    let l := s.turnLen / 1000
    g.role == .none || (g.bays.filter fun b => (s.bay b).desc.isSome).all fun b =>
      let d := s.desc b
      decide (d.tProgMax + v 0x4001 ≤ l) && (s.eraseSuspendOk b g.w || decide (d.tEraseMax + v 0x4001 ≤ l))

/-- Channels: no privilege above its transport's highest (R378), and a CUSTODIAN channel on BAR2 or SMBus is left (R385). -/
def channelsOk (v : Values) : Bool :=
  ((List.range 64).all fun c => v (0x1100 + c) != 4 || decide (v (0x1140 + c) ≤ 1)) &&
    (List.range 64).any fun c => (v (0x1100 + c) == 1 || v (0x1100 + c) == 3) && v (0x1140 + c) == 2

/-- A gate list leaves classes 6 and 7 a slot each (R300). -/
def gatesOk (v : Values) (p : Nat) : Bool :=
  [6, 7].all fun c => (List.range 64).any fun n => (bits (v (0x6100 + 16 * p + n / 4)).toNat (8 * (n % 4)) 8).testBit c

/-- Every rule between values that a change of these numbers touches (R180, R278, R287, R300, R303, R329, R378, R385, R436,
R451, R207). -/
def rulesOk (v : Values) (nums : List Nat) (s : State) : Bool :=
  let hit (p : Nat → Bool) : Bool := nums.any p
  (!hit (fun n => n == 0x3003 || n == 0x3005 || n == 0x3006) || decide (v 0x3003 < v 0x3006) && decide (v 0x3006 < v 0x3005)) &&
    (!hit (fun n => 0x9002 ≤ n && n ≤ 0x9021) || bayValuesOk v) &&
    (!hit (fun n => n == 0x6073 || n == 0x6074) || decide (v 0x6073 < v 0x6074)) &&
    (!hit (fun n => n == 0x1017 || (0x7020 ≤ n && n ≤ 0x7022)) || leaseOk v) &&
    (!hit (fun n => n == 0x4001) || guardOk v s) &&
    (!hit (fun n => 0x1100 ≤ n && n < 0x1180) || channelsOk v) &&
    nums.all fun n => (!(0x6008 ≤ n && n < 0x600C) || v n == 0) && (!(0x6100 ≤ n && n < 0x61C0) || gatesOk v ((n - 0x6100) / 16))

/-! ### Idle blocks (R10, R40, R104, R179, R278, R303, R343, R385, R399) -/

/-- The block that a QUIESCE parameter belongs to is idle. -/
def State.paramIdle (s : State) (num : Nat) : Bool :=
  let busyOn (t : Nat) : Bool := (List.range 64).any fun c => s.transport c == t && (s.chan c).state == .busy
  let portsOff : Bool := s.net.ports.all fun p => !p.enable
  if num = 0x1010 || num = 0x1011 then s.timeIdle
  else if 0x1100 ≤ num && num < 0x1180 then
    let c := (num - 0x1100) % 64
    (s.chan c).state == .idle && (s.chan c).stage.isEmpty
  else if num = 0x11C0 then !busyOn 2
  else if num = 0x11C1 then !busyOn 3
  else if 0x200A ≤ num && num ≤ 0x200C then s.host.assocs.isEmpty
  else if num = 0x300B then !s.groups.any fun g => g.role.owns || g.role == .leaseLost || g.role == .takingOver
  else if 0x6000 ≤ num && num < 0x6040 then
    let p := num % 16
    !(s.netPort p).enable && !s.host.sessions.any fun q => q.port == p
  else if num = 0x6070 || num = 0x6071 then portsOff
  else if num = 0x607E then portsOff && (List.range 12).all fun p => s.paramN (0x6040 + p) == 0 && s.paramN (0x6050 + p) == 0
  else if num = 0x7006 then (List.range 4).all fun p => !(s.netPort (8 + p)).enable
  else true

/-! ### What a change does beside its value -/

/-- Hawk gives up entries until it fits its size. -/
def shrinkHawk : Nat → State → State
  | 0, s => s
  | n + 1, s =>
    if s.flash.hawk.length ≤ s.hawkLimit then s
    else match evictHawk s with
      | (some _, s1) => shrinkHawk n s1
      | (none, s1) => s1

/-- The copy of the WITNESS key that the AON controller holds (R355). -/
def copyWitnessKey (s : State) : State :=
  match s.workingKey 3073 5 with
  | some k => { useKey 3073 s with wit := { s.wit with key := some (Aes.toBytes k) } }
  | none => s

/-- A value has taken effect: what its block does at once. -/
def paramEffect (num : Nat) (old : Int) (s : State) : State :=
  let v := s.param num
  if num = 0x1010 || num = 0x1011 then turnChanged (renumber s)
  else if num = 0x1012 then dropDisabled s
  else if num = 0x1017 then limitSlew s
  else if num = 0x101A then ppsFollow s
  else if 0x1100 ≤ num && num < 0x1180 then
    let c := (num - 0x1100) % 64
    if v = old then s
    else raise Code.evMbxBindingChanged Kind.chan c [] (s.modChan c fun h => { h with lastSeq := none, cached := [], stage := [] })
  else if num = 0x2110 then shrinkHawk s.flash.hawk.length s
  else if num = 0x2120 then (s.flash.peerStopped.foldl (fun s a => clearFault a 4 s) s).modFlash fun f => { f with peerStopped := [] }
  else if 0x3003 ≤ num && num ≤ 0x3008 then s.ownedGroups.foldl (fun s gi => spaceCheck gi s) s
  else if num = 0x4010 then if v = 0 then skimAbandon s else s
  else if num = 0x8009 then copyWitnessKey (fabricLabels s)
  else if num = 0x9001 then autostartAll s
  else s

/-- A write of TIME_CFG: each field that its table accepts, while the block is idle (R40, R533). -/
def timeCfgWrite (v : Nat) (s : State) : State :=
  if s.timeIdle then
    let s1 := if bits v 0 3 ≤ 4 then s.changeParam 0x1010 (bits v 0 3) else s
    let s2 := if 1 ≤ bits v 4 4 && bits v 4 4 ≤ 8 then s1.changeParam 0x1011 (bits v 4 4) else s1
    turnChanged (renumber s2)
  else s

def execTimeCfgWrite (v : Nat) (s : State) : Host.Outcome State Fault Refusal :=
  .next (s.hostWrite (timeCfgWrite v s))

/-- A LIVE, QUIESCE or unlocked LOCKED value changes (R390, R533). -/
def changeNow (num : Nat) (v : Int) (s : State) : State := paramEffect num (s.param num) (s.changeParam num v)

/-! ### Commits (R11, R12, R391) -/

/-- Entries of the commits that wait, in command order. -/
def State.committed (s : State) : List StageEntry := (s.par.commits.map Commit.entries).flatten

/-- GEN of a number rises with the commit, before its value applies (R391). -/
def bumpGen (s : State) (e : StageEntry) : State := s.putParam e.num (s.param e.num) ((s.paramGen e.num + 1) % 2 ^ 32)

/-- A commit is accepted: it waits for the first turn boundary later than now (R12), and every GEN rises. -/
def acceptCommit (es : List StageEntry) (s : State) : State :=
  es.foldl bumpGen { s with par := { s.par with commits := s.par.commits ++ [{ entries := es, due := s.turnNow + 1 }] } }

/-- A value of a commit applies; its GEN has risen before. -/
def applyEntry (s : State) (e : StageEntry) : State := s.putParam e.num e.val (s.paramGen e.num)

/-- Commits due at the turn boundary that has been delivered apply, in command order, in one step (R11, R12). -/
def applyCommits (s : State) : State :=
  let now (c : Commit) : Bool := decide (c.due ≤ s.tregs.turnSeen)
  let due := s.par.commits.filter now
  let rest := s.par.commits.filter fun c => !now c
  (due.map Commit.entries).flatten.foldl applyEntry { s with par := { s.par with commits := rest } }

end Sys2Proof.Machine
end

