-- ==== Sys2Proof/Machine/ParamCmds.lean ====
section
/-! DEFINITION. The parameter commands of the mailbox (R387 to R393), and the commit of RWE register fields (R300, R392). -/

namespace Sys2Proof.Machine

/-! ### PARAM_GET -/

/-- The value that PARAM_GET returns: with STAGED, what the channel has staged, if anything (R389). -/
def State.getValue (s : State) (chan : Nat) (staged : Bool) (num : Nat) : Int :=
  match (s.chan chan).stage.find? fun e => staged && e.num == num with
  | some e => e.val
  | none => s.shown num

/-- PARAM_GET. -/
def paramGet (chan : Nat) (b : List Byte) (s : State) : Answer :=
  let n := leAt b 0 2
  let nums := (List.range n).map fun i => leAt b (4 + 2 * i) 2
  if n = 0 || 336 < n then .st Code.stRange
  else if 1 < byteAt b 2 then .st Code.stBadField
  else match nums.findIdx? fun x => (paramRow x).isNone with
    | some i => { status := Code.stNoParam, detail := i }
    | none => .ok (nums.map fun x =>
        leBytes 8 (twos 64 (s.getValue chan (byteAt b 2 == 1) x)) ++ leBytes 4 (s.paramGen x)).flatten

def execParamGet (chan : Nat) (s : State) : Host.Outcome State Fault Refusal :=
  .next (serveRead chan 0x0901 (paramGet chan) s)

/-! ### PARAM_SET -/

/-- The entries of a PARAM_SET body. -/
def setEntries (b : List Byte) : List StageEntry :=
  (List.range (leAt b 0 2)).map fun i =>
    let o := 4 + 16 * i
    let num := leAt b o 2
    let ty := match paramRow num with | some (r, _) => r.type | none => 0
    { num, val := rawValue ty (leAt b (o + 8) 8), gen := if byteAt b 2 == 1 then some (leAt b (o + 4) 4) else none }

def paramClass (num : Nat) : Nat := match paramRow num with | some (r, _) => r.cls | none => 3

/-- A stage with an entry put into it: a second staging of a number replaces the first (R390). -/
def stageIn (l : List StageEntry) (e : StageEntry) : List StageEntry := (l.filter fun x => x.num != e.num) ++ [e]

/-- The first entry at which the rules between values break, of entries that take effect at once. -/
def firstBreak (s : State) (es : List StageEntry) : Option Nat :=
  let now (es : List StageEntry) : List StageEntry := es.filter fun e => paramClass e.num != 1
  let ok (es : List StageEntry) : Bool := rulesOk (s.withEntries (now es)) ((now es).map StageEntry.num) s
  if ok es then none else some (((List.range es.length).find? fun i => !ok (es.take (i + 1))).getD 0)

/-- The first entry of a PARAM_SET that fails, and how (R390). -/
def setError (chan priv : Nat) (es : List StageEntry) (s : State) : Option (Nat × Nat) :=
  match (List.range es.length).findSome? fun i =>
      let e := nth es i
      (entryError s priv e.num e.val e.gen).map fun st => (st, i) with
  | some x => some x
  | none =>
    match firstBreak s es with
    | some i => some (Code.stRange, i)
    | none =>
      match es.findIdx? fun e => paramClass e.num == 2 && !s.paramIdle e.num with
      | some i => some (Code.stBusy, i)
      | none =>
        let stageAt (i : Nat) : Nat :=
          (((es.take (i + 1)).filter fun e => paramClass e.num == 1).foldl stageIn (s.chan chan).stage).length
        ((List.range es.length).find? fun i => 256 < stageAt i).map fun i => (Code.stStageFull, i)

/-- PARAM_SET: all or nothing; EDGE entries join the channel's stage, the others take effect. -/
def paramSet (chan : Nat) (b : List Byte) (s : State) : Answer × State :=
  let n := leAt b 0 2
  let es := setEntries b
  if n = 0 || 252 < n then (.st Code.stRange, s)
  else if 1 < byteAt b 2 then (.st Code.stBadField, s)
  else match setError chan (reqPriv (s.chan chan).req) es s with
    | some (st, i) => ({ status := st, detail := i }, s)
    | none =>
      let put (s : State) (e : StageEntry) : State :=
        if paramClass e.num = 1 then s.modChan chan fun h => { h with stage := stageIn h.stage e } else changeNow e.num e.val s
      (.ok, es.foldl put s)

def execParamSet (chan : Nat) (s : State) : Host.Outcome State Fault Refusal := .next (serve chan 0x0902 (paramSet chan) s)

/-! ### Commits (R391, R392) -/

/-- The rules between values hold for a commit laid over those that wait. -/
def commitOk (es : List StageEntry) (s : State) : Bool :=
  rulesOk (s.withEntries (s.committed ++ es)) (es.map StageEntry.num) s

/-- PARAM_COMMIT: APPLY_TURN is the turn at whose boundary the values take effect. -/
def paramCommit (chan : Nat) (_ : List Byte) (s : State) : Answer × State :=
  let es := (s.chan chan).stage
  if es.any fun e => e.gen.any fun g => g != s.paramGen e.num then (.st Code.stConflict, s)
  else if !commitOk es s then (.st Code.stRange, s)
  else
    let s1 := if es = [] then s else acceptCommit es (s.modChan chan fun h => { h with stage := [] })
    (.ok (leBytes 8 (s.turnNow + 1) ++ leBytes 2 es.length), s1)

def execParamCommit (chan : Nat) (s : State) : Host.Outcome State Fault Refusal :=
  .next (serve chan 0x0903 (paramCommit chan) s)

/-- PARAM_DISCARD. -/
def paramDiscard (chan : Nat) (_ : List Byte) (s : State) : Answer × State :=
  (.ok, s.modChan chan fun h => { h with stage := [] })

def execParamDiscard (chan : Nat) (s : State) : Host.Outcome State Fault Refusal :=
  .next (serve chan 0x0904 (paramDiscard chan) s)

/-- NET_COMMIT.COMMIT: every staged NET field, or nothing, REFUSED set and all of it still staged (R300, R392). -/
def netCommit (s : State) : State :=
  let es := s.par.netStage
  if !commitOk es s then s.modNet fun n => { n with refused := true }
  else if es = [] then s
  else acceptCommit es { s with par := { s.par with netStage := [] } }

def execNetCommit (s : State) : Host.Outcome State Fault Refusal :=
  .next (if s.ddUp then s.hostWrite (netCommit s) else s)

/-! ### PARAM_DESCRIBE (R387) -/

/-- A templated name with its indices written in. -/
def fillName : Bool → List Nat → List Char → List Byte
  | _, _, [] => []
  | true, vs, c :: cs => fillName (c != '>') vs cs
  | false, [], c :: cs => BitVec.ofNat 8 c.toNat :: fillName false [] cs
  | false, v :: vs, c :: cs =>
    if c = '<' then decimal v ++ fillName true vs cs else BitVec.ofNat 8 c.toNat :: fillName false (v :: vs) cs

/-- The row and the index of the i-th parameter, in the order of the numbers. -/
def paramAt : List ParamRow → Nat → Option (ParamRow × Nat)
  | [], _ => none
  | r :: rs, i => if i < r.count then some (r, i) else paramAt rs (i - r.count)

/-- How many parameters there are. -/
def paramTotal : Nat := (paramRows.map ParamRow.count).sum

/-- The 96-byte entry of a parameter (R387). -/
def paramEntry (r : ParamRow) (i : Nat) : List Byte :=
  let vs := if r.base = 0x6100 then [i / 16, i % 16] else [i]
  leBytes 2 (r.base + i) ++ leBytes 1 r.type ++ leBytes 1 r.cls ++ leBytes 1 0 ++ leBytes 1 (writePriv (r.base + i)) ++
    leBytes 2 r.enums ++ leBytes 8 (twos 64 r.min) ++ leBytes 8 (twos 64 r.max) ++ leBytes 8 (twos 64 (rowDefault r i)) ++
    padTo 48 (fillName false vs r.name.toList) ++ leBytes 16 0

/-- PARAM_DESCRIBE: the entries from FIRST that exist. -/
def paramDescribe (b : List Byte) (_ : State) : Answer :=
  let first := leAt b 0 2
  let n := leAt b 2 2
  let got := (List.range n).filterMap fun i => paramAt paramRows (first + i)
  if n = 0 || 42 < n || paramTotal ≤ first then .st Code.stRange
  else .ok (leBytes 2 paramTotal ++ leBytes 6 0 ++ (got.map fun p => paramEntry p.1 p.2).flatten)

def execParamDescribe (chan : Nat) (s : State) : Host.Outcome State Fault Refusal :=
  .next (serveRead chan 0x0905 paramDescribe s)

/-! ### The parameter store (R393) -/

/-- PARAM_SAVE: a job; the values are written when it finishes (`saveParams`). -/
def paramSave (_ : List Byte) (s : State) : Answer × State := startJob 0x0906 0 0 Code.stOk (fun _ s => s) [] s

def execParamSave (chan : Nat) (s : State) : Host.Outcome State Fault Refusal := .next (serve chan 0x0906 paramSave s)

/-- The values in effect, LOCKED ones left out, go into the older copy of the store. A value at its default needs no entry. -/
def saveParams (s : State) : State :=
  let vals : List StageEntry := (s.par.vals.filter fun v => paramClass v.num != 3).map fun v => { num := v.num, val := v.val }
  let a := nth s.par.store 0
  let b := nth s.par.store 1
  let seq := Nat.max (if a.valid then a.seq else 0) (if b.valid then b.seq else 0) + 1
  let second := a.valid && (!b.valid || b.seq < a.seq)
  let copy : StoreCopy := { valid := true, seq, values := vals }
  { s with par := { s.par with store := if second then [a, copy] else [copy, b] } }

/-- PARAM_DEFAULTS marks the store. -/
def paramDefaults (_ : List Byte) (s : State) : Answer × State := (.ok, { s with par := { s.par with defaultsMark := true } })

def execParamDefaults (chan : Nat) (s : State) : Host.Outcome State Fault Refusal :=
  .next (serve chan 0x0907 paramDefaults s)

/-- What a data-die reset loads: the newest valid copy, or the defaults when there is none or the store is marked. What the AON
controller holds stays in force when it has been loaded before (R393, R450, R476; log 37). Every GEN is 1. -/
def loadParams (s : State) : State :=
  let copy := if s.par.defaultsMark then none else s.par.newest
  let keep := s.par.vals.filter fun v => paramClass v.num == 3 || s.pwr.loaded && aonParam v.num
  let stored : List StageEntry := match copy with | none => [] | some c => c.values
  let vals := stored.filter fun e => !(s.pwr.loaded && aonParam e.num) && !keep.any fun k => k.num == e.num
  let vals := keep.map (fun v => { v with gen := 1 }) ++ vals.map fun e => { num := e.num, val := e.val, gen := 1 }
  { s with par := { s.par with vals, defaultsMark := false, loadedFromStore := copy.isSome } }

end Sys2Proof.Machine
end

