-- ==== Sys2Proof/Machine/Firmware.lean ====
section
/-! DEFINITION. Firmware images, the boot-selection record, and the firmware commands of the mailbox (R397, R398, R501, R503 to
R505). -/

namespace Sys2Proof.Machine

/-! ### The boot-selection record (R503) -/

/-- The copies' order: whether copy 1 is the one in force. -/
def FwState.second (f : FwState) : Bool :=
  let a := nth f.recs 0
  let b := nth f.recs 1
  b.valid && (!a.valid || decide (a.seq < b.seq))

/-- The record in force; with no valid copy, both slots are INVALID. -/
def FwState.boot (f : FwState) : BootRec :=
  let r := nth f.recs (if f.second then 1 else 0)
  if r.valid then r else {}

/-- The other copy is written with SEQ + 1. -/
def putBoot (f : BootRec → BootRec) (s : State) : State :=
  let cur := s.fw.boot
  let new := { f cur with valid := true, seq := cur.seq + 1 }
  { s with fw := { s.fw with recs := upd s.fw.recs (if s.fw.second then 0 else 1) fun _ => new } }

/-- State and attempts of a slot; true is slot B. -/
def BootRec.st (r : BootRec) (b : Bool) : SlotSt := if b then r.stateB else r.stateA
def BootRec.att (r : BootRec) (b : Bool) : Nat := if b then r.attB else r.attA
def BootRec.setSt (b : Bool) (st : SlotSt) (r : BootRec) : BootRec := if b then { r with stateB := st } else { r with stateA := st }
def BootRec.setAtt (b : Bool) (n : Nat) (r : BootRec) : BootRec := if b then { r with attB := n } else { r with attA := n }

/-- The image in a slot. -/
def FwState.image (f : FwState) (b : Bool) : List Byte := if b then f.imageB else f.imageA
def FwState.setImage (f : FwState) (b : Bool) (i : List Byte) : FwState := if b then { f with imageB := i } else { f with imageA := i }

/-! ### Images (R504, R505) -/

/-- Fields of an image header (R504). -/
def imgType (i : List Byte) : Nat := leAt i 4 1
def imgKey (i : List Byte) : Nat := leAt i 5 1
def imgLength (i : List Byte) : Nat := leAt i 12 4
def imgRollback (i : List Byte) : Nat := leAt i 16 8
def imgRevoke (i : List Byte) : Nat := leAt i 24 1

/-- The header's reserved bytes are zero. -/
def imgClean (i : List Byte) : Bool :=
  allZero (slice i 6 2) && allZero (slice i 11 1) && imgRevoke i < 16 && allZero (slice i 25 7) && allZero (slice i 129 127) &&
    allZero (slice i 352 160)

/-- SHA-384 of the header's bytes 0 to 255 and the body. -/
def imgDigest (i : List Byte) : Nat := Config.sha384 (slice i 0 256 ++ slice i 512 (imgLength i))

/-- The key of an image is one that this part trusts. -/
def imgKeyOk (f : FuseState) (i : List Byte) : Bool :=
  let h := Config.sha384 (slice i 32 97)
  let k := imgKey i
  if f.lifecycle = 0 then k == 0xFF && h == Config.provisioningKeyHash
  else
    let x := nth f.hashes k
    decide (k < 4) && x.programmed && !x.bad && !blown (nth f.revoke k) && h == x.value

/-- The first check of R505 that an image fails, 1 to 4. -/
def imageFails (f : FuseState) (i : List Byte) : Option Nat :=
  if slice i 0 4 ≠ asciiBytes "DWFW" || 1 < imgType i || i.length < 512 + imgLength i || 128 < imgRollback i || !imgClean i then
    some 1
  else if !imgKeyOk f i then some 2
  else if !Config.ecdsaP384 (slice i 32 97) (imgDigest i) (slice i 256 96) then some 3
  else if imgRollback i < f.rollbackCount then some 4
  else none

/-! ### The update session (R397) -/

/-- FW_BEGIN: the slot that is not running is erased and INVALID. -/
def fwBegin (chan : Nat) (b : List Byte) (s : State) : Answer × State :=
  let len := leAt b 0 4
  let slot := !s.fw.runB
  if len < 65536 || 3145728 < len then (.st Code.stRange, s)
  else if s.fw.session.isSome then (.st Code.stBusy, s)
  else startJob 0x0A01 0 0 Code.stOk (fun _ s =>
    let s1 := { s with fw := { s.fw.setImage slot [] with session := some { chan, len, slotB := slot } } }
    putBoot (BootRec.setSt slot .invalid) s1) [] s

def execFwBegin (chan : Nat) (s : State) : Host.Outcome State Fault Refusal := .next (serve chan 0x0A01 (fwBegin chan) s)

/-- The session as a command of a channel meets it: another channel's is ST_BUSY, none is ST_BAD_FIELD (DESIGN CHOICE, log
39). -/
def State.sessionFor (s : State) (chan : Nat) : Except Nat FwSession :=
  match s.fw.session with
  | none => .error Code.stBadField
  | some x => if x.chan = chan then .ok x else .error Code.stBusy

/-- FW_WRITE: the next chunk, or the last one again. -/
def fwWrite (chan : Nat) (b : List Byte) (s : State) : Answer × State :=
  let off := leAt b 0 4
  let n := leAt b 4 4
  match s.sessionFor chan with
  | .error st => (.st st, s)
  | .ok x =>
    if n = 0 || 4056 < n then (.st Code.stRange, s)
    else if off = x.written then
      if x.len < off + n then (.st Code.stRange, s)
      else
        let img := s.fw.image x.slotB ++ slice b 8 n
        (.ok, { s with fw := { s.fw.setImage x.slotB img with
          session := some { x with written := off + n, lastOff := off, lastLen := n } } })
    else if off = x.lastOff && n == x.lastLen then (.ok, s)
    else (.st Code.stBadField, s)

def execFwWrite (chan : Nat) (s : State) : Host.Outcome State Fault Refusal := .next (serve chan 0x0A02 (fwWrite chan) s)

/-- The status that FW_VERIFY will finish with. -/
def State.verifyStatus (s : State) (x : FwSession) : Nat :=
  if x.written < x.len then Code.stImageBad
  else match imageFails s.fuse (s.fw.image x.slotB) with
    | none => Code.stOk
    | some n => if n = 4 then Code.stRollback else Code.stImageBad

/-- FW_VERIFY: a job; what a good result brings happens when it finishes. -/
def fwVerify (chan : Nat) (_ : List Byte) (s : State) : Answer × State :=
  match s.sessionFor chan with
  | .error st => (.st st, s)
  | .ok x => startJob 0x0A03 (if x.slotB then 1 else 0) 0 (s.verifyStatus x) (fun _ s => s) [] s

def execFwVerify (chan : Nat) (s : State) : Host.Outcome State Fault Refusal := .next (serve chan 0x0A03 (fwVerify chan) s)

/-- The verification has passed: the slot is STANDBY, the session closes, EV_FW_STAGED. -/
def verified (slotB : Bool) (s : State) : State :=
  match s.fw.session with
  | some x =>
    if x.slotB = slotB then
      raise Code.evFwStaged Kind.none 0 []
        (putBoot (BootRec.setAtt slotB 0 ∘ BootRec.setSt slotB .standby) { s with fw := { s.fw with session := none } })
    else s
  | none => s

/-- The session closes, and its slot stays INVALID. -/
def closeSession (s : State) : State := { s with fw := { s.fw with session := none } }

/-- FW_ABORT, from any channel of enough privilege. -/
def fwAbort (_ : List Byte) (s : State) : Answer × State :=
  if s.fw.session.isNone then (.st Code.stBadField, s) else (.ok, closeSession s)

def execFwAbort (chan : Nat) (s : State) : Host.Outcome State Fault Refusal := .next (serve chan 0x0A07 fwAbort s)

/-- FW_SESSION_IDLE. -/
def execFwSessionIdle (s : State) : Host.Outcome State Fault Refusal := .next (if s.ddRuns then closeSession s else s)

/-! ### FW_ACTIVATE (R397, R507) -/

/-- The slot that FW_ACTIVATE takes: the one that is not running, and in recovery any, when it is STANDBY. -/
def State.stagedSlot (s : State) : Option Bool :=
  let ok (b : Bool) : Bool := s.fw.boot.st b == .standby
  let other := !s.fw.runB
  if ok other then some other else if s.fw.recovery && ok s.fw.runB then some s.fw.runB else none

/-- The verified slot is ACTIVE, and an ACTIVE other slot STANDBY (R507). -/
def BootRec.takeOver (b : Bool) (r : BootRec) : BootRec :=
  let r1 := (r.setSt b .active).setAtt b 0
  if r.st (!b) = .active then r1.setSt (!b) .standby else r1

/-- FW_ACTIVATE. -/
def fwActivate (chan : Nat) (b : List Byte) (s : State) : Answer × State :=
  if 1 < byteAt b 0 then (.st Code.stRange, s)
  else if s.fw.session.any fun x => x.chan != chan then (.st Code.stBusy, s)
  else match s.stagedSlot with
    | none => (.st Code.stBadField, s)
    | some x =>
      if s.fw.recovery then (.ok, putBoot (BootRec.takeOver x) s)
      else (.ok, putBoot (fun r => (r.setSt x .trial).setAtt x 0) s)

/-- The answer goes first; MODE 1, and recovery in either mode, then reset the data die. -/
def fwActivateAll (chan : Nat) (s : State) : State :=
  let mode := byteAt (reqBody (s.chan chan).req) 0
  let goes := (fwActivate chan (reqBody (s.chan chan).req) s).1.status = Code.stOk && (mode == 1 || s.fw.recovery)
  serveThen chan 0x0A04 (fun b s => let r := fwActivate chan b s; (some r.1, r.2))
    (fun t => if goes then resetFor (!s.fw.recovery) 2 t else t) s

def execFwActivate (chan : Nat) (s : State) : Host.Outcome State Fault Refusal := .next (fwActivateAll chan s)

/-! ### FW_CONFIRM (R397, R501) -/

/-- The hashes that the running image revokes: never the one that signed it. -/
def revokes (i : List Byte) : List Nat := (List.range 4).filter fun k => bit (imgRevoke i) k && k != imgKey i

/-- The fuses of the image's confirmation: ROLLBACK up to its value, and its REVOKE groups. A mismatch leaves the bits it
meant to blow open. -/
def advanceRollback (ok : Bool) (i : List Byte) (s : State) : State :=
  let want := 2 ^ imgRollback i - 1
  let part := s.freeNat % 2 ^ 128 &&& want
  let s1 := s.modFuse fun f =>
    { f with rollback := f.rollback ||| (if ok then want else part),
             revoke := (revokes i).foldl (fun l k => upd l k fun g => g ||| (if ok then 0xFF else s.freeNat / 2 ^ 128 % 256)) f.revoke }
  s1.drew

/-- FW_CONFIRM: the running TRIAL slot becomes ACTIVE and the other STANDBY; ADVANCE_ROLLBACK also serves an image confirmed
before (R398, step 6 of its example). -/
def fwConfirm (chan : Nat) (ok : Bool) (b : List Byte) (s : State) : Answer × State :=
  let run := s.fw.runB
  let img := s.fw.image run
  let confirm (s : State) : State :=
    if s.fw.boot.st run = .trial then putBoot (fun r => (r.setSt run .active).setSt (!run) .standby) s else s
  if 1 < byteAt b 0 then (.st Code.stBadField, s)
  else if !(s.fw.boot.st run = .trial || s.fw.boot.st run = .active) then (.st Code.stBadField, s)
  else if byteAt b 0 = 1 && (s.fuse.rollbackCount < imgRollback img || !(revokes img).isEmpty) then
    let r := fuseDone 0x0A05 chan ok (advanceRollback ok img s)
    (r.1, if ok then confirm r.2 else r.2)
  else (.ok, confirm s)

def execFwConfirm (chan : Nat) (readBackOk : Bool) (s : State) : Host.Outcome State Fault Refusal :=
  .next (serve chan 0x0A05 (fwConfirm chan readBackOk) s)

/-! ### Boot choice (R506) -/

/-- What Primer does next with the record. -/
inductive Pick where
  | attempt (b : Bool)
  | drop (b : Bool)
  | recover
  deriving DecidableEq, Repr

/-- Primer's choice. With no ACTIVE slot, a STANDBY one is tried (DESIGN CHOICE, log 39). -/
def BootRec.pick (r : BootRec) : Pick :=
  let find (st : SlotSt) : Option Bool := [false, true].find? fun b => r.st b == st
  match find .trial with
  | some b => if r.att b < 2 then .attempt b else .drop b
  | none =>
    match find .active with
    | some b => if r.att b < 3 then .attempt b else if r.st (!b) = .standby then .attempt (!b) else .recover
    | none => match find .standby with | some b => .attempt b | none => .recover

/-! ### FW_STATUS -/

/-- The slot that the record selects. -/
def BootRec.selected (r : BootRec) : Bool := match r.pick with | .attempt b => b | .drop b => !b | .recover => false

/-- The 16 bytes of a slot. -/
def slotStatus (f : FwState) (b : Bool) : List Byte :=
  let i := f.image b
  leBytes 1 (f.boot.st b).ctorIdx ++ padTo 3 (slice i 8 3) ++ leBytes 4 0 ++ leBytes 8 (imgRollback i)

/-- FW_STATUS. -/
def fwStatus (_ : List Byte) (s : State) : Answer :=
  .ok (leBytes 1 (flag s.fw.runB 0) ++ leBytes 1 (flag s.fw.boot.selected 0) ++ leBytes 6 0 ++ slotStatus s.fw false ++
    slotStatus s.fw true ++ leBytes 16 s.fuse.rollbackCount)

def execFwStatus (chan : Nat) (s : State) : Host.Outcome State Fault Refusal := .next (serveRead chan 0x0A06 fwStatus s)

/-! ### A trial that gives up (R398) -/

/-- FW_TRIAL_TIMEOUT: the other slot is named, and the data die reset once the owned groups are handed over. -/
def fwTrialTimeout (s : State) : State :=
  let run := s.fw.runB
  if s.ddUp && s.fw.boot.st run == .trial then
    let name (r : BootRec) : BootRec :=
      let r1 := r.setSt run .invalid
      if r1.st (!run) = .invalid then r1 else r1.setSt (!run) .active
    let s1 := putBoot name s
    resetFor true 3 { s1 with fw := { s1.fw with trialGaveUp := true } }
  else s

def execFwTrialTimeout (s : State) : Host.Outcome State Fault Refusal := .next (fwTrialTimeout s)

/-! ### Jobs that finish (R383) -/

/-- What a job's end brings beside its event. -/
def jobEffect (j : Job) (s : State) : State :=
  if j.opcode = 0x0202 then nsGone j.subject s
  else if j.opcode = 0x0603 then genRetire j.subject j.arg s
  else if j.opcode = 0x0906 then saveParams s
  else if j.opcode = 0x0A03 then (if j.status = Code.stOk then verified (j.subject == 1) s else s)
  else s

/-- JOB_DONE. -/
def jobDone (n : Nat) (s : State) : State :=
  match s.mbx.jobs.find? fun j => j.num == n && j.running with
  | some j => if s.ddRuns then jobFinish n (jobEffect j s) else s
  | none => s

def execJobDone (job : Nat) (s : State) : Host.Outcome State Fault Refusal := .next (jobDone job s)

end Sys2Proof.Machine
end

