-- ==== Sys2Proof/Machine/Modes.lean ====
section
/-! DEFINITION. The mode commands, wakes, entry into ISLAND and exit from it, CONTAINED, core voltage, the island supply, the
watchdog, and the resets of the two dies (15 Operating modes, 16, 17 Balls). -/

namespace Sys2Proof.Machine

/-! ### MODE_STATUS, WAKE_CONFIG, ISLAND_TIME (R475) -/

/-- MODE_STATUS. -/
def modeStatusBody (_ : List Byte) (s : State) : Answer :=
  let m := s.mode
  let ent := match m.entering with | none => 0 | some t => t.ctorIdx + 1
  .ok (leBytes 1 m.mode.ctorIdx ++ leBytes 1 ent ++ leBytes 1 (flag m.hold 0) ++ leBytes 1 m.cause ++ leBytes 1 m.latch ++
    leBytes 1 m.last ++ leBytes 2 0 ++ leBytes 8 m.lastEntry ++ leBytes 2 m.avsTarget ++ leBytes 2 m.avsAcked)

def execModeStatus (chan : Nat) (s : State) : Host.Outcome State Fault Refusal := .next (serveRead chan 0x0701 modeStatusBody s)

/-- WAKE_CONFIG. ALARM is a 48-bit count. -/
def wakeConfig (b : List Byte) (s : State) : Answer × State :=
  if 15 < byteAt b 1 || 15 < byteAt b 2 || 2 ^ 48 ≤ leAt b 8 8 then (.st Code.stRange, s)
  else
    let s1 := ((s.changeParam 0x9201 (byteAt b 0)).changeParam 0x9202 (byteAt b 1)).changeParam 0x9203 (byteAt b 2)
    (.ok, s1.modMode fun m => { m with alarm := leAt b 8 8 })

def execWakeConfig (chan : Nat) (s : State) : Host.Outcome State Fault Refusal := .next (serve chan 0x0703 wakeConfig s)

/-- ISLAND_TIME. -/
def islandTimeBody (_ : List Byte) (s : State) : Answer :=
  let m := s.mode
  .ok (leBytes 8 s.island ++ leBytes 8 m.ce ++ leBytes 8 m.cd ++ leBytes 8 m.te ++ leBytes 8 m.ei ++ leBytes 4 m.uncUs ++
    leBytes 8 (twos 64 m.ef) ++ leBytes 1 s.resumeFlags)

def execIslandTime (chan : Nat) (s : State) : Host.Outcome State Fault Refusal := .next (serveRead chan 0x0704 islandTimeBody s)

/-! ### Wakes (R463, R464) -/

/-- The source is enabled (R463). -/
def State.wakeOn (s : State) (i : Nat) : Bool := (s.paramN 0x9201).testBit i

/-- WAKE_INPUT_QUALIFY: the inputs as debounced. An edge source qualifies as it becomes active; a level source while active,
unless it was replayed and has not been released since. -/
def wakeInputQualify (levels : Nat) (s : State) : State :=
  let was := s.wakeActive
  let s1 := s.modMode fun m => { m with wakeIn := levels % 16 }
  let now := s1.wakeActive
  let s2 := s1.modMode fun m => { m with levelHeld := m.levelHeld &&& now }
  let fires (i : Nat) : Bool :=
    bit now i && s.wakeOn i && (if (s.paramN 0x9203).testBit i then !bit s2.mode.levelHeld i else !bit was i)
  latchWakes (((List.range 4).filter fires).map (2 ^ ·)).sum s2

def execWakeInputQualify (levels : Nat) (s : State) : Host.Outcome State Fault Refusal := .next (wakeInputQualify levels s)

/-- ISLAND_ALARM. -/
def islandAlarm (s : State) : State := if s.island = s.mode.alarm && s.wakeOn 6 then latchWake 6 s else s

def execIslandAlarm (s : State) : Host.Outcome State Fault Refusal := .next (islandAlarm s)

/-- WAKE_LATCH_CLEAR: a W1C write of PWR_WAKE_LATCH. -/
def wakeLatchClear (mask : Nat) (s : State) : State := s.modMode fun m => { m with latch := w1c m.latch mask % 256 }

def execWakeLatchClear (mask : Nat) (s : State) : Host.Outcome State Fault Refusal := .next (wakeLatchClear mask s)

/-! ### MODE_REQUEST (R456 to R461, R465, R475) -/

/-- The wake source of a channel: MP or SMBus, when enabled (R463). -/
def State.chanWake (s : State) (chan : Nat) : Option Nat :=
  if s.transport chan = 2 && s.wakeOn 4 then some 4 else if s.transport chan = 3 && s.wakeOn 5 then some 5 else none

/-- The status of a request. -/
def modeAnswer (chan target : Nat) (s : State) : Nat :=
  let m := s.mode.mode
  let inService := m = .standby || m = .owner || m = .partner
  if target = 3 || 5 < target then Code.stRange
  else if s.mode.entering.isSome || s.mode.resetAfter.isSome then Code.stBusy
  else if target = 5 then
    (if m = .standby && s.sys.prov && s.fuse.lifecycle ≤ 1 then Code.stOk else Code.stLocked)
  else if m = .island then
    (if (target = 1 || target = 2) && (s.chanWake chan).isSome && !s.pins.overtempHold then Code.stOk else Code.stMode)
  else if target = 0 then
    (if !inService then Code.stMode
     else if s.wakeActive &&& s.paramN 0x9203 &&& s.paramN 0x9201 ≠ 0 then Code.stBusy else Code.stOk)
  else if target = 1 then (if inService || m = .provision then Code.stOk else Code.stMode)
  else if inService then Code.stOk else Code.stMode

/-- HOLD as an accepted request leaves it. A controller that leaves service before a commit's boundary applies none of it (R11;
DEDUCED, log 42). -/
def setHoldBit (target : Nat) (s : State) : State :=
  let s1 := if target = 1 && !s.mode.hold then { s with par := { s.par with commits := [] } } else s
  s1.modMode fun m => { m with hold := if target = 1 then true else if target = 2 then false else m.hold }

/-- An accepted request for STANDBY or SERVICE on MP or SMBus is a wake (R463). -/
def chanWakes (chan target : Nat) (s : State) : State :=
  match s.chanWake chan with
  | some i => if target = 1 || target = 2 then latchWake i s else s
  | none => s

/-- What an accepted request starts. -/
def modeStart (chan target : Nat) (s : State) : State :=
  let m := s.mode.mode
  let s1 := setHoldBit target s
  if target = 5 then modeEntered .provision 0 s1
  else if target = 4 then enterContained 7 s1
  else if target = 0 then leaveStart (s1.modMode fun m => { m with entering := some .island, byFeedLoss := false })
  else if target = 1 && (m = .owner || m = .partner) then
    leaveStart (chanWakes chan target (s1.modMode fun m => { m with entering := some .standby }))
  else if target = 1 && m = .provision then chanWakes chan target (modeEntered .standby 0 s1)
  else modeFollow (chanWakes chan target s1)

/-- MODE_REQUEST; the answer goes before what it starts. -/
def modeRequest (chan : Nat) (s : State) : State :=
  let target := byteAt (reqBody (s.chan chan).req) 0
  let st := modeAnswer chan target s
  serveThen chan 0x0702 (fun _ s => (some (.st st), s)) (fun t => if st = Code.stOk then modeStart chan target t else t) s

def execModeRequest (chan : Nat) (s : State) : Host.Outcome State Fault Refusal := .next (modeRequest chan s)

/-! ### What the AON controller answers itself (R382) -/

/-- The AON controller's execution of a request that the data die has not taken. -/
def aonRun (chan opcode : Nat) (b : List Byte) (s : State) : Answer × State :=
  if opcode = 0x0101 then (.ok (identifyBody false s), s)
  else if opcode = 0x0301 then (bayStatus b s, s)
  else if opcode = 0x0302 && byteAt b 1 == 0 then bayPower b s
  else if opcode = 0x0701 then (modeStatusBody b s, s)
  else if opcode = 0x0702 then (.st (modeAnswer chan (byteAt b 0) s), s)
  else if opcode = 0x0703 then wakeConfig b s
  else if opcode = 0x0704 then (islandTimeBody b s, s)
  else if opcode = 0x0801 then (bbxReadBody b s, s)
  else if opcode = 0x0110 then (fuseStatusBody b s, s)
  else (.st Code.stMode, s)

/-- MBX_AON_WITHDRAW: the AON controller withdraws the request, checks it (R377) and answers it. -/
def mbxAonWithdraw (chan : Nat) (s : State) : State :=
  let ch := s.chan chan
  if !ch.aonHeld || ch.state ≠ .busy then s
  else
    let s1 := s.modChan chan fun h => { h with aonHeld := false }
    match requestError chan ch.req s1 with
    | some st => answer chan st 0 [] s1
    | none =>
      let op := reqOpcode ch.req
      let r := aonRun chan op (reqBody ch.req) s1
      let s2 := answer chan r.1.status r.1.detail r.1.body r.2
      if op = 0x0702 && r.1.status = Code.stOk then modeStart chan (byteAt (reqBody ch.req) 0) s2 else s2

def execMbxAonWithdraw (chan : Nat) (s : State) : Host.Outcome State Fault Refusal := .next (mbxAonWithdraw chan s)

/-! ### CONTAINED (R457) -/

/-- SRAM_ECC_ERROR in a region, by number: 0 stripe journal, 1 context, 2 map cache; another region is no cause. -/
def execSramEccError (region : Nat) (s : State) : Host.Outcome State Fault Refusal :=
  .next (if region < 3 then enterContained 2 s else s)

/-- DRAM_ECC_ERROR in a line, by number: 0 map, 1 band table; another line is no cause. -/
def execDramEccError (line : Nat) (s : State) : Host.Outcome State Fault Refusal :=
  .next (if line < 2 then enterContained 3 s else s)

/-- INVARIANT_BREAK. -/
def execInvariantBreak (s : State) : Host.Outcome State Fault Refusal := .next (enterContained 4 s)

/-- DIE_CRITICAL_TEMP. -/
def execDieCriticalTemp (s : State) : Host.Outcome State Fault Refusal := .next (enterContained 6 s)

/-! ### ISLAND (R461, R462, R464) -/

/-- ISLAND_ENTRY_COMPLETE: MAIN_PG has been low for 1 ms. The mode is ISLAND, the bay channels hold their gates off (R15), and
the latch is replayed. -/
def islandEntryComplete (s : State) : State :=
  if s.mode.entering = some .island && s.pins.ddReset && !s.pins.mainEn then
    modeEntered .island 0 (disableAllBays (s.modMode fun m => { m with mainPg := false }))
  else s

def execIslandEntryComplete (s : State) : Host.Outcome State Fault Refusal := .next (islandEntryComplete s)

/-- ISLAND_EXIT: the bus is qualified and the regulators are discharged. After an entry by feed loss that is the FEED wake
(R463). With a wake pending, MAIN_EN is asserted and the latch cleared; the core regulator starts at 0.80 V (R466). -/
def islandExit (s : State) : State :=
  if !(s.mode.mode = .island && s.mode.entering.isNone) || s.pins.pwronLow then s
  else
    let s1 := if s.mode.byFeedLoss && s.wakeOn 7 then latchWake 7 s else s
    if s1.mode.latch = 0 then s1
    else
      let m := s1.mode
      { s1 with
        mode := { m with entering := some .standby, latch := 0, byFeedLoss := false, avsTarget := 800, avsAcked := 800 }
        pins := { s1.pins with mainEn := true } }

def execIslandExit (s : State) : Host.Outcome State Fault Refusal := .next (islandExit s)

/-- MAIN_PG_RISE. -/
def mainPgRise (s : State) : State := if s.pins.mainEn then s.modMode fun m => { m with mainPg := true } else s

def execMainPgRise (s : State) : Host.Outcome State Fault Refusal := .next (mainPgRise s)

/-- MAIN_PG_TIMEOUT: MAIN_EN is removed; the controller stays in ISLAND, the wake consumed (R522). A wake that came meanwhile is
replayed (R464). -/
def mainPgTimeout (s : State) : State :=
  if s.pins.mainEn && !s.mode.mainPg then
    let s1 := { s with mode := { s.mode with entering := none }, pins := { s.pins with mainEn := false } }
    actOnWake true (bbx 0 Code.fcMainPgFail Kind.none 0 [] s1)
  else s

def execMainPgTimeout (s : State) : Host.Outcome State Fault Refusal := .next (mainPgTimeout s)

/-- An entry into ISLAND that no handover precedes, after its own record (R522, R523). -/
def islandAtOnce (fc : Nat) (detail : List Int) (s : State) : State :=
  islandSteps (bbx 0 fc Kind.none 0 detail (s.modMode fun m => { m with byFeedLoss := false, resetAfter := none }))

/-- MAIN_PG_FALL: FC_MAIN_PG_LOST carries the mode and whether a flush was under way (R532). With MAIN_EN low it is what the
removal brings (R461, R522). -/
def mainPgFall (s : State) : State :=
  let s1 := s.modMode fun m => { m with mainPg := false }
  if s.pins.mainEn && s.mode.mainPg then
    islandAtOnce Code.fcMainPgLost [s.mode.mode.ctorIdx, flag (s.flush.active && s.flush.before.isNone) 0] s1
  else s1

def execMainPgFall (s : State) : Host.Outcome State Fault Refusal := .next (mainPgFall s)

/-- DIE_OVERTEMP_SHUTDOWN at a junction temperature above 125 °C: the power die acts alone, and refuses wakes (R523). -/
def dieOvertemp (tempC : Nat) (s : State) : State :=
  if s.pins.mainEn && 125 < tempC then
    islandAtOnce Code.fcOvertemp [tempC] { s with mode := { s.mode with latch := 0 }, pins := { s.pins with overtempHold := true } }
  else s

def execDieOvertempShutdown (tempC : Nat) (s : State) : Host.Outcome State Fault Refusal := .next (dieOvertemp tempC s)

/-- OVERTEMP_WAKE_HOLD_END. -/
def execOvertempWakeHoldEnd (s : State) : Host.Outcome State Fault Refusal :=
  .next { s with pins := { s.pins with overtempHold := false } }

/-- POST_FLUSH_RESET: the bus has stayed up for 20 ms after a flush that has ended (R494). -/
def postFlushReset (s : State) : State :=
  if s.flush.active && s.flush.before.isSome && !s.pwr.collapse && s.mode.entering ≠ some .island then dataDieReset 5 s else s

def execPostFlushReset (s : State) : Host.Outcome State Fault Refusal := .next (postFlushReset s)

/-! ### DD_RST_RELEASE (R473, R474, R490) -/

/-- The last fabric time in the black box (R474). -/
def BbxState.lastTime (b : BbxState) : Nat := (b.ring.getLast?.map BbxRec.ftime).getD 0

/-- DD_RST_RELEASE: C_d is captured, the fabric time handed over is the last known one plus the island time since (R34), the island estimate
is made, and the watchdog armed. -/
def ddRstRelease (s : State) : State :=
  if !s.pins.ddReset || !s.pins.mainEn || !s.mode.mainPg || s.mode.entering = some .island then s
  else
    let cd := s.island
    let m := s.mode
    let stay := (cd + 2 ^ 48 - m.ce) % 2 ^ 48 * 1000000000 / 32768
    let ei := if m.cntValid then stay else 0
    let gone := (cd + 2 ^ 48 - m.lastIsl) % 2 ^ 48 * 1000000000 / 32768
    let now := if m.cntValid then m.lastFab + gone else s.bbx.lastTime
    renumber { s with
      mode := { m with cd, ei, ef := 0, efUsed := false, unknown := !m.cntValid,
                       uncUs := if m.cntValid then ei * 20 / 1000000000 + 61 else 0, resumeOpen := true }
      time := { s.time with fab := now * 2 ^ 32 }
      pins := { s.pins with ddReset := false, lastBeat := s.clock, lastBeatNs := now } }

def execDdRstRelease (s : State) : Host.Outcome State Fault Refusal := .next (ddRstRelease s)

/-! ### The watchdog (R490) -/

/-- DD_BEAT_EDGE. -/
def ddBeatEdge (s : State) : State :=
  if s.pins.ddReset then s else { s with pins := { s.pins with lastBeat := s.clock, lastBeatNs := s.aonStamp } }

def execDdBeatEdge (s : State) : Host.Outcome State Fault Refusal := .next (ddBeatEdge s)

/-- WATCHDOG_EXPIRY. Giving up skips steps 1 and 2 of R461; the bay channels follow when ISLAND is reached (R15, R430; DEDUCED,
log 46). The reset that would make the count reach the limit is the one that gives up (DEDUCED, log 40). -/
def watchdogExpiry (s : State) : State :=
  if s.pins.ddReset then s
  else
    let recent := s.pins.dogResets.filter fun c => s.clock < c + 600 * 1600000000
    if s.paramN 0xA002 ≤ recent.length + 1 then
      islandTail (bbx 0 Code.fcWatchdogGiveup Kind.none 0 []
        { s with pins := { s.pins with dogResets := recent }, mode := { s.mode with byFeedLoss := false, resetAfter := none } })
    else
      let s1 := dataDieReset 1 (bbx 0 Code.fcWatchdog Kind.none 0 [s.pins.lastBeatNs] s)
      { s1 with mode := { s1.mode with resetAfter := none }, pins := { s1.pins with dogResets := recent ++ [s.clock] } }

def execWatchdogExpiry (s : State) : Host.Outcome State Fault Refusal := .next (watchdogExpiry s)

/-! ### Core voltage (R467 to R469) -/

/-- The next request on the way to a goal: at most 25 mV from the last acknowledged voltage. -/
def avsStep (acked goal : Nat) : Nat := if acked < goal then Nat.min goal (acked + 25) else Nat.max goal (acked - 25)

/-- A request goes out with its repeats ahead of it. -/
def avsSend (goal why : Nat) (s : State) : State :=
  let mv := avsStep s.mode.avsAcked goal
  let r : AvsReq := { mv, goal, raise := decide (s.mode.avsAcked < goal), left := s.paramN 0x9206, why }
  (s.modMode fun m => { m with avs := some r, avsTarget := mv }).emit (.avs mv)

/-- A voltage in 5 mV steps within the range. -/
def avsRange (mv : Nat) : Bool := 650 ≤ mv && mv ≤ 850 && mv % 5 == 0

/-- OPERATING_POINT_VOLTAGE: a need for a voltage, above the acknowledged one (by the running point, or by a mode entry that
waits for it) or below. A request under way goes on to the new goal. Not used during entry into ISLAND. -/
def operatingPoint (mv : Nat) (forEntry : Bool) (s : State) : State :=
  let why := if s.mode.avsAcked < mv then (if forEntry then 0 else 1) else 2
  if !s.ddUp || !avsRange mv || s.mode.entering = some .island then s
  else match s.mode.avs with
    | some r => s.modMode fun m => { m with avs := some { r with goal := mv, why }, avsLower := none }
    | none => if mv = s.mode.avsAcked then s else avsSend mv why (s.modMode fun m => { m with avsLower := none })

def execOperatingPointVoltage (mv : Nat) (forEntry : Bool) (s : State) : Host.Outcome State Fault Refusal :=
  .next (operatingPoint mv forEntry s)

/-- AVS_RESPONSE: acknowledged, and read back within 15 mV: the voltage is in force, and the next step goes. Otherwise the
request stays unacknowledged. -/
def avsResponse (ack : Bool) (readMv : Nat) (s : State) : State :=
  match s.mode.avs with
  | none => s
  | some r =>
    if ack && r.mv ≤ readMv + 15 && readMv ≤ r.mv + 15 then
      let s1 := s.modMode fun m => { m with avs := none, avsAcked := r.mv }
      if r.mv = r.goal then s1 else avsSend r.goal r.why s1
    else s

def execAvsResponse (ack : Bool) (readMv : Nat) (s : State) : Host.Outcome State Fault Refusal := .next (avsResponse ack readMv s)

/-- A mode entry is abandoned and the controller stays in its previous mode; from ISLAND that is with the data die in reset and
unpowered again and the bay channels off (R15, R469). The wakes latched meanwhile are replayed (R464). -/
def abandonEntry (s : State) : State :=
  if s.mode.mode = .island then
    let s1 := dataDieReset 4 (disableAllBays s)
    actOnWake true { s1 with mode := { s1.mode with entering := none }, pins := { s1.pins with mainEn := false } }
  else modeFollow (actOnWake true (s.modMode fun m => { m with entering := none }))

/-- A request has exhausted its repeats (R469). -/
def avsFailed (r : AvsReq) (s : State) : State :=
  let s1 := s.modMode fun m => { m with avs := none, avsTarget := m.avsAcked }
  let s2 := raise Code.evPwrAvsFault Kind.none 0 [] (bbx 0 Code.fcAvsNoack Kind.none 0 [r.mv] s1)
  if !r.raise then s2.modMode fun m => { m with avsLower := some r.goal }
  else if r.why = 0 then abandonEntry s2
  else enterContained 5 s2

/-- AVS_TIMEOUT: sent again, or given up. -/
def avsTimeout (s : State) : State :=
  match s.mode.avs with
  | none => s
  | some r =>
    if r.left = 0 then avsFailed r s
    else (s.modMode fun m => { m with avs := some { r with left := r.left - 1 } }).emit (.avs r.mv)

def execAvsTimeout (s : State) : Host.Outcome State Fault Refusal := .next (avsTimeout s)

/-- AVS_LOWER_RETRY. -/
def avsLowerRetry (s : State) : State :=
  match s.mode.avsLower, s.mode.avs with
  | some goal, none =>
    if s.ddUp && goal < s.mode.avsAcked then avsSend goal 2 (s.modMode fun m => { m with avsLower := none }) else s
  | _, _ => s

def execAvsLowerRetry (s : State) : Host.Outcome State Fault Refusal := .next (avsLowerRetry s)

/-! ### The power die's own resets (R450, R470, R472, R476, R487, R489, R508, R518, R520) -/

/-- A power-die reset: the black box is scanned, OTP read, every register of the power die at its reset value; the data die is
held in reset. What the supply pins give stays. -/
def powerDieReset (s : State) : State :=
  let s1 := dataDieReset 0 s
  let m : ModeState := { islZero := s1.mode.islZero, source := s1.mode.source, aux := s1.mode.aux, poe := s1.mode.poe,
                         poeClass := s1.mode.poeClass }
  let pins : PinState := { mpPhyUp := s1.pins.mpPhyUp, pwronLow := s1.pins.pwronLow }
  let s2 := { s1 with
    mode := m, pins, bbx := { bbxScan s1.bbx with ftime := 0, ftimeAt := 0, lastFc := 0, lastFcSeq := 0 }
    pwr := {}, wit := {}, par := { s1.par with vals := [] }
    fw := { s1.fw with trialGaveUp := false, halted := false }
    mbx := {} }
  loadOtp s2

/-- POWER_DIE_RESET. -/
def execPowerDieReset (s : State) : Host.Outcome State Fault Refusal := .next (powerDieReset s)

/-- PWRON_RESET_ASSERT: the whole device is held in reset; a flush under way ends. -/
def pwronAssert (s : State) : State :=
  let s1 := powerDieReset s
  { s1 with pins := { s1.pins with pwronLow := true, mpPhyUp := false } }

def execPwronResetAssert (s : State) : Host.Outcome State Fault Refusal := .next (pwronAssert s)

/-- PWRON_RESET_RELEASE: the straps are sampled, the controller starts in ISLAND, and a FEED wake is latched whatever the enables
hold (R515, R520). An open strap is whatever the sender gives (R516). -/
def pwronRelease (slotB prov bootSel : Bool) (shelf : Nat) (s : State) : State :=
  if !s.pins.pwronLow then s
  else
    let s1 := powerDieReset s
    let s2 := { s1 with sys := { s1.sys with slotB, prov, bootSel, shelf := shelf % 64 },
                        mode := { s1.mode with entering := none }, pins := { s1.pins with pwronLow := false },
                        bbx := { s1.bbx with ddResets := s.bbx.ddResets } }
    latchWake 7 s2

def execPwronResetRelease (slotB prov bootSel : Bool) (shelf : Nat) (s : State) : Host.Outcome State Fault Refusal :=
  .next (pwronRelease slotB prov bootSel shelf s)

/-- MP_PHY_RESET_RELEASE (R518). -/
def mpPhyRelease (s : State) : State := if s.pins.pwronLow then s else { s with pins := { s.pins with mpPhyUp := true } }

def execMpPhyResetRelease (s : State) : Host.Outcome State Fault Refusal := .next (mpPhyRelease s)

/-- VAON is lost: the last gasp, then everything stops; the island counter and the copy of the WITNESS key go (R355, R470, R472,
R487). The device is held until PWRON_RST_N rises again (R520). -/
def vaonLoss (s : State) : State :=
  let s1 := dataDieReset 0 (lastGasp s)
  { s1 with
    mode := { s1.mode with islZero := s.clock, cntValid := false, source := 0, aux := false, poe := false, poeClass := 0,
                           mainPg := false, entering := none, mode := .island }
    bbx := { s1.bbx with queue := [] }
    pwr := {}
    wit := { s1.wit with key := none }
    pins := { s1.pins with pwronLow := true, mpPhyUp := false, mainEn := false } }

def execVaonLoss (s : State) : Host.Outcome State Fault Refusal := .next (vaonLoss s)

/-- The source that VAON is taken from (R470): 0 AUX_12V, 1 PoE, 2 the bus. -/
def vaonSource (aux poe : Bool) : Nat := if aux then 0 else if poe then 1 else 2

/-- ISLAND_SUPPLY_CHANGE: with neither source and no bus, VAON fails. -/
def islandSupply (aux poe : Bool) (poeClass : Nat) (s : State) : State :=
  let noBus := s.pwr.feedA.st = .absent && s.pwr.feedB.st = .absent
  let src := vaonSource aux poe
  let s1 := s.modMode fun m => { m with aux, poe, poeClass := if poe then poeClass % 16 else 0, source := src }
  if !aux && !poe && noBus then vaonLoss s1
  else if src = s.mode.source then s1
  else raise Code.evPwrIslandSource Kind.none 0 [] s1

def execIslandSupplyChange (aux poe : Bool) (poeClass : Nat) (s : State) : Host.Outcome State Fault Refusal :=
  .next (islandSupply aux poe poeClass s)

end Sys2Proof.Machine
end

