-- ==== Sys2Proof/Machine/Boot.lean ====
section
/-! DEFINITION. Primer's choice of an image, the start of the firmware, and STANDBY (R367, R368, R393, R398, R404, R446, R450,
R464, R505 to R510). -/

namespace Sys2Proof.Machine

/-! ### Primer (R505 to R507) -/

/-- A slot has been rejected in this boot. -/
def rejected (s : State) : State := { s with fw := { s.fw with fallback := true } }

/-- Primer tries images until one starts: none means recovery without a choice. Each turn marks a slot INVALID or uses up an
attempt, so `n` turns are enough. -/
def primerChoose : Nat → State → Option Bool × State
  | 0, s => (none, s)
  | n + 1, s =>
    match s.fw.boot.pick with
    | .recover => (none, s)
    | .drop b => primerChoose n (rejected (putBoot (BootRec.setSt b .invalid) s))
    | .attempt b =>
      let s0 := if s.fw.boot.st b = .standby then rejected s else s
      let s1 := putBoot (fun r => r.setAtt b (Nat.min 255 (r.att b + 1))) s0
      match imageFails s1.fuse (s1.fw.image b) with
      | none => (some b, s1)
      | some why =>
        let s2 := putBoot (BootRec.setSt b .invalid) s1
        primerChoose n (rejected (bbx 2 Code.fcBootFallback Kind.none (if b then 1 else 0) [if b then 1 else 0, why] s2))

/-- A verified retirement image: the RETIRED group is blown, FC_RETIRED, and Primer halts. -/
def primerRetire (s : State) : State :=
  let s1 := s.modFuse fun f => { f with retired := f.retired ||| 0xFF }
  bbx 2 Code.fcRetired Kind.none 0 [] { s1 with fw := { s1.fw with halted := true } }

/-- Recovery (R507). -/
def primerRecovery (s : State) : State := { s with fw := { s.fw with recovery := true, running := true } }

/-! ### The cipher engine's start (R348, R350, R351, R355, R365, R368) -/

/-- Bits set among the lowest 48. -/
def pipeCount (m : Nat) : Nat := ((List.range 48).filter fun i => m.testBit i).length

/-- The self-test's outcome: the pipelines that pass, and Keying. The PAD label gets a random context. -/
def cipherStart (pipes : Nat) (keyingOk : Bool) (s : State) : State :=
  let dis := (2 ^ 48 - 1) ^^^ (pipes % 2 ^ 48)
  let good := s.fuse.rootSt = .good || s.fuse.rootSt = .corrected
  let s1 := s.modCiph fun c =>
    { c with pipes := pipeCount pipes, pipeDis := dis, rootOk := good, entropyOk := true, keying := keyingOk,
             evt := if dis = 0 then c.evt else setBit c.evt 2 }
  let ctx := leBytes 16 (s1.random 128)
  let s2 := copyWitnessKey (fabricLabels (setLabel 3072 (mkLabel 4 1 0 0 0 ctx) (drawRandom s1)))
  let s3 := if dis = 0 then s2 else raise Code.evCiphSelftestFail Kind.none 0 [] s2
  if s.fuse.rootSt = .uncorrectable then rootKeyFault s3 else s3

/-! ### The firmware's start -/

/-- The events that waited for the data die (R398, R446, R464, R494, R506, R510). -/
def tellPending (s : State) : State :=
  let s1 := match s.flush.before with
    | some r => raise Code.evPfailFlushed Kind.none 0 r { s with flush := { s.flush with before := none } }
    | none => s
  let s2 := if s1.fw.reason = 1 then raise Code.evWatchdogReset Kind.none 0 [] s1 else s1
  let s3 := if s2.fw.fallback then raise Code.evBootFallback Kind.none 0 [] s2 else s2
  let s4 := if s3.fw.trialGaveUp then
      raise Code.evFwTrialFailed Kind.none 0 [] { s3 with fw := { s3.fw with trialGaveUp := false } }
    else s3
  let s5 := if s4.pwr.collapseTold then s4
    else raise Code.evFeedCollapse Kind.none 0 [] { s4 with pwr := { s4.pwr with collapseTold := true } }
  match s5.mode.replayTell with
  | some b => raise Code.evModeWakeReplayed Kind.none 0 [b] (s5.modMode fun m => { m with replayTell := none })
  | none => s5

/-- The saved parameters are written, and the bay channels may start (R393, R450). HOLD follows the `pwr.service.auto` of the
store when the power die was not loaded before (R456; DESIGN CHOICE, log 41). -/
def parametersLoaded (s : State) : State :=
  let first := !s.pwr.loaded
  let s1 := loadParams s
  let s2 := if s1.par.loadedFromStore then s1 else raise Code.evMbxParamDefaults Kind.none 0 [] s1
  let s3 := { s2 with pwr := { s2.pwr with loaded := true } }
  let s4 := if first then s3.modMode fun m => { m with hold := decide (s3.paramN 0x9200 = 0) } else s3
  autostartAll s4

/-- This controller alone is its own grandmaster (R41). -/
def timeStart (s : State) : State :=
  refreshClass (renumber (s.modTime fun t =>
    { t with gm := true, gmDev := s.fuse.deviceId, gmCls := s.ownClass, upDev := s.fuse.deviceId, hops := 0 }))

/-- The image in a slot starts. -/
def firmwareStart (slotB : Bool) (pipes : Nat) (keyingOk : Bool) (s : State) : State :=
  let s1 := { s with fw := { s.fw with running := true, runB := slotB } }
  let s2 := timeStart (parametersLoaded s1)
  let s3 := if s2.ep.perst then s2 else setCfgReady true s2
  releaseAllBays (tellPending (cipherStart pipes keyingOk (chooseAddr s3)))

/-- PRIMER_BOOT: `pipes` and `keyingOk` are the results of the self-test of R368. -/
def primerBoot (pipes : Nat) (keyingOk : Bool) (s : State) : State :=
  if s.pins.ddReset || s.fw.running || s.fw.halted then s
  else if s.fuse.lifecycle = 3 then { s with fw := { s.fw with halted := true } }
  else if s.sys.bootSel then primerRecovery s
  else match primerChoose 12 s with
    | (none, s1) => primerRecovery (bbx 2 Code.fcBootFail Kind.none 0 [] s1)
    | (some b, s1) => if imgType (s1.fw.image b) = 1 then primerRetire s1 else firmwareStart b pipes keyingOk s1

def execPrimerBoot (pipes : Nat) (keyingOk : Bool) (s : State) : Host.Outcome State Fault Refusal :=
  .next (primerBoot pipes keyingOk s)

/-- STANDBY_REACHED: the running slot's attempts are 0 again, and the mode is STANDBY (R459, R506). It waits for a raise that the
entry needs (R468). -/
def standbyReached (s : State) : State :=
  if s.ddUp && s.mode.entering = some .standby && s.mode.toHand.isEmpty && s.mode.avs.all (fun r => r.why != 0) then
    modeEntered .standby s.mode.cause (putBoot (BootRec.setAtt s.fw.runB 0) s)
  else s

def execStandbyReached (s : State) : Host.Outcome State Fault Refusal := .next (standbyReached s)

end Sys2Proof.Machine
end

