-- ==== Sys2Proof/Machine/Boundaries.lean ====
section
/-! DEFINITION. The boundaries that the TIME block delivers, and steps of fabric time (R35 to R37, R51 to R53). A command that
delivers a boundary lets real time pass up to it. -/

namespace Sys2Proof.Machine

/-! ### What a boundary brings -/

/-- A slot boundary: gates follow the new slot (R35, R300). -/
def slotWork (s : State) : State := refreshAll s

/-- Renewals of the leases at a frame whose number is a multiple of R (R326). A controller that has lost its lease goes on
asking (R327). -/
def renewals (s : State) : State :=
  if s.tregs.frameSeen % Nat.max 1 s.leaseR ≠ 0 then s
  else ((List.range 6).filter fun gi => (s.role gi).owns || s.role gi == .leaseLost).foldl (fun s gi => renewLease gi s) s

/-- The AON controller receives fabric time at every frame boundary over the package link (R482). -/
def tellAon (s : State) : State :=
  if s.sys.linkUp then { s with bbx := { s.bbx with ftime := s.nowNs, ftimeAt := s.clock } } else s

/-- A frame boundary: read-around credits (R196), the rebuild floor (R262), Hawk's decay count (R126), Skim (R201), renewals
(R326), mounts (R171), and what the AON controller is told (R482). -/
def frameWork (s : State) : State :=
  let c := s.bayCredits
  let s1 := s.modTregs fun r => { r with frames := r.frames + 1 }
  let s2 := s1.modFlash fun f => { f with bays := f.bays.map fun b => { b with credits := c }, decayFrames := f.decayFrames + 1 }
  let s3 := { s2 with groups := s2.groups.map fun g => { g with rebuildCharged := 0 } }
  renewals (skimFrame (tellAon ((List.range 6).foldl (fun s g => formOwn g s) (mountsGoOn s3))))

/-- A turn boundary: the dead interval ends (R51), commits apply (R11, R12), reads between operations count anew (R193), and
handovers move on (R341). -/
def turnWork (s : State) : State :=
  let s1 := s.modTime fun t => { t with stepPending := false }
  let s2 := s1.modTregs fun r => { r with turns := r.turns + 1 }
  let s3 := s2.modFlash fun f => { f with dies := f.dies.map fun d => { d with reads := flag d.reading.isSome 0 } }
  actOnDue (handoverTurns (refreshAll (applyCommits s3)))

/-! ### Steps (R51) -/

/-- Frames in transmission whose class's gate is closed in the new time (R302). -/
def gateOverruns (s : State) : State :=
  (s.net.scheds.filter fun x => decide (x.port < 12) && decide (s.clock < x.sendEnd) && !s.gateOpen x.port x.sending s.slotNow).foldl
    (fun s x =>
      let s1 := netEvt x.port 3 (netCount Nc.gateOverrun x.port x.sending s)
      if s1.passed (s1.netPort x.port).overrunTold 60000000 then
        raise Code.evNetGateOverrun Kind.port x.port [x.sending]
          (s1.modPort x.port fun y => { y with overrunTold := some s1.clock })
      else s1) s

/-- A slew rate within the limit, in either direction: what is left of the offset after a step is not known (R50, R53). -/
def anySlew (s : State) : State :=
  let limit : Nat := s.paramN 0x1017 * 1000
  let rate : Int := (s.freeNat % (2 * limit + 1) : Nat) - (limit : Int)
  (((leaveHoldover s).modTime fun t => { t with servo := .slewing }).setRate s.time.corrPpb rate).drew

/-- The step itself: fabric time, the dead interval, TIME_STEP, the event, one frame and one slot boundary. A backward step ends at
0 at the earliest, and TIME_STEP is d in µs rounded toward zero and saturating (the spec states neither: DESIGN CHOICE, log
126). -/
def stepNow (d : Int) (s : State) : State :=
  let fab := ((s.time.fab : Int) + d * 2 ^ 32).toNat
  let s1 := s.modTime fun t => { t with fab, stepPending := true, stepDue := none }
  let s2 := s1.modTregs fun r => { r with stepUs := clampInt 2147483647 (d.tdiv 1000), evt := setBit r.evt 1 }
  let s3 := anySlew (raise Code.evTimeStepped Kind.none 0 [] (renumber s2))
  slotWork (frameWork (gateOverruns s3))

/-- The instant of the next turn boundary, in ns. -/
def State.nextTurnNs (s : State) : Nat := (s.tregs.turnSeen + 1) * s.fpt * s.period

/-- TIME_STEP: at the next turn boundary, in its place. -/
def timeStep (s : State) : State :=
  match s.time.stepDue with
  | none => s
  | some d => if s.pins.ddReset then s else stepNow d (advanceTo s.nextTurnNs s)

def execTimeStep (s : State) : Host.Outcome State Fault Refusal := .next (timeStep s)

/-! ### Delivery -/

/-- A step takes the place of a boundary at this instant. -/
def State.stepAt (s : State) (ns : Nat) : Bool := s.time.stepDue.isSome && decide (s.nextTurnNs ≤ ns)

/-- SLOT_BOUNDARY: the next slot boundary not yet delivered. -/
def slotBoundary (s : State) : State :=
  let n := s.tregs.slotSeen + 1
  let ns := slotStart s.period n
  if s.pins.ddReset then s
  else if s.stepAt ns then timeStep s
  else slotWork ((advanceTo ns s).modTregs fun r => { r with slotSeen := n })

def execSlotBoundary (s : State) : Host.Outcome State Fault Refusal := .next (slotBoundary s)

/-- FRAME_BOUNDARY: the next frame boundary not yet delivered. -/
def frameBoundary (s : State) : State :=
  let n := s.tregs.frameSeen + 1
  let ns := n * s.period
  if s.pins.ddReset then s
  else if s.stepAt ns then timeStep s
  else frameWork ((advanceTo ns s).modTregs fun r => { r with frameSeen := n })

def execFrameBoundary (s : State) : Host.Outcome State Fault Refusal := .next (frameBoundary s)

/-- TURN_BOUNDARY: the next turn boundary not yet delivered, or the step that takes its place. -/
def turnBoundary (s : State) : State :=
  if s.pins.ddReset then s
  else if s.time.stepDue.isSome then timeStep s
  else turnWork ((advanceTo s.nextTurnNs s).modTregs fun r => { r with turnSeen := r.turnSeen + 1 })

def execTurnBoundary (s : State) : Host.Outcome State Fault Refusal := .next (turnBoundary s)

end Sys2Proof.Machine
end

