-- ==== Sys2Proof/Machine/Feeds.lean ====
section
/-! DEFINITION. The feeds, and how their loss ends (R445, R446, R459, R494). -/

namespace Sys2Proof.Machine

/-! ### Feeds (R445, R446) -/

/-- One of the two feeds. -/
def State.feed (s : State) (b : Bool) : Feed := if b then s.pwr.feedB else s.pwr.feedA

/-- One feed set. -/
def State.setFeed (s : State) (b : Bool) (f : Feed) : State :=
  if b then { s with pwr := { s.pwr with feedB := f } } else { s with pwr := { s.pwr with feedA := f } }

/-- A bit of BAYPWR_FEED_EVT set. -/
def State.feedHappened (s : State) (i : Nat) : State := { s with pwr := { s.pwr with feedEvt := setBit s.pwr.feedEvt i } }

/-- A feed number as a subject of records. -/
def feedIx (b : Bool) : Nat := if b then 1 else 0

/-- A present feed exceeds the bus by 30 mV: its FET turns on. -/
def feedOringOn (b : Bool) (feedMv busMv : Nat) (s : State) : State :=
  let f := s.feed b
  let s := s.sawBus busMv
  if f.st = .idle && decide (busMv + 30 ≤ feedMv) then s.setFeed b { st := .conducting }
  else s

def execFeedOringOn (b : Bool) (feedMv busMv : Nat) (s : State) : Host.Outcome State Fault Refusal :=
  .next (feedOringOn b feedMv busMv s)

/-- The bus exceeds a conducting feed by 15 mV: its FET turns off. -/
def feedReverseOff (b : Bool) (feedMv busMv : Nat) (s : State) : State :=
  let f := s.feed b
  let s := s.sawBus busMv
  if f.st = .conducting && decide (feedMv + 15 ≤ busMv) then
    (s.setFeed b { st := .reverseOff }).feedHappened 1
  else s

def execFeedReverseOff (b : Bool) (feedMv busMv : Nat) (s : State) : Host.Outcome State Fault Refusal :=
  .next (feedReverseOff b feedMv busMv s)

/-- A feed turned off for reverse current has exceeded the bus by 30 mV for 1 ms: back to CONDUCTING (R445, R452). -/
def feedRearm (b : Bool) (feedMv busMv : Nat) (s : State) : State :=
  let f := s.feed b
  let s := s.sawBus busMv
  if f.st = .reverseOff && decide (busMv + 30 ≤ feedMv) then
    raise Code.evFeedRestored Kind.none (feedIx b) [] (s.setFeed b { st := .conducting })
  else s

def execFeedRearm (b : Bool) (feedMv busMv : Nat) (s : State) : Host.Outcome State Fault Refusal :=
  .next (feedRearm b feedMv busMv s)

/-- A feed exceeds `feed.ov_mv`: its FET turns off (FC_FEED_OV). -/
def feedOvOff (b : Bool) (feedMv : Nat) (s : State) : State :=
  if s.paramN 0x9022 < feedMv && (s.feed b).st ≠ .ovOff then
    bbx 0 Code.fcFeedOv Kind.none (feedIx b) [] ((s.setFeed b { st := .ovOff }).feedHappened 2)
  else s

def execFeedOvOff (b : Bool) (feedMv : Nat) (s : State) : Host.Outcome State Fault Refusal := .next (feedOvOff b feedMv s)

/-- A feed is 200 mV below the limit: its FET turns on again. -/
def feedOvRecover (b : Bool) (feedMv busMv : Nat) (s : State) : State :=
  if (s.feed b).st = .ovOff && decide (feedMv + 200 ≤ s.paramN 0x9022) then
    raise Code.evFeedRestored Kind.none (feedIx b) [] ((s.sawBus busMv).setFeed b { st := .conducting })
  else s

def execFeedOvRecover (b : Bool) (feedMv busMv : Nat) (s : State) : Host.Outcome State Fault Refusal :=
  .next (feedOvRecover b feedMv busMv s)

/-- A feed is below `feed.uv_mv`: ABSENT. EV_FEED_LOST while the other carries the bus; the loss of both ends in ISLAND
or off (R446, R459). -/
def feedAbsent (b : Bool) (feedMv : Nat) (s : State) : State :=
  if (s.feed b).st ≠ .absent && decide (feedMv < s.paramN 0x9021) then
    let s1 := (s.setFeed b { st := .absent }).feedHappened 0
    if (s1.feed (!b)).st = .conducting then raise Code.evFeedLost Kind.none (feedIx b) [] s1
    else if (s1.feed (!b)).st = .absent then feedsLost s1
    else s1
  else s

def execFeedAbsent (b : Bool) (feedMv : Nat) (s : State) : Host.Outcome State Fault Refusal := .next (feedAbsent b feedMv s)

/-- An absent feed returns, to CONDUCTING when it exceeds the bus by 30 mV, else to IDLE (R445, R452). -/
def feedRestored (b : Bool) (feedMv busMv : Nat) (s : State) : State :=
  if (s.feed b).st = .absent && decide (s.paramN 0x9021 ≤ feedMv) then
    raise Code.evFeedRestored Kind.none (feedIx b) []
      ((s.sawBus busMv).setFeed b { st := if busMv + 30 ≤ feedMv then .conducting else .idle })
  else s

def execFeedRestored (b : Bool) (feedMv busMv : Nat) (s : State) : Host.Outcome State Fault Refusal :=
  .next (feedRestored b feedMv busMv s)

/-- The bus has stayed below `feed.collapse_mv` for 0.5 µs: FC_FEED_COLLAPSE, the event once the data die can receive
it, and PF_WARN (R16, R446). -/
def feedCollapse (busMv : Nat) (s : State) : State :=
  if busMv < s.paramN 0x9020 then
    let s1 := bbx 0 Code.fcFeedCollapse Kind.none 0 []
      (State.feedHappened { s with pwr := { s.pwr with collapse := true } } 3)
    let s2 := if s1.pins.ddReset then { s1 with pwr := { s1.pwr with collapseTold := false } }
      else raise Code.evFeedCollapse Kind.none 0 [] s1
    pfWarn s2
  else s

def execFeedCollapse (busMv : Nat) (s : State) : Host.Outcome State Fault Refusal := .next (feedCollapse busMv s)

/-- PFAIL_FLUSH_DONE. Where both feeds are lost and an island supply is present, the entry into ISLAND goes on (R459, R491,
R494). -/
def flushEnds (s : State) : State :=
  let s1 := pfailFlushDone s
  if s.flush.active && s1.mode.entering = some .island && s1.mode.byFeedLoss then islandSteps s1 else s1

def execPfailFlushDone (s : State) : Host.Outcome State Fault Refusal := .next (flushEnds s)

end Sys2Proof.Machine
end

