-- ==== Sys2Proof/Machine/Registers.lean ====
section
/-! DEFINITION. BAR0: what every direct register reads as, what a write of a field does, and the registers mirrored from the power
die over the on-package link (R3 to R9, R17, R18, R56, R230, R305, R345, R371, R401, R424, R453, R479, R511, R533). -/

namespace Sys2Proof.Machine

/-! ### Reads, block by block -/

/-- Low and high words of a 64-bit value. -/
def lo32 (v : Nat) : Nat := v % 2 ^ 32
def hi32 (v : Nat) : Nat := v / 2 ^ 32 % 2 ^ 32

/-- The system block. -/
def sysReg (s : State) (o : Nat) : Nat :=
  if o = 0x00 then 0x2400B000 + flag s.sys.slotB 7 + flag s.sys.prov 6 + s.sys.shelf % 64
  else if o = 0x10 then
    flag s.sys.linkUp 0 + flag s.sys.linkTimeout 1 + flag s.sys.linkDownSeen 2 + field s.sys.replays 8 8 + field s.sys.trains 16 16
  else if o = 0x20 then
    flag s.fw.runB 0 + flag s.fw.recovery 1 + flag s.fw.fallback 2 + field s.fw.reason 3 3 + field (s.fw.boot.att s.fw.runB) 8 8
  else 0

/-- The channel registers and the mailbox's own (R401). -/
def mbxReg (s : State) (o : Nat) : Nat :=
  let c := o / 16
  let word (f : Chan → Bool) (base : Nat) : Nat :=
    (List.range 32).foldl (fun v i => v + flag (f (s.chan (base + i))) i) 0
  if o < 0x400 then
    if o % 16 = 4 then
      field (s.chan c).state.ctorIdx 0 2 + flag (s.chan c).overrun 2 + field (s.transport c) 3 3 + field (s.privilege c) 6 2 +
        field (s.chan c).lastStatus 16 16
    else 0
  else if o = 0x400 then word Chan.doneBit 0
  else if o = 0x404 then word Chan.doneBit 32
  else if o = 0x408 then word Chan.irqEn 0
  else if o = 0x40C then word Chan.irqEn 32
  else 0

/-- The TIME block (R56). TIME_NOW_NS reads through its own command, which latches. -/
def timeReg (s : State) (o : Nat) : Nat :=
  let t := s.time
  let r := s.tregs
  if o = 0x00 then flag t.todLoad 0 + flag t.ppsFreerun 1
  else if o = 0x04 then
    t.servo.ctorIdx + flag t.traceable 3 + flag t.stepPending 4 + flag t.gm 5 + field (if t.gm then 0 else t.hops) 8 5
  else if o = 0x10 then s.nowNs % 1000000000
  else if o = 0x14 then lo32 r.latSec
  else if o = 0x18 then hi32 r.latSec % 2 ^ 16
  else if o = 0x1C then lo32 r.latFrame
  else if o = 0x20 then hi32 r.latFrame
  else if o = 0x24 then r.latSlot
  else if o = 0x28 then lo32 r.latTurn
  else if o = 0x2C then hi32 r.latTurn
  else if o = 0x30 then s.paramN 0x1010 + field (s.paramN 0x1011) 4 4
  else if o = 0x34 then s.paramN 0x1012 % 8 + 8 + field t.active 4 3 + field t.cls 8 3 + field (s.paramN 0x1014) 16 8
  else if o = 0x38 then twos 32 r.offset
  else if o = 0x3C then twos 32 (t.corrPpb + t.slewPpb)
  else if o = 0x40 then s.paramN 0x1019 + field (s.paramN 0x101A) 4 2 + field (s.paramN 0x101B) 8 8
  else if o = 0x44 then r.ppsInNs
  else if o = 0x48 then r.ppsInSec
  else if o = 0x50 then lo32 t.tod
  else if o = 0x54 then hi32 t.tod % 2 ^ 16
  else if o = 0x60 then r.evt
  else if o = 0x64 then twos 32 r.stepUs
  else if o = 0x68 then
    (match r.holdSince with
     | some c => Nat.min 0xFFFFFFFF ((s.clock - c) / 1600000)
     | none => r.holdoverMs)
  else 0

/-- A window entry's two words. -/
def winReg (e : WinEntry) (tgt : Bool) : Nat :=
  if tgt then field e.target 12 15 else flag e.valid 0 + flag e.write 1 + field e.len 2 9

/-- The endpoint (R424). -/
def epReg (s : State) (o : Nat) : Nat :=
  let e := s.ep
  if o = 0x00 then
    flag e.linkUp 0 + field e.speed 1 3 + field e.width 4 5 + flag e.cfgReady 9 +
      field (match e.dstate with | .d0 => 0 | .d3hot => 3 | .d3cold => 0) 10 2 + field e.bar4Code 12 3
  else if o = 0x14 then field e.epoch 0 16 + flag e.winPending 16 + flag e.refused 17 + field e.errEntry 24 7
  else if o = 0x18 then field e.errAddr 0 27
  else if o = 0x1C then flag e.errWrite 0
  else if o = 0x20 then lo32 e.errCount
  else if o = 0x24 then e.evt
  else if o = 0x40 then e.roEn
  else if 0x80 ≤ o && o < 0xCC then
    (List.range 4).foldl (fun v i => v + field (e.irqMap.getD (4 * ((o - 0x80) / 4) + i) 0) (8 * i) 6) 0
  else if 0x1000 ≤ o && o < 0x1400 then winReg (nth e.shadow ((o - 0x1000) / 8)) (o % 8 == 4)
  else if 0x1400 ≤ o && o < 0x1800 then winReg (nth e.active ((o - 0x1400) / 8)) (o % 8 == 4)
  else if 0x8000 ≤ o && o < 0x8400 then msixReg (nth e.msix ((o - 0x8000) / 16)) (o % 16)
  else if o = 0x9000 then pendingBits s 0
  else if o = 0x9004 then pendingBits s 32
  else 0

/-- A port's registers (R305). -/
def portReg (s : State) (p o : Nat) : Nat :=
  let x := s.netPort p
  if o = 0x00 then
    flag x.enable 0 + field (s.paramN (0x6000 + p)) 1 2 + field (s.paramN (0x6010 + p)) 3 2 + field (s.paramN (0x6020 + p)) 8 8 +
      field (s.paramN (0x6030 + p)) 16 6
  else if o = 0x04 then
    (List.range 4).foldl (fun v i => v + flag (nth x.subs i).up i) 0 + field x.mode 4 2 +
      (List.range 8).foldl (fun v c => v + flag (x.subs.any fun q => q.paused.testBit c) (8 + c)) 0
  else if o = 0x08 then x.evt
  else if o = 0x0C then s.paramN (0x6040 + p) + field (s.paramN (0x6050 + p)) 8 5
  else if 0x40 ≤ o && o < 0x80 then s.paramN (0x6100 + 16 * p + (o - 0x40) / 4)
  else 0

/-- A commit of NET fields waits for its boundary (R300). -/
def State.netPending (s : State) : Bool := s.committed.any fun e => 0x6100 ≤ e.num && e.num < 0x61C0

/-- The NET block (R305). NET_BUF_FREE and NET_MIRROR_BASE read their reset value 0 while the data die is in reset (log 27). -/
def netReg (s : State) (o : Nat) : Nat :=
  if o < 0xC00 then portReg s (o / 0x100) (o % 0x100)
  else if o = 0xC00 then flag s.netPending 1 + flag s.net.refused 2
  else if o = 0xC04 then (if s.pins.ddReset then 0 else s.freeCells % 2 ^ 18)
  else if o = 0xC10 then s.paramN 0x607F + field (s.paramN 0x607E) 16 16
  else if o = 0xC14 then s.net.prod
  else if o = 0xC18 then s.net.cons
  else if o = 0xC1C then (if s.pins.ddReset then 0 else s.mirrorBase)
  else 0

/-- SCRIM_ROLE of a group (R345). -/
def scrimRole (s : State) (gi : Nat) : Nat :=
  let g := s.group gi
  g.role.ctorIdx % 8 + flag (g.formed && s.prefers gi) 3 + flag (g.role.owns && g.mirror == .solo) 4 + field (s.grants gi) 8 2 +
    field (s.witnessesSeen gi) 10 2

/-- The SCRIM block (R345). -/
def scrimReg (s : State) (o : Nat) : Nat :=
  let x := s.scrim
  if o = 0x00 then field x.addr 0 12 + flag x.claimed 12 + field (if x.chosen then x.routes.length + 1 else 0) 16 13
  else if o = 0x04 then
    (List.range 4).foldl (fun v p => v + field (s.adj p).st.ctorIdx (8 * p) 2 + flag ((s.adj p).protTx && (s.adj p).protRx) (8 * p + 2)) 0
  else if 0x10 ≤ o && o < 0x28 then scrimRole s ((o - 0x10) / 4)
  else if 0x30 ≤ o && o < 0x48 then (s.group ((o - 0x30) / 4)).epoch
  else if o = 0x48 then x.evt
  else if o = 0x4C then x.faults.length
  else 0

/-- A bay link's registers (R230). -/
def baylnkReg (s : State) (o : Nat) : Nat :=
  let n := o / 0x40
  let b := s.bay n
  if 24 ≤ n then 0
  else if o % 0x40 = 0x00 then s.baylnkStatus n
  else if o % 0x40 = 0x04 then flag b.hold 0
  else if o % 0x40 = 0x08 then b.epoch
  else if o % 0x40 = 0x0C then b.evt
  else if o % 0x40 = 0x10 then lo32 b.modId
  else if o % 0x40 = 0x14 then hi32 b.modId
  else 0

/-- The cipher engine (R371). -/
def ciphReg (s : State) (o : Nat) : Nat :=
  let c := s.ciph
  if o = 0x00 then field c.pipes 0 6 + flag c.rootOk 6 + flag c.entropyOk 7 + flag s.derives 8
  else if o = 0x04 then (s.shown 0x8001).toNat + field (s.shown 0x8002).toNat 2 1 + flag (decide (2 ≤ s.fuse.lifecycle)) 3
  else if o = 0x08 then c.evt
  else if o = 0x0C then lo32 c.pipeDis
  else if o = 0x10 then hi32 c.pipeDis
  else 0

/-- EVT registers (R401). -/
def evtReg (s : State) (o : Nat) : Nat :=
  if o = 0x00 then lo32 s.mbx.evtHead else if o = 0x04 then hi32 s.mbx.evtHead else if o = 0x08 then flag s.mbx.evtIrqEn 0 else 0

/-- The mean of up to 8 samples of a channel (R447). -/
def PwrChan.mean (c : PwrChan) (f : Sample → Int) : Int :=
  if c.samples.isEmpty then 0 else (c.samples.map f).sum / (c.samples.length : Int)

/-- A bay channel's registers (R453). -/
def baypwrReg (s : State) (n o : Nat) : Nat :=
  let c := s.pchan n
  if o = 0x00 then
    c.status s.aonTick
  else if o = 0x08 then twos 16 (c.mean fun x => x.ma)
  else if o = 0x0C then twos 16 (c.mean fun x => x.vch) + field (twos 16 (c.mean fun x => x.vout)) 16 16
  else if o = 0x10 then twos 16 (c.tj / 125000000) + field c.diode 16 16
  else if o = 0x14 then c.energy / 1000000000000 % 2 ^ 32
  else if o = 0x18 then c.evt
  else 0

/-- The BAYPWR block (R453). -/
def powerReg (s : State) (o : Nat) : Nat :=
  if o < 0x300 then baypwrReg s (o / 0x20) (o % 0x20)
  else if o = 0x400 then feedStatusReg s
  else if o = 0x404 then field (meanOf (s.pwr.feedSamples.map fun x => x.1)) 0 16 + field (meanOf (s.pwr.feedSamples.map fun x => x.2.1)) 16 16
  else if o = 0x408 then s.pwr.feedEvt
  else if o = 0x500 then flag s.pwr.loaded 0 + field (s.paramN 0x9001) 1 1
  else 0

/-- The PWR block (R479). -/
def pwrReg (s : State) (o : Nat) : Nat :=
  let m := s.mode
  if o = 0x00 then pwrModeReg s
  else if o = 0x04 then s.paramN 0x9201 + field (s.paramN 0x9202) 8 4 + field (s.paramN 0x9203) 12 4
  else if o = 0x08 then m.latch
  else if o = 0x0C then m.last + flag m.replayed 8
  else if o = 0x10 then lo32 s.island
  else if o = 0x14 then m.islHi
  else if o = 0x18 then lo32 m.alarm
  else if o = 0x1C then hi32 m.alarm % 2 ^ 16
  else if o = 0x20 then field m.avsTarget 0 16 + field m.avsAcked 16 16
  else if o = 0x24 then
    field m.source 0 2 + flag m.aux 2 + flag m.poe 3 + field m.poeClass 4 4 + flag m.cntValid 8 + flag m.mainPg 9
  else 0

/-- The BBX registers (R511). -/
def bbxReg (s : State) (o : Nat) : Nat :=
  if o = 0x00 then
    flag s.bbx.erasing 0 + flag (!s.bbx.gasps.isEmpty) 1 + field s.bbx.queue.length 8 7 + field s.bbx.dropped 16 16
  else if o = 0x04 then s.bbx.oldest
  else if o = 0x08 then s.bbx.newest
  else 0

/-- The FUSE and OTP registers (R511). -/
def fuseReg (s : State) (o : Nat) : Nat := if o = 0x00 then fuseStatusReg s.fuse else if o = 0x04 then otpStatusReg s.fuse else 0

/-- A defined register mirrored from the power die (R453, R479, R511). Other offsets of these blocks are undefined (R6). -/
def mirrored (a : Nat) : Bool :=
  let o := a % 0x10000
  match a / 0x10000 with
  | 0x7 => (decide (o < 0x300) && decide (o % 0x20 < 0x1C) && o % 4 == 0) || [0x400, 0x404, 0x408, 0x500].contains o
  | 0x8 => decide (o < 0x28) && o % 4 == 0
  | 0x9 => o == 0 || o == 4 || o == 8
  | 0xA => o == 0 || o == 4
  | _ => false

/-- The value of the 32-bit register at a word offset of BAR0, 0 outside every block (R6). What a read of TIME_NOW_NS and of
EVT_HEAD_LO does beside, their own commands do. -/
def State.reg (s : State) (a : Nat) : Nat :=
  let o := a % 0x10000
  match a / 0x10000 with
  | 0x0 => sysReg s o
  | 0x1 => mbxReg s o
  | 0x2 => timeReg s o
  | 0x3 => epReg s o
  | 0x4 => netReg s o
  | 0x5 => scrimReg s o
  | 0x6 => baylnkReg s o
  | 0x7 => powerReg s o
  | 0x8 => pwrReg s o
  | 0x9 => bbxReg s o
  | 0xA => fuseReg s o
  | 0xB => ciphReg s o
  | 0xC => evtReg s o
  | _ => 0

/-- IRQ_N is low while an enabled event is pending (R518): an event interrupt not yet read, or a channel's DONE. -/
def State.irqN (s : State) : Bool :=
  !(s.mbx.evtIrqEn && s.mbx.evtSent) && !s.mbx.chans.any fun c => c.irqEn && c.doneBit

/-! ### Writes of fields that hold parameters (R533) -/

/-- A write of an RW or RWQ field that holds a parameter: checked as an entry of PARAM_SET, else dropped (R8, R533). -/
def regParam (num : Nat) (v : Int) (s : State) : State :=
  let es : List StageEntry := [{ num, val := v }]
  let ok := (entryError s 2 num v none).isNone && rulesOk (s.withEntries es) [num] s && (paramClass num != 2 || s.paramIdle num)
  if ok then changeNow num v s else s

/-- A write of an RWE field: staged for the block's next commit, in the place of one staged before (R9, R11). -/
def regStage (num v : Nat) (s : State) : State :=
  match entryError s 2 num v none with
  | none => { s with par := { s.par with netStage := stageIn s.par.netStage { num, val := v } } }
  | some _ => s

/-! ### Writes, block by block -/

/-- The system block. -/
def sysWrite (o v : Nat) (s : State) : State :=
  if o = 0x10 then
    { s with sys := { s.sys with linkTimeout := s.sys.linkTimeout && !bit v 1, linkDownSeen := s.sys.linkDownSeen && !bit v 2 } }
  else s

/-- Every channel from a base on changes by its bit of a word. -/
def eachChan (base : Nat) (f : Nat → Chan → Chan) (s : State) : State :=
  (List.range 32).foldl (fun s i => s.modChan (base + i) (f i)) s

/-- The mailbox (R373, R401). -/
def mbxWrite (o v : Nat) (s : State) : State :=
  let c := o / 16
  let done (i : Nat) (h : Chan) : Chan := { h with doneBit := h.doneBit && !bit v i }
  let en (i : Nat) (h : Chan) : Chan := { h with irqEn := bit v i }
  if o < 0x400 then
    if o % 16 = 0 then (if bit v 0 then mbxDoorbell c s else s)
    else if o % 16 = 4 then s.modChan c fun h => { h with overrun := h.overrun && !bit v 2 }
    else if o % 16 = 8 then (if bit v 0 then mbxAck c s else s)
    else s
  else if o = 0x400 then eachChan 0 done s
  else if o = 0x404 then eachChan 32 done s
  else if o = 0x408 then eachChan 0 en s
  else if o = 0x40C then eachChan 32 en s
  else s

/-- The TIME block (R56). -/
def timeWrite (o v : Nat) (s : State) : State :=
  if o = 0x00 then ppsFollow (s.modTime fun t => { t with todLoad := t.todLoad || bit v 0, ppsFreerun := bit v 1 })
  else if o = 0x30 then timeCfgWrite v s
  else if o = 0x34 then regParam 0x1014 (bits v 16 8) (regParam 0x1012 (8 + bits v 0 3) s)
  else if o = 0x40 then regParam 0x101B (bits v 8 8) (regParam 0x101A (bits v 4 2) (regParam 0x1019 (bits v 0 1) s))
  else if o = 0x50 then s.modTime fun t => { t with tod := t.tod / 2 ^ 32 * 2 ^ 32 + v }
  else if o = 0x54 then s.modTime fun t => { t with tod := lo32 t.tod + v % 2 ^ 16 * 2 ^ 32 }
  else if o = 0x60 then s.modTregs fun r => { r with evt := w1c r.evt v }
  else s

/-- The four vectors of an EP_IRQ_MAP register; sources past the 73rd do not exist. -/
def mapWrite (i v : Nat) (e : EpState) : EpState :=
  let one (l : List Nat) (k : Nat) : List Nat := upd l (4 * i + k) fun _ => bits v (8 * k) 6
  { e with irqMap := (List.range 4).foldl one e.irqMap }

/-- A word of a shadow entry. -/
def shadowWrite (o v : Nat) (e : EpState) : EpState :=
  let ctl (x : WinEntry) : WinEntry := { x with valid := bit v 0, write := bit v 1, len := bits v 2 9 }
  let tgt (x : WinEntry) : WinEntry := { x with target := bits v 12 15 }
  { e with shadow := upd e.shadow (o / 8) (if o % 8 = 4 then tgt else ctl) }

/-- The endpoint (R424). -/
def epWrite (o v : Nat) (s : State) : State :=
  if o = 0x10 then (if bit v 0 then epWinCommit s else s)
  else if o = 0x14 then s.modEp fun e => { e with refused := e.refused && !bit v 17 }
  else if o = 0x24 then s.modEp fun e => { e with evt := w1c e.evt v }
  else if o = 0x40 then s.modEp fun e => { e with roEn := v % 256 }
  else if 0x80 ≤ o && o < 0xCC then s.modEp (mapWrite ((o - 0x80) / 4) v)
  else if 0x1000 ≤ o && o < 0x1400 then s.modEp (shadowWrite (o - 0x1000) v)
  else if 0x8000 ≤ o && o < 0x8400 then msixWrite ((o - 0x8000) / 16) (o % 16) v s
  else s

/-- A port's registers (R278, R305). The RWQ fields are judged before ENABLE takes effect. -/
def portWrite (p o v : Nat) (s : State) : State :=
  if o = 0x00 then
    let mode := bits v 1 2
    let s1 := if 8 ≤ p && mode != 0 then s else regParam (0x6000 + p) mode s
    let s2 := regParam (0x6030 + p) (bits v 16 6) (regParam (0x6020 + p) (bits v 8 8) (regParam (0x6010 + p) (bits v 3 2) s1))
    if (s2.netPort p).enable = bit v 0 || !s2.ddUp then s2 else netPortEnable p (bit v 0) s2
  else if o = 0x08 then s.modPort p fun x => { x with evt := w1c x.evt v }
  else if o = 0x0C then regParam (0x6050 + p) (bits v 8 5) (regParam (0x6040 + p) (bits v 0 5) s)
  else if 0x40 ≤ o && o < 0x80 then regStage (0x6100 + 16 * p + (o - 0x40) / 4) v s
  else s

/-- The NET block (R305). -/
def netWrite (o v : Nat) (s : State) : State :=
  if o < 0xC00 then portWrite (o / 0x100) (o % 0x100) v s
  else if o = 0xC00 then
    let s1 := s.modNet fun n => { n with refused := n.refused && !bit v 2 }
    if bit v 0 && s1.ddUp then netCommit s1 else s1
  else if o = 0xC10 then
    let s1 := regParam 0x607F (bits v 0 1) s
    if bit v 1 then mirrorReset s1 else s1
  else if o = 0xC18 then s.modNet fun n => { n with cons := v }
  else s

/-- A bay link (R230). -/
def baylnkWrite (o v : Nat) (s : State) : State :=
  let n := o / 0x40
  if 24 ≤ n then s
  else if o % 0x40 = 0x04 then
    let s1 := if (s.bay n).hold = bit v 0 then s else baylnkHold n (bit v 0) s
    if bit v 1 then baylnkRetrain n s1 else s1
  else if o % 0x40 = 0x0C then s.modBay n fun b => { b with evt := w1c b.evt v }
  else s

/-- A write to a register of the data die. -/
def regWrite (a v : Nat) (s : State) : State :=
  let o := a % 0x10000
  match a / 0x10000 with
  | 0x0 => sysWrite o v s
  | 0x1 => mbxWrite o v s
  | 0x2 => timeWrite o v s
  | 0x3 => epWrite o v s
  | 0x4 => netWrite o v s
  | 0x5 => if o = 0x48 then s.modScrim fun x => { x with evt := w1c x.evt v } else s
  | 0x6 => baylnkWrite o v s
  | 0xB => if o = 0x08 then s.modCiph fun c => { c with evt := w1c c.evt v } else s
  | 0xC => if o = 0x08 then { s with mbx := { s.mbx with evtIrqEn := bit v 0 } } else s
  | _ => s

/-! ### REGISTER_WRITE (R4 to R9) -/

/-- A whole word written: posted to the power die when it is one of its registers, discarded while the link is down (R18,
log 107). -/
def wordWrite (a v : Nat) (s : State) : State :=
  if mirrored a then
    if s.sys.linkUp then { s with sys := { s.sys with posted := s.sys.posted ++ [{ addr := a, value := v }] } }
    else { s with sys := { s.sys with linkTimeout := true } }
  else regWrite a v s

/-- The words that an access covers whole, in increasing order: word offset and value (R4). -/
def wholeWords (off : Nat) (data : List Byte) : List (Nat × Nat) :=
  let skip := (4 - off % 4) % 4
  (List.range ((data.length - skip) / 4)).map fun i => (off + skip + 4 * i, leAt data (skip + 4 * i) 4)

/-- REGISTER_WRITE: a write of some bytes at an offset of BAR0. A word that is not covered whole is dropped (R4). -/
def registerWrite (off : Nat) (data : List Byte) (s : State) : State :=
  if s.pins.ddReset then s else (wholeWords off data).foldl (fun s w => wordWrite w.1 w.2 s) s

def execRegisterWrite (off : Nat) (data : List Byte) (s : State) : Host.Outcome State Fault Refusal :=
  .next (s.hostWrite (registerWrite off data s))

/-! ### The on-package link and the power die's registers (R17, R18) -/

/-- A write that has reached the power die. -/
def powerWrite (a v : Nat) (s : State) : State :=
  let o := a % 0x10000
  if a / 0x10000 = 7 then
    if o < 0x300 then
      if o % 0x20 = 0x04 then baypwrCtrl (o / 0x20) v s
      else if o % 0x20 = 0x18 then s.modPchan (o / 0x20) fun c => { c with evt := w1c c.evt v }
      else s
    else if o = 0x408 then { s with pwr := { s.pwr with feedEvt := w1c s.pwr.feedEvt v } }
    else if o = 0x500 then regParam 0x9001 (bits v 1 1) s
    else s
  else if a / 0x10000 = 8 then
    if o = 0x04 then regParam 0x9203 (bits v 12 4) (regParam 0x9202 (bits v 8 4) (regParam 0x9201 (bits v 0 8) s))
    else if o = 0x08 then wakeLatchClear v s
    else if o = 0x18 then s.modMode fun m => { m with alarm := m.alarm / 2 ^ 32 * 2 ^ 32 + v }
    else if o = 0x1C then s.modMode fun m => { m with alarm := lo32 m.alarm + v % 2 ^ 16 * 2 ^ 32 }
    else s
  else s

/-- POWER_DIE_WRITE_APPLY: the oldest posted write is applied. -/
def powerDieWriteApply (s : State) : State :=
  match s.sys.posted with
  | [] => s
  | w :: rest => powerWrite w.addr w.value { s with sys := { s.sys with posted := rest } }

def execPowerDieWriteApply (s : State) : Host.Outcome State Fault Refusal := .next (powerDieWriteApply s)

/-- One word read: its value, and what the read does. A register of the power die reads live, and PWR_ISLAND_LO latches the high
word (R479); while the link is down it reads all ones and sets TIMEOUT (R17). An undefined offset reads 0 (R6). TIME_NOW_NS and
EVT_HEAD_LO have their own effects (R56, R396). -/
def wordRead (a : Nat) (s : State) : Nat × State :=
  if mirrored a then
    if s.sys.linkUp then
      let s1 := if a = 0x00080010 then s.modMode fun m => { m with islHi := s.island / 2 ^ 32 } else s
      (s.reg a, s1)
    else (0xFFFFFFFF, { s with sys := { s.sys with linkTimeout := true } })
  else if a = 0x00020010 then (s.reg a, latchTime s)
  else if a = 0x000C0000 then (s.reg a, rearmEvents s)
  else (s.reg a, s)

/-- The words that an access touches, lowest first (R4). -/
def touchedWords (off len : Nat) : List Nat :=
  if len = 0 then [] else (List.range ((off + len - 1) / 4 + 1 - off / 4)).map fun i => 4 * (off / 4 + i)

/-- A read of some bytes: the words it touches one after another, the addressed bytes of each (R4). -/
def bar0Read (off len : Nat) (s : State) : State :=
  let go (r : List Byte × State) (a : Nat) : List Byte × State :=
    let w := wordRead a r.2
    (r.1 ++ slice (leBytes 4 w.1) (max off a - a) (min (off + len) (a + 4) - max off a), w.2)
  let r := (touchedWords off len).foldl go ([], s)
  r.2.emit (.regRead off r.1)

/-- MIRRORED_READ of `len` bytes at an offset of BAR0: the live values of power-die registers (R4, R17). -/
def mirroredRead (off len : Nat) (s : State) : State := if s.pins.ddReset then s else bar0Read off len s

def execMirroredRead (r : Payload.RegRead) (s : State) : Host.Outcome State Fault Refusal :=
  .next (s.hostRead r.off (mirroredRead r.off r.len s))

/-- PKG_LINK_DOWN after so many replays, with reads outstanding at these offsets: each completes with all ones, posted writes are
discarded, and TIMEOUT tells of both (R17, R18). -/
def pkgLinkDown (replays : Nat) (reads : List Nat) (s : State) : State :=
  if !s.sys.linkUp then s
  else
    let lost := !s.sys.posted.isEmpty || !reads.isEmpty
    let s1 := { s with sys := { s.sys with
      linkUp := false, linkDownSeen := true, posted := [], replays := satAdd 0xFF s.sys.replays replays,
      linkTimeout := s.sys.linkTimeout || lost } }
    reads.foldl (fun s a => s.emit (.regRead a (leBytes 4 0xFFFFFFFF))) s1

def execPkgLinkDown (replays : Nat) (reads : List Nat) (s : State) : Host.Outcome State Fault Refusal :=
  .next (pkgLinkDown replays reads s)

/-- PKG_LINK_UP: training completes. -/
def pkgLinkUp (s : State) : State :=
  if s.pins.ddReset || s.sys.linkUp then s
  else { s with sys := { s.sys with linkUp := true, trains := satAdd 0xFFFF s.sys.trains 1 } }

def execPkgLinkUp (s : State) : Host.Outcome State Fault Refusal := .next (pkgLinkUp s)

end Sys2Proof.Machine
end

