-- ==== Sys2Proof/Machine/Dispatch.lean ====
section
/-! DEFINITION. One arm per command: the command's meaning. -/

namespace Sys2Proof.Machine

/-- The effect of a command on everything but the queue. -/
def exec (i : Instr) (s : State) : Host.Outcome State Fault Refusal :=
  match i with
  | .registerWrite off data => Sys2Proof.Machine.execRegisterWrite off data s
  | .mirroredRead r => Sys2Proof.Machine.execMirroredRead r s
  | .powerDieWriteApply => Sys2Proof.Machine.execPowerDieWriteApply s
  | .pkgLinkDown replays reads => Sys2Proof.Machine.execPkgLinkDown replays reads s
  | .pkgLinkUp => Sys2Proof.Machine.execPkgLinkUp s
  | .timeNowRead => Sys2Proof.Machine.execTimeNowRead s
  | .timeCfgWrite v => Sys2Proof.Machine.execTimeCfgWrite v s
  | .todLoad => Sys2Proof.Machine.execTodLoad s
  | .slotBoundary => Sys2Proof.Machine.execSlotBoundary s
  | .frameBoundary => Sys2Proof.Machine.execFrameBoundary s
  | .turnBoundary => Sys2Proof.Machine.execTurnBoundary s
  | .timeStep => Sys2Proof.Machine.execTimeStep s
  | .ptpSyncRx m => Sys2Proof.Machine.execPtpSyncRx m s
  | .ptpAnnounceRx m => Sys2Proof.Machine.execPtpAnnounceRx m s
  | .ptpSourceLoss host => Sys2Proof.Machine.execPtpSourceLoss host s
  | .ppsInEdge widthNs falling => Sys2Proof.Machine.execPpsInEdge widthNs falling s
  | .ppsInLoss => Sys2Proof.Machine.execPpsInLoss s
  | .sourceRequalified src => Sys2Proof.Machine.execSourceRequalified src s
  | .slewComplete => Sys2Proof.Machine.execSlewComplete s
  | .lockOffsetDrift => Sys2Proof.Machine.execLockOffsetDrift s
  | .ppsOutStart => Sys2Proof.Machine.execPpsOutStart s
  | .ppsOutEnd => Sys2Proof.Machine.execPpsOutEnd s
  | .connect m => Sys2Proof.Machine.execConnect m s
  | .propertySet c => Sys2Proof.Machine.execPropertySet c s
  | .propertyGet c => Sys2Proof.Machine.execPropertyGet c s
  | .disconnect c => Sys2Proof.Machine.execDisconnect c s
  | .getLogPage c => Sys2Proof.Machine.execGetLogPage c s
  | .nvmeIdentify c => Sys2Proof.Machine.execNvmeIdentify c s
  | .nvmeAbort c => Sys2Proof.Machine.execNvmeAbort c s
  | .setFeatures c => Sys2Proof.Machine.execSetFeatures c s
  | .getFeatures c => Sys2Proof.Machine.execGetFeatures c s
  | .asyncEventRequest c => Sys2Proof.Machine.execAsyncEventRequest c s
  | .keepAlive c => Sys2Proof.Machine.execKeepAlive c s
  | .directiveSend c => Sys2Proof.Machine.execDirectiveSend c s
  | .directiveReceive c => Sys2Proof.Machine.execDirectiveReceive c s
  | .unsupportedCommand c => Sys2Proof.Machine.execUnsupportedCommand c s
  | .nvmeFlush c => Sys2Proof.Machine.execNvmeFlush c s
  | .nvmeWrite c => Sys2Proof.Machine.execNvmeWrite c s
  | .nvmeRead c => Sys2Proof.Machine.execNvmeRead c s
  | .writeZeroes c => Sys2Proof.Machine.execWriteZeroes c s
  | .datasetManagement c => Sys2Proof.Machine.execDatasetManagement c s
  | .nvmeVerify c => Sys2Proof.Machine.execNvmeVerify c s
  | .zoneMgmtSend c => Sys2Proof.Machine.execZoneMgmtSend c s
  | .zoneMgmtReceive c => Sys2Proof.Machine.execZoneMgmtReceive c s
  | .zoneAppend c => Sys2Proof.Machine.execZoneAppend c s
  | .gatheredRead c => Sys2Proof.Machine.execGatheredRead c s
  | .pacedRead c => Sys2Proof.Machine.execPacedRead c s
  | .katoExpiry cntlid => Sys2Proof.Machine.execKatoExpiry cntlid s
  | .transportError cntlid qid => Sys2Proof.Machine.execTransportError cntlid qid s
  | .capsuleReserveAdmit => Sys2Proof.Machine.execCapsuleReserveAdmit s
  | .overlapWriteRelease => Sys2Proof.Machine.execOverlapWriteRelease s
  | .writeFetchResume => Sys2Proof.Machine.execWriteFetchResume s
  | .pacedFrameSend cntlid qid bytes => Sys2Proof.Machine.execPacedFrameSend cntlid qid bytes s
  | .stageBufferGrant => Sys2Proof.Machine.execStageBufferGrant s
  | .stageStarveTimeout => Sys2Proof.Machine.execStageStarveTimeout s
  | .bayWriteTlp bay addr data => Sys2Proof.Machine.execBayWriteTlp bay addr data s
  | .tagCheckDone blk => Sys2Proof.Machine.execTagCheckDone blk s
  | .slotRevokeDrain blk => Sys2Proof.Machine.execSlotRevokeDrain blk s
  | .tagQuarantineExpiry tag => Sys2Proof.Machine.execTagQuarantineExpiry tag s
  | .hawkDecay => Sys2Proof.Machine.execHawkDecay s
  | .hawkPinRelease use => Sys2Proof.Machine.execHawkPinRelease use s
  | .peerHoldExpiry blk => Sys2Proof.Machine.execPeerHoldExpiry blk s
  | .peerReadReq src body => Sys2Proof.Machine.execPeerReadReq src body s
  | .peerReadRsp src body => Sys2Proof.Machine.execPeerReadRsp src body s
  | .dieDispatch bay die => Sys2Proof.Machine.execDieDispatch bay die s
  | .eraseTurnSuspend => Sys2Proof.Machine.execEraseTurnSuspend s
  | .programOverrun bay die => Sys2Proof.Machine.execProgramOverrun bay die s
  | .dieStatusPoll bay die => Sys2Proof.Machine.execDieStatusPoll bay die s
  | .readCpl bay entry => Sys2Proof.Machine.execReadCpl bay entry s
  | .verifyCpl bay entry => Sys2Proof.Machine.execVerifyCpl bay entry s
  | .programCpl bay entry => Sys2Proof.Machine.execProgramCpl bay entry s
  | .eraseCpl bay entry => Sys2Proof.Machine.execEraseCpl bay entry s
  | .suspendCpl bay entry => Sys2Proof.Machine.execSuspendCpl bay entry s
  | .resumeCpl bay entry => Sys2Proof.Machine.execResumeCpl bay entry s
  | .abortCpl bay entry => Sys2Proof.Machine.execAbortCpl bay entry s
  | .dieStatusCpl bay entry => Sys2Proof.Machine.execDieStatusCpl bay entry s
  | .epochSetCpl bay entry => Sys2Proof.Machine.execEpochSetCpl bay entry s
  | .epochNotice bay entry => Sys2Proof.Machine.execEpochNotice bay entry s
  | .opAbortTimer tag => Sys2Proof.Machine.execOpAbortTimer tag s
  | .opTimeout tag => Sys2Proof.Machine.execOpTimeout tag s
  | .moduleSourceRead bay addr len => Sys2Proof.Machine.execModuleSourceRead bay addr len s
  | .bayPerstRelease bay => Sys2Proof.Machine.execBayPerstRelease bay s
  | .bayLinkTrainTimeout bay => Sys2Proof.Machine.execBayLinkTrainTimeout bay s
  | .bayEnumerate bay copy1 copy2 => Sys2Proof.Machine.execBayEnumerate bay copy1 copy2 s
  | .bayPortReady bay ready => Sys2Proof.Machine.execBayPortReady bay ready s
  | .baylnkRetrain bay => Sys2Proof.Machine.execBaylnkRetrain bay s
  | .baylnkHold bay v => Sys2Proof.Machine.execBaylnkHold bay v s
  | .bayLinkDown bay => Sys2Proof.Machine.execBayLinkDown bay s
  | .spareBandForm gi => Sys2Proof.Machine.execSpareBandForm gi s
  | .gcVictimSelect gi => Sys2Proof.Machine.execGcVictimSelect gi s
  | .gcBatchVerified gi victim => Sys2Proof.Machine.execGcBatchVerified gi victim s
  | .gcVictimDurable gi victim => Sys2Proof.Machine.execGcVictimDurable gi victim s
  | .gcReadersDrained gi victim => Sys2Proof.Machine.execGcReadersDrained gi victim s
  | .zoneCompact nsx zone => Sys2Proof.Machine.execZoneCompact nsx zone s
  | .wearLevelStart gi => Sys2Proof.Machine.execWearLevelStart gi s
  | .deltaLogAppend gi => Sys2Proof.Machine.execDeltaLogAppend gi s
  | .checkpointTimer gi => Sys2Proof.Machine.execCheckpointTimer gi s
  | .groupMount g img => Sys2Proof.Machine.execGroupMount g img s
  | .skimPassStart => Sys2Proof.Machine.execSkimPassStart s
  | .skimStripeCompare g band q => Sys2Proof.Machine.execSkimStripeCompare g band q s
  | .jmirrorRx src body => Sys2Proof.Machine.execJmirrorRx src body s
  | .jackRx body => Sys2Proof.Machine.execJackRx body s
  | .jmirrorRetry g => Sys2Proof.Machine.execJmirrorRetry g s
  | .mirrorFailTimeout g => Sys2Proof.Machine.execMirrorFailTimeout g s
  | .resyncStart g => Sys2Proof.Machine.execResyncStart g s
  | .resyncRx page => Sys2Proof.Machine.execResyncRx page s
  | .jcopyReqRx src body => Sys2Proof.Machine.execJcopyReqRx src body s
  | .jcopyRx body => Sys2Proof.Machine.execJcopyRx body s
  | .jcopyTimeout g => Sys2Proof.Machine.execJcopyTimeout g s
  | .journalWaitTimeout g => Sys2Proof.Machine.execJournalWaitTimeout g s
  | .spareDelayExpiry g m => Sys2Proof.Machine.execSpareDelayExpiry g m s
  | .returnWindowExpiry g m => Sys2Proof.Machine.execReturnWindowExpiry g m s
  | .rebuildBandDone g band => Sys2Proof.Machine.execRebuildBandDone g band s
  | .hostFrameRx f => Sys2Proof.Machine.execHostFrameRx f s
  | .pfcFrameRx port sub vec times => Sys2Proof.Machine.execPfcFrameRx port sub vec times s
  | .pfcWatchdog port sub cls => Sys2Proof.Machine.execPfcWatchdog port sub cls s
  | .subportDown port sub => Sys2Proof.Machine.execSubportDown port sub s
  | .subportUp port sub => Sys2Proof.Machine.execSubportUp port sub s
  | .netPortEnable port enable => Sys2Proof.Machine.execNetPortEnable port enable s
  | .portSelect port sub => Sys2Proof.Machine.execPortSelect port sub s
  | .internalFrameAdmit f => Sys2Proof.Machine.execInternalFrameAdmit f s
  | .cnpRx cntlid qid => Sys2Proof.Machine.execCnpRx cntlid qid s
  | .cnpRecover cntlid qid => Sys2Proof.Machine.execCnpRecover cntlid qid s
  | .mirrorReset => Sys2Proof.Machine.execMirrorReset s
  | .netCommit => Sys2Proof.Machine.execNetCommit s
  | .scrimFrameRx port frame => Sys2Proof.Machine.execScrimFrameRx port frame s
  | .helloTx => Sys2Proof.Machine.execHelloTx s
  | .helloRx port body => Sys2Proof.Machine.execHelloRx port body s
  | .adjDead port => Sys2Proof.Machine.execAdjDead port s
  | .addrClaim => Sys2Proof.Machine.execAddrClaim s
  | .lsaRx port body => Sys2Proof.Machine.execLsaRx port body s
  | .lsaAckRx port body => Sys2Proof.Machine.execLsaAckRx port body s
  | .lsaRetransmit port => Sys2Proof.Machine.execLsaRetransmit port s
  | .lsaRefresh => Sys2Proof.Machine.execLsaRefresh s
  | .lsaAgeTick => Sys2Proof.Machine.execLsaAgeTick s
  | .spfCompute => Sys2Proof.Machine.execSpfCompute s
  | .faultReportRx port body => Sys2Proof.Machine.execFaultReportRx port body s
  | .faultWindowExpiry subject cls => Sys2Proof.Machine.execFaultWindowExpiry subject cls s
  | .faultRepeat subject cls => Sys2Proof.Machine.execFaultRepeat subject cls s
  | .leaseAnswerRx body => Sys2Proof.Machine.execLeaseAnswerRx body s
  | .leaseLapse g => Sys2Proof.Machine.execLeaseLapse g s
  | .takeoverTrigger g => Sys2Proof.Machine.execTakeoverTrigger g s
  | .witnessRegisterRx src flow body => Sys2Proof.Machine.execWitnessRegisterRx src flow body s
  | .witnessRenewRx src flow body => Sys2Proof.Machine.execWitnessRenewRx src flow body s
  | .witnessTakeoverRx src flow body => Sys2Proof.Machine.execWitnessTakeoverRx src flow body s
  | .witnessReleaseRx body => Sys2Proof.Machine.execWitnessReleaseRx body s
  | .releaseHoldExpiry uid => Sys2Proof.Machine.execReleaseHoldExpiry uid s
  | .provisionalMature uid => Sys2Proof.Machine.execProvisionalMature uid s
  | .witnessDatagramRx addr port bytes => Sys2Proof.Machine.execWitnessDatagramRx addr port bytes s
  | .voteRx body => Sys2Proof.Machine.execVoteRx body s
  | .takeoverAttemptEnd g => Sys2Proof.Machine.execTakeoverAttemptEnd g s
  | .takeoverRetry g => Sys2Proof.Machine.execTakeoverRetry g s
  | .handoverOfferRx body => Sys2Proof.Machine.execHandoverOfferRx body s
  | .handoverAckRx body => Sys2Proof.Machine.execHandoverAckRx body s
  | .handoverCommitRx body => Sys2Proof.Machine.execHandoverCommitRx body s
  | .handoverCancelRx body => Sys2Proof.Machine.execHandoverCancelRx body s
  | .handoverRequestRx body => Sys2Proof.Machine.execHandoverRequestRx body s
  | .handoverJackTimeout g => Sys2Proof.Machine.execHandoverJackTimeout g s
  | .failbackHoldoffExpiry g => Sys2Proof.Machine.execFailbackHoldoffExpiry g s
  | .swapDue g => Sys2Proof.Machine.execSwapDue g s
  | .witnessUnreachable g => Sys2Proof.Machine.execWitnessUnreachable g s
  | .keyxInitRx port body => Sys2Proof.Machine.execKeyxInitRx port body s
  | .keyxConfirmRx port body => Sys2Proof.Machine.execKeyxConfirmRx port body s
  | .keyxInitResend port => Sys2Proof.Machine.execKeyxInitResend port s
  | .keyxRestart port => Sys2Proof.Machine.execKeyxRestart port s
  | .keyxRekey port => Sys2Proof.Machine.execKeyxRekey port s
  | .rootKeyFault => Sys2Proof.Machine.execRootKeyFault s
  | .entropyFail => Sys2Proof.Machine.execEntropyFail s
  | .entropyRecover => Sys2Proof.Machine.execEntropyRecover s
  | .tlsRecordRx cntlid qid tagOk => Sys2Proof.Machine.execTlsRecordRx cntlid qid tagOk s
  | .tlsKeyUpdate cntlid qid tx => Sys2Proof.Machine.execTlsKeyUpdate cntlid qid tx s
  | .mbxDoorbell c => Sys2Proof.Machine.execMbxDoorbell c s
  | .mbxAck c => Sys2Proof.Machine.execMbxAck c s
  | .bar2AreaWrite off data => Sys2Proof.Machine.execBar2AreaWrite off data s
  | .mbxMpRequest addr port datagram => Sys2Proof.Machine.execMbxMpRequest addr port datagram s
  | .mbxSmbusRequest pecOk msgType bytes => Sys2Proof.Machine.execMbxSmbusRequest pecOk msgType bytes s
  | .mbxScrimRequest src devId m => Sys2Proof.Machine.execMbxScrimRequest src devId m s
  | .mbxDataDieTake c => Sys2Proof.Machine.execMbxDataDieTake c s
  | .mbxAonWithdraw chan => Sys2Proof.Machine.execMbxAonWithdraw chan s
  | .jobDone job => Sys2Proof.Machine.execJobDone job s
  | .identify chan => Sys2Proof.Machine.execIdentify chan s
  | .stats chan => Sys2Proof.Machine.execStats chan s
  | .statsDescribe chan => Sys2Proof.Machine.execStatsDescribe chan s
  | .netAddr chan => Sys2Proof.Machine.execNetAddr chan s
  | .mirrorRead chan => Sys2Proof.Machine.execMirrorRead chan s
  | .reset chan => Sys2Proof.Machine.execReset chan s
  | .credential chan => Sys2Proof.Machine.execCredential chan s
  | .jobStatus chan => Sys2Proof.Machine.execJobStatus chan s
  | .fuseStatus chan => Sys2Proof.Machine.execFuseStatus chan s
  | .fuseRootKey chan readBackOk => Sys2Proof.Machine.execFuseRootKey chan readBackOk s
  | .fuseKeyHash chan readBackOk => Sys2Proof.Machine.execFuseKeyHash chan readBackOk s
  | .fuseLifecycle chan readBackOk => Sys2Proof.Machine.execFuseLifecycle chan readBackOk s
  | .fuseDebugLock chan readBackOk => Sys2Proof.Machine.execFuseDebugLock chan readBackOk s
  | .otpWrite chan readBackOk => Sys2Proof.Machine.execOtpWrite chan readBackOk s
  | .otpVoid chan readBackOk => Sys2Proof.Machine.execOtpVoid chan readBackOk s
  | .otpRead chan => Sys2Proof.Machine.execOtpRead chan s
  | .nsCreate chan => Sys2Proof.Machine.execNsCreate chan s
  | .nsDelete chan => Sys2Proof.Machine.execNsDelete chan s
  | .nsResize chan => Sys2Proof.Machine.execNsResize chan s
  | .nsAttr chan => Sys2Proof.Machine.execNsAttr chan s
  | .nsGrant chan => Sys2Proof.Machine.execNsGrant chan s
  | .nsSubsys chan => Sys2Proof.Machine.execNsSubsys chan s
  | .nsInfo chan => Sys2Proof.Machine.execNsInfo chan s
  | .bayStatus chan => Sys2Proof.Machine.execBayStatus chan s
  | .bayPower chan => Sys2Proof.Machine.execBayPower chan s
  | .bayHold chan => Sys2Proof.Machine.execBayHold chan s
  | .grpForm chan => Sys2Proof.Machine.execGrpForm chan s
  | .grpDissolve chan => Sys2Proof.Machine.execGrpDissolve chan s
  | .grpAssign chan => Sys2Proof.Machine.execGrpAssign chan s
  | .grpAcceptLoss chan => Sys2Proof.Machine.execGrpAcceptLoss chan s
  | .grpStatus chan => Sys2Proof.Machine.execGrpStatus chan s
  | .grpLostRead chan => Sys2Proof.Machine.execGrpLostRead chan s
  | .faultSubmit chan => Sys2Proof.Machine.execFaultSubmit chan s
  | .forceTakeover chan => Sys2Proof.Machine.execForceTakeover chan s
  | .handover chan => Sys2Proof.Machine.execHandover chan s
  | .labelWrite chan => Sys2Proof.Machine.execLabelWrite chan s
  | .labelRead chan => Sys2Proof.Machine.execLabelRead chan s
  | .genAdvance chan => Sys2Proof.Machine.execGenAdvance chan s
  | .pskExport chan => Sys2Proof.Machine.execPskExport chan s
  | .modeStatus chan => Sys2Proof.Machine.execModeStatus chan s
  | .modeRequest chan => Sys2Proof.Machine.execModeRequest chan s
  | .wakeConfig chan => Sys2Proof.Machine.execWakeConfig chan s
  | .islandTime chan => Sys2Proof.Machine.execIslandTime chan s
  | .bbxRead chan => Sys2Proof.Machine.execBbxRead chan s
  | .bbxClear chan => Sys2Proof.Machine.execBbxClear chan s
  | .paramGet chan => Sys2Proof.Machine.execParamGet chan s
  | .paramSet chan => Sys2Proof.Machine.execParamSet chan s
  | .paramCommit chan => Sys2Proof.Machine.execParamCommit chan s
  | .paramDiscard chan => Sys2Proof.Machine.execParamDiscard chan s
  | .paramDescribe chan => Sys2Proof.Machine.execParamDescribe chan s
  | .paramSave chan => Sys2Proof.Machine.execParamSave chan s
  | .paramDefaults chan => Sys2Proof.Machine.execParamDefaults chan s
  | .fwBegin chan => Sys2Proof.Machine.execFwBegin chan s
  | .fwWrite chan => Sys2Proof.Machine.execFwWrite chan s
  | .fwVerify chan => Sys2Proof.Machine.execFwVerify chan s
  | .fwActivate chan => Sys2Proof.Machine.execFwActivate chan s
  | .fwConfirm chan readBackOk => Sys2Proof.Machine.execFwConfirm chan readBackOk s
  | .fwStatus chan => Sys2Proof.Machine.execFwStatus chan s
  | .fwAbort chan => Sys2Proof.Machine.execFwAbort chan s
  | .fwSessionIdle => Sys2Proof.Machine.execFwSessionIdle s
  | .fwTrialTimeout => Sys2Proof.Machine.execFwTrialTimeout s
  | .eventRead chan => Sys2Proof.Machine.execEventRead chan s
  | .eventWait chan => Sys2Proof.Machine.execEventWait chan s
  | .eventWaitTimeout chan => Sys2Proof.Machine.execEventWaitTimeout chan s
  | .evtHeadRead => Sys2Proof.Machine.execEvtHeadRead s
  | .configRequest write r value => Sys2Proof.Machine.execConfigRequest write r value s
  | .epPerstAssert => Sys2Proof.Machine.execEpPerstAssert s
  | .epPerstDeassert => Sys2Proof.Machine.execEpPerstDeassert s
  | .epCfgReadyTimeout => Sys2Proof.Machine.execEpCfgReadyTimeout s
  | .epHotReset => Sys2Proof.Machine.execEpHotReset s
  | .epFlr => Sys2Proof.Machine.execEpFlr s
  | .epLinkDown => Sys2Proof.Machine.execEpLinkDown s
  | .epLinkUp gen width => Sys2Proof.Machine.execEpLinkUp gen width s
  | .dmaReadTimeout queue => Sys2Proof.Machine.execDmaReadTimeout queue s
  | .epD3hotEntry => Sys2Proof.Machine.execEpD3hotEntry s
  | .epD3coldEntry => Sys2Proof.Machine.execEpD3coldEntry s
  | .epD0Return => Sys2Proof.Machine.execEpD0Return s
  | .pmeTurnOff waitedOut => Sys2Proof.Machine.execPmeTurnOff waitedOut s
  | .bar4Access write off len data => Sys2Proof.Machine.execBar4Access write off len data s
  | .epWinCommit => Sys2Proof.Machine.execEpWinCommit s
  | .winEpochDrain => Sys2Proof.Machine.execWinEpochDrain s
  | .dmaDescDone queue => Sys2Proof.Machine.execDmaDescDone queue s
  | .msixUnmask v => Sys2Proof.Machine.execMsixUnmask v s
  | .prslChange bay seated => Sys2Proof.Machine.execPrslChange bay seated s
  | .prssChange bay seated => Sys2Proof.Machine.execPrssChange bay seated s
  | .seatTimer bay => Sys2Proof.Machine.execSeatTimer bay s
  | .unseatTimer bay => Sys2Proof.Machine.execUnseatTimer bay s
  | .rampComplete bay vchAtLeastVout => Sys2Proof.Machine.execRampComplete bay vchAtLeastVout s
  | .gateEnhanced bay => Sys2Proof.Machine.execGateEnhanced bay s
  | .rampTimeout bay => Sys2Proof.Machine.execRampTimeout bay s
  | .faultTimerExpiry bay peakMa => Sys2Proof.Machine.execFaultTimerExpiry bay peakMa s
  | .fastTrip bay => Sys2Proof.Machine.execFastTrip bay s
  | .powerGoodAssert bay voutMv => Sys2Proof.Machine.execPowerGoodAssert bay voutMv s
  | .pgUndervolt bay => Sys2Proof.Machine.execPgUndervolt bay s
  | .thermalSample bay t => Sys2Proof.Machine.execThermalSample bay t s
  | .fetDamageDetect bay nearVout => Sys2Proof.Machine.execFetDamageDetect bay nearVout s
  | .retryOfftimeExpiry bay => Sys2Proof.Machine.execRetryOfftimeExpiry bay s
  | .retryCountReset bay => Sys2Proof.Machine.execRetryCountReset bay s
  | .cycleReturn bay => Sys2Proof.Machine.execCycleReturn bay s
  | .baypwrOn bay => Sys2Proof.Machine.execBaypwrOn bay s
  | .baypwrOff bay => Sys2Proof.Machine.execBaypwrOff bay s
  | .baypwrCycle bay => Sys2Proof.Machine.execBaypwrCycle bay s
  | .baypwrClear bay => Sys2Proof.Machine.execBaypwrClear bay s
  | .bayOrReverse bay => Sys2Proof.Machine.execBayOrReverse bay s
  | .feedOringOn b feedMv busMv => Sys2Proof.Machine.execFeedOringOn b feedMv busMv s
  | .feedReverseOff b feedMv busMv => Sys2Proof.Machine.execFeedReverseOff b feedMv busMv s
  | .feedRearm b feedMv busMv => Sys2Proof.Machine.execFeedRearm b feedMv busMv s
  | .feedOvOff b feedMv => Sys2Proof.Machine.execFeedOvOff b feedMv s
  | .feedOvRecover b feedMv busMv => Sys2Proof.Machine.execFeedOvRecover b feedMv busMv s
  | .feedAbsent b feedMv => Sys2Proof.Machine.execFeedAbsent b feedMv s
  | .feedRestored b feedMv busMv => Sys2Proof.Machine.execFeedRestored b feedMv busMv s
  | .feedCollapse busMv => Sys2Proof.Machine.execFeedCollapse busMv s
  | .pwrfailNFall => Sys2Proof.Machine.execPwrfailNFall s
  | .flushProgressTick => Sys2Proof.Machine.execFlushProgressTick s
  | .pfailFlushDone => Sys2Proof.Machine.execPfailFlushDone s
  | .postFlushReset => Sys2Proof.Machine.execPostFlushReset s
  | .sramEccError region => Sys2Proof.Machine.execSramEccError region s
  | .dramEccError line => Sys2Proof.Machine.execDramEccError line s
  | .invariantBreak => Sys2Proof.Machine.execInvariantBreak s
  | .dieCriticalTemp => Sys2Proof.Machine.execDieCriticalTemp s
  | .dieOvertempShutdown tempC => Sys2Proof.Machine.execDieOvertempShutdown tempC s
  | .overtempWakeHoldEnd => Sys2Proof.Machine.execOvertempWakeHoldEnd s
  | .islandEntryComplete => Sys2Proof.Machine.execIslandEntryComplete s
  | .wakeInputQualify levels => Sys2Proof.Machine.execWakeInputQualify levels s
  | .islandAlarm => Sys2Proof.Machine.execIslandAlarm s
  | .wakeLatchClear mask => Sys2Proof.Machine.execWakeLatchClear mask s
  | .islandExit => Sys2Proof.Machine.execIslandExit s
  | .mainPgTimeout => Sys2Proof.Machine.execMainPgTimeout s
  | .mainPgRise => Sys2Proof.Machine.execMainPgRise s
  | .mainPgFall => Sys2Proof.Machine.execMainPgFall s
  | .ddRstRelease => Sys2Proof.Machine.execDdRstRelease s
  | .primerBoot pipes keyingOk => Sys2Proof.Machine.execPrimerBoot pipes keyingOk s
  | .standbyReached => Sys2Proof.Machine.execStandbyReached s
  | .resumeTimeWindow => Sys2Proof.Machine.execResumeTimeWindow s
  | .avsResponse ack readMv => Sys2Proof.Machine.execAvsResponse ack readMv s
  | .avsTimeout => Sys2Proof.Machine.execAvsTimeout s
  | .avsLowerRetry => Sys2Proof.Machine.execAvsLowerRetry s
  | .islandSupplyChange aux poe poeClass => Sys2Proof.Machine.execIslandSupplyChange aux poe poeClass s
  | .vaonLoss => Sys2Proof.Machine.execVaonLoss s
  | .bbxRecordSubmit r => Sys2Proof.Machine.execBbxRecordSubmit r s
  | .bbxRecordCommit readBackOk => Sys2Proof.Machine.execBbxRecordCommit readBackOk s
  | .bbxEraseDone => Sys2Proof.Machine.execBbxEraseDone s
  | .ddBeatEdge => Sys2Proof.Machine.execDdBeatEdge s
  | .watchdogExpiry => Sys2Proof.Machine.execWatchdogExpiry s
  | .powerDieReset => Sys2Proof.Machine.execPowerDieReset s
  | .pwronResetAssert => Sys2Proof.Machine.execPwronResetAssert s
  | .pwronResetRelease slotB prov bootSel shelf => Sys2Proof.Machine.execPwronResetRelease slotB prov bootSel shelf s
  | .bayLinkTrained bay speed width => Sys2Proof.Machine.execBayLinkTrained bay speed width s
  | .breakerCrossing bay breaker limit => Sys2Proof.Machine.execBreakerCrossing bay breaker limit s
  | .operatingPointVoltage mv forEntry => Sys2Proof.Machine.execOperatingPointVoltage mv forEntry s
  | .mpPhyResetRelease => Sys2Proof.Machine.execMpPhyResetRelease s
  | .ptpMessageTx m => Sys2Proof.Machine.execPtpMessageTx m s
  | .ptpPdelayReqRx port seq => Sys2Proof.Machine.execPtpPdelayReqRx port seq s
  | .pfcPauseExpiry port sub cls => Sys2Proof.Machine.execPfcPauseExpiry port sub cls s
  | .pfcWatchdogRecover port sub cls => Sys2Proof.Machine.execPfcWatchdogRecover port sub cls s
  | .transportRetransmit cntlid qid => Sys2Proof.Machine.execTransportRetransmit cntlid qid s

end Sys2Proof.Machine
end

