-- ==== Sys2Proof/Safety.lean ====
section
/-! DEFINITION. What a safe run of the block is (no step stops, and what every step keeps), and the words that statements about
commands share: an event told, a request carried, what a command leaves alone. -/

namespace Sys2Proof

/-- The step answers a next state. -/
def Machine.Runs (s : Machine.State) : Prop := ∃ t, Machine.step s = .next t

namespace Machine

/-- BAR2 and the host exchange area are in canonical form. -/
def State.memWf (s : State) : Prop := s.mbx.bar2.wf = true ∧ s.ep.exchange.wf = true

/-- The event ring holds at most 8,192 records, and their SEQs are consecutive and end at EVT_HEAD (R395). -/
def RingOk (m : MbxState) : Prop :=
  m.events.length ≤ 8192 ∧ m.events.length ≤ m.evtHead ∧
    ∀ i, i < m.events.length → (nth m.events i).seq = m.evtHead - m.events.length + i + 1

/-- The mailbox block: BAR2 in canonical form, 64 channels (R372), the ring in order. -/
def MbxOk (m : MbxState) : Prop := Memory.wf m.bar2 = true ∧ m.chans.length = 64 ∧ RingOk m

/-- The endpoint: the exchange area in canonical form, two banks of 128 entries (R408), 64 vectors (R416). -/
def EpOk (e : EpState) : Prop :=
  Memory.wf e.exchange = true ∧ e.shadow.length = 128 ∧ e.active.length = 128 ∧ e.msix.length = 64

/-- Fuses only blow: every bit that is blown stays blown (R499). -/
def FuseLe (f g : FuseState) : Prop :=
  f.provisioned &&& g.provisioned = f.provisioned ∧ f.deployed &&& g.deployed = f.deployed ∧
  f.retired &&& g.retired = f.retired ∧ f.debugLock &&& g.debugLock = f.debugLock ∧
  f.rollback &&& g.rollback = f.rollback

/-- What every step keeps: the mailbox block and the endpoint in order, six groups, 24 bay channels and bays, 12 ports, 4 SP
ports. -/
structure State.Inv (s : State) : Prop where
  mbx : MbxOk s.mbx
  ep : EpOk s.ep
  groups : s.groups.length = 6
  chans : s.pwr.chans.length = 24
  bays : s.flash.bays.length = 24
  ports : s.net.ports.length = 12
  adjs : s.scrim.adjs.length = 4

/-- `t` with everything that telling an event, a record or a response may touch put back as `s` has it: the mailbox block, the
endpoint's interrupts, the black-box queue, what has left the block, and what a response over the Scrim costs: the packet number
of its link, the counters, the key cache and the free values of the dummy rounds. -/
def State.hush (t s : State) : State :=
  { t with mbx := s.mbx, ep := s.ep, bbx := s.bbx, out := s.out, free := s.free
           scrim := { t.scrim with adjs := s.scrim.adjs, ctrs := s.scrim.ctrs }
           ciph := { t.ciph with cache := s.ciph.cache, ctrs := s.ciph.ctrs } }

/-- `t` differs from `s` by at most what has been told. -/
def OnlyTells (s t : State) : Prop := t.hush s = s

/-- A channel carries a request of an opcode that passes every check of R377 and that the data die runs. -/
def State.carries (s : State) (c opcode : Nat) : Prop :=
  readyFor c opcode s = true ∧ requestError c (s.chan c).req s = none

/-- The body of the request that a channel carries. -/
def State.body (s : State) (c : Nat) : List Byte := reqBody (s.chan c).req

/-- The newest record of the event ring. -/
def State.newest (s : State) : Option EventRec := s.mbx.events.getLast?

/-- The newest event is of this code, subject and detail. -/
def State.told (s : State) (code subj : Nat) (detail : List Int) : Prop :=
  ∃ e, s.newest = some e ∧ e.code = code ∧ e.subject = subj ∧ e.detail = detail

/-- The election and the choice of source stand: done again they yield what holds (R41, R44). -/
abbrev State.timeStands (s : State) : Prop :=
  s.elect.dev = s.time.gmDev ∧ (s.elect.dev == s.fuse.deviceId) = s.time.gm ∧ s.bestSource = s.time.active

/-- A message has left on a protected link: its route header and body, sealed under the link's key (R311, R312). -/
def State.carriedOn (t : State) (p : Nat) (h : RouteHead) : Prop :=
  ∃ head, Output.scrim p (sealedFrame (t.adj p).txKey head h.bytes) ∈ t.out

/-- What has left between two states is PFC frames only (R286). -/
def State.pfcOnly (s t : State) : Prop := ∃ l, t.out = s.out ++ l ∧ ∀ o ∈ l, ∃ p i c b, o = .pfc p i c b

/-- The ANA states that hosts were told stand (R95). -/
abbrev State.anaStands (s : State) : Prop := ∀ i, i < 6 → nth s.host.ana i = s.anaState i

/-- An event raised now is told and stays the newest one: the data die is out of reset, and the black box has room for the copies
of a few (R395, R483, R486). -/
def State.canTell (s : State) : Prop := s.pins.ddReset = false ∧ 8 ≤ s.bbxTokens ∧ s.bbx.queue.length < 48

/-- A capsule that arrives now is decoded at once: its queue is connected, the mode offers host service, a command context is free, no
capsule is held before it and no flush runs (R62, R63, R454). -/
def State.decodesNow (s : State) (c : Payload.Capsule) : Prop :=
  s.connected c = true ∧ s.serving = true ∧ s.flush.active = false ∧ s.contexts < 65536 ∧ s.host.held = []

/-- The state in which a capsule is decoded: its association's keep alive timer has started again (R64) and its entry is consumed
(R74). -/
def State.decoded (s : State) (c : Payload.Capsule) : State :=
  advance c (match s.assocAt c.cntlid with
    | some a => s.modAssoc a.num fun a => { a with heard := s.clock }
    | none => s)

/-- An admin capsule of an association is decoded at once. -/
def State.adminNow (s : State) (c : Payload.Capsule) (a : Assoc) : Prop :=
  s.decodesNow c ∧ c.qid = 0 ∧ c.fuse = 0 ∧ s.assocAt c.cntlid = some a

/-- An I/O capsule to a namespace is decoded at once, and the namespace takes it: granted, Optimized here (and writable), its key
generation in force (R66, R68, R100). -/
def State.ioNow (s : State) (c : Payload.Capsule) (write : Bool) (a : Assoc) (q : Session) (n : Ns) : Prop :=
  s.decodesNow c ∧ c.qid ≠ 0 ∧ c.fuse = 0 ∧ s.assocAt c.cntlid = some a ∧ s.sessAt c.cntlid c.qid = some q ∧
    s.hostNs a c.nsid = some n ∧ s.anaRefusal n.group write = none ∧ ¬(n.encrypted = true ∧ n.genRetired = true)

/-- SQHD of an association's or a session's completions after one more entry. -/
def Assoc.nextHd (a : Assoc) : Nat := (a.sqhd + 1) % max 1 a.sqsize
def Session.nextHd (q : Session) : Nat := (q.sqhd + 1) % max 1 q.sqsize

end Machine

end Sys2Proof
end

