-- ==== Sys2Proof/Certificates/Slice0/Obligations.lean ====
section
/-! DEFINITION. The statements for the provers, in the order of the spec's chapters. -/

section

open Sys2Proof Sys2Proof.Machine

/-- A step runs the command at the front of the queue, with the queue's rest -/
def Obligations.StepTakesFront : Prop :=
  ∀ (c : Instr) (rest : List Instr) (s : State),
    step { s with pending := c :: rest } = exec c { s with pending := rest }

/-- With nothing waiting, a step passes one 1.6 GHz cycle and adds the addend to fabric time -/
def Obligations.IdleStepPassesOneCycle : Prop :=
  ∀ s : State, s.pending = [] → ∃ t, step s = .next t ∧ t.clock = s.clock + 1 ∧
    t.time.fab = s.time.fab + (if s.pins.ddReset then 0 else s.time.addend) ∧
    { t with clock := s.clock, time := { t.time with fab := s.time.fab } } = s

/-- No command stops the block: exec answers a next state for every command and state -/
def Obligations.EveryCommandAnswersNextState : Prop :=
  ∀ (c : Instr) (s : State), ∃ t, exec c s = .next t

/-- No command touches the queue, turns real time back, or takes back what has left the block -/
def Obligations.CommandsKeepQueueAndOnlyAdd : Prop :=
  ∀ (c : Instr) (s t : State), exec c s = .next t →
    t.pending = s.pending ∧ s.clock ≤ t.clock ∧ s.free ≤ t.free ∧ s.out <+: t.out

/-- Every step keeps the memories canonical, the event ring consecutive, and the sizes of the register tables -/
def Obligations.EveryStepKeepsMemoriesRingAndTables : Prop :=
  ∀ s t : State, s.Inv → step s = .next t → t.Inv

/-- The reset state meets what every step keeps -/
def Obligations.ResetStateMeetsInvariant : Prop :=
  State.reset.Inv

/-- No command unblows a fuse: lifecycle, debug-lock and rollback bits only gain ones -/
def Obligations.FusesOnlyBlow : Prop :=
  ∀ (c : Instr) (s t : State), exec c s = .next t → FuseLe s.fuse t.fuse

/-- Registers of BAR0 after reset hold the reset values that the register tables give -/
def Obligations.ResetRegistersHoldTableValues : Prop :=
  (∀ p ∈ ([(0x20030, 0x22), (0x20034, 0x44F), (0x20040, 0x6410), (0x40000, 0xFF00), (0x40040, 0xFFFFFFFF), (0x40C10, 0x10000000),
     (0xB0004, 0x7), (0x30000, 0x2000), (0x70010, 0x80000000), (0x70500, 0x2), (0x80004, 0xFB0), (0x80020, 0x3200320),
     (0x40044, 0xFFFFFFFF), (0x40048, 0xFFFFFFFF), (0x4004C, 0xFFFFFFFF), (0x40050, 0xFFFFFFFF), (0x40054, 0xFFFFFFFF), (0x40058, 0xFFFFFFFF),
     (0x4005C, 0xFFFFFFFF), (0x40060, 0xFFFFFFFF), (0x40064, 0xFFFFFFFF), (0x40068, 0xFFFFFFFF), (0x4006C, 0xFFFFFFFF), (0x40070, 0xFFFFFFFF),
     (0x40074, 0xFFFFFFFF), (0x40078, 0xFFFFFFFF), (0x4007C, 0xFFFFFFFF)] : List (Nat × Nat)),
    State.reset.reg p.1 = p.2) ∧
  (∀ a ∈ ([0x00010, 0x20000, 0x20004, 0x20010, 0x20014, 0x20018, 0x2001C, 0x20020, 0x20024, 0x20028, 0x2002C,
     0x20038, 0x2003C, 0x20044, 0x20048, 0x20050, 0x20054, 0x20060, 0x20064, 0x20068, 0x60000, 0x60004,
     0x60008, 0x6000C, 0x60010, 0x60014, 0x40004, 0x40008, 0x4000C, 0x40C00, 0x40C04, 0x40C14, 0x40C18,
     0x40C1C, 0x50000, 0x50004, 0x50010, 0x50030, 0x50048, 0x5004C, 0xB0000, 0xB0008, 0xB000C, 0xB0010,
     0x10000, 0x10008, 0x10400, 0x10404, 0x10408, 0x1040C, 0xC0000, 0xC0004, 0xC0008, 0x30010, 0x30014,
     0x30018, 0x3001C, 0x30020, 0x30024, 0x30040, 0x31000, 0x31004, 0x70000, 0x70004, 0x70008, 0x7000C,
     0x70014, 0x70018, 0x70400, 0x70404, 0x70408, 0x80000, 0x80008, 0x8000C, 0x80010, 0x80014, 0x80018,
     0x8001C, 0x80024, 0x00020, 0x90000, 0x90004, 0x90008] : List Nat),
    State.reset.reg a = 0) ∧
  ∀ s : State, s.reg 0 / 2 ^ 8 = 0x2400B0

/-- Mirrored power-die registers: reads give the live value or all ones, posted writes apply in order or are discarded -/
def Obligations.MirroredAccessesFollowLink : Prop :=
  ∀ (s : State) (a v : Nat), s.pins.ddReset = false → s.ep.dstate = .d0 → mirrored a = true → a % 4 = 0 → v < 2 ^ 32 →
    (∀ k n, 1 ≤ n → k + n ≤ 4 →
      (s.sys.linkUp = true → a ≠ 0x00080010 →
        exec (.mirroredRead { off := a + k, len := n }) s = .next { s with out := s.out ++ [.regRead (a + k) (slice (leBytes 4 (s.reg a)) k n)] }) ∧
      (s.sys.linkUp = true → a = 0x00080010 →
        exec (.mirroredRead { off := a + k, len := n }) s = .next { s with
          mode := { s.mode with islHi := s.island / 2 ^ 32 }
          out := s.out ++ [.regRead (a + k) (slice (leBytes 4 (s.reg a)) k n)] }) ∧
      (s.sys.linkUp = false →
        exec (.mirroredRead { off := a + k, len := n }) s =
          .next { s with sys := { s.sys with linkTimeout := true }, out := s.out ++ [.regRead (a + k) (List.replicate n 0xFF)] })) ∧
    (s.sys.linkUp = true →
      exec (.registerWrite a (leBytes 4 v)) s =
        .next { s with sys := { s.sys with posted := s.sys.posted ++ [{ addr := a, value := v }] } }) ∧
    (s.sys.linkUp = false →
      exec (.registerWrite a (leBytes 4 v)) s = .next { s with sys := { s.sys with linkTimeout := true } }) ∧
    (s.sys.linkUp = true → ∀ (n : Nat) (reads : List Nat),
      exec (.pkgLinkDown n reads) s =
        .next { s with
          sys := { s.sys with
            linkUp := false, linkDownSeen := true, posted := [], replays := min 0xFF (s.sys.replays + n),
            linkTimeout := s.sys.linkTimeout || (!s.sys.posted.isEmpty || !reads.isEmpty) },
          out := s.out ++ reads.map fun r => .regRead r (leBytes 4 0xFFFFFFFF) }) ∧
    (s.sys.linkUp = false →
      exec .pkgLinkUp s = .next { s with sys := { s.sys with linkUp := true, trains := min 0xFFFF (s.sys.trains + 1) } }) ∧
    (∀ rest : List PostedWrite, s.sys.posted = { addr := 0x00070408, value := v } :: rest →
      exec .powerDieWriteApply s =
        .next { s with sys := { s.sys with posted := rest }, pwr := { s.pwr with feedEvt := w1c s.pwr.feedEvt v } })

/-- A BAR0 write acts word by word: partial words, undefined offsets and read-only fields drop it; W1C and RW fields take it -/
def Obligations.RegisterWritesFollowAccessCodes : Prop :=
  ∀ (s : State) (v : Nat), s.pins.ddReset = false → s.ep.dstate = .d0 → v < 2 ^ 32 →
    (∀ (a : Nat) (data : List Byte), data.length < 4 → exec (.registerWrite a data) s = .next s) ∧
    (∀ a, 0x000D0000 ≤ a → a % 4 = 0 → exec (.registerWrite a (leBytes 4 v)) s = .next s) ∧
    exec (.registerWrite 0 (leBytes 4 v)) s = .next s ∧
    exec (.registerWrite 0x00020060 (leBytes 4 v)) s =
      .next { s with tregs := { s.tregs with evt := s.tregs.evt &&& (v ^^^ 0xFFFFFFFF) } } ∧
    exec (.registerWrite 0x00030040 (leBytes 4 v)) s = .next { s with ep := { s.ep with roEn := v % 256 } } ∧
    ∀ w, w < 2 ^ 32 → exec (.registerWrite 0x00020050 (leBytes 4 v ++ leBytes 4 w)) s =
      .next { s with time := { s.time with tod := v + w % 2 ^ 16 * 2 ^ 32 } }

/-- Slot s of frame f is the interval from f P + ceil(s P / 64) to the start of the next slot, and slots run from 0 to 63 -/
def Obligations.SlotsBeginWhereFormulaYieldsThem : Prop :=
  (∀ P f k T : Nat, 64 ≤ P → k < 64 →
    (frameOf P T = f ∧ slotOf P T = k ↔ f * P + ceilDiv (k * P) 64 ≤ T ∧
      T < (if k = 63 then (f + 1) * P else f * P + ceilDiv ((k + 1) * P) 64))) ∧
  (∀ P T : Nat, 64 ≤ P → slotOf P T < 64) ∧
  (∀ P f k : Nat, k < 64 → slotStart P (64 * f + k) = f * P + ceilDiv (k * P) 64) ∧
  (∀ s : State, s.frameNow = s.nowNs / s.period ∧ s.slotNow = s.nowNs % s.period * 64 / s.period ∧
    s.turnNow = s.frameNow / s.fpt) ∧
  ∀ P F t : Nat, slotStart P (64 * (t * F)) = t * F * P

/-- A read of TIME_NOW_NS returns the nanoseconds and latches the seven other time registers until the next such read -/
def Obligations.TimeNowReadLatchesTimeRegisters : Prop :=
  ∀ s : State, s.ep.dstate = .d0 → ∃ t, exec .timeNowRead s = .next t ∧
    t.out = s.out ++ [.regRead 0x00020010 (leBytes 4 (s.nowNs % 1000000000))] ∧
    { t with out := s.out, tregs := { t.tregs with
        latSec := s.tregs.latSec, latFrame := s.tregs.latFrame, latTurn := s.tregs.latTurn, latSlot := s.tregs.latSlot } } = s ∧
    ∀ n : Nat,
      (pass n t).reg 0x00020014 = s.nowNs / 1000000000 % 2 ^ 48 % 2 ^ 32 ∧
      (pass n t).reg 0x00020018 = s.nowNs / 1000000000 % 2 ^ 48 / 2 ^ 32 ∧
      (pass n t).reg 0x0002001C = s.frameNow % 2 ^ 32 ∧ (pass n t).reg 0x00020020 = s.frameNow / 2 ^ 32 % 2 ^ 32 ∧
      (pass n t).reg 0x00020024 = s.slotNow ∧
      (pass n t).reg 0x00020028 = s.turnNow % 2 ^ 32 ∧ (pass n t).reg 0x0002002C = s.turnNow / 2 ^ 32 % 2 ^ 32

/-- TIME_CFG changes only while idle, TOD_LOAD arms, PPS_OUT follows its mode, and PTP messages leave on their ports -/
def Obligations.TimeSettingsAndPulses : Prop :=
  (∀ (s : State) (v : Nat), s.timeIdle = false → exec (.timeCfgWrite v) s = .next s) ∧
  (∀ (s : State) (v : Nat), s.ep.dstate = .d0 → s.timeIdle = true →
    (∀ g ∈ s.groups, g.unfit = false) → (∀ gi < 6, nth s.host.ana gi = s.anaState gi) →
    ∃ t, exec (.timeCfgWrite v) s = .next t ∧
    t.paramN 0x1010 = (if v % 8 ≤ 4 then v % 8 else s.paramN 0x1010) ∧
    t.paramN 0x1011 = (if 1 ≤ v / 16 % 16 ∧ v / 16 % 16 ≤ 8 then v / 16 % 16 else s.paramN 0x1011) ∧
    (∀ n, n ≠ 0x1010 → n ≠ 0x1011 → t.param n = s.param n) ∧
    t.tregs = { s.tregs with slotSeen := t.slotIndex, frameSeen := t.frameNow, turnSeen := t.turnNow } ∧
    { t with tregs := s.tregs, par := s.par } = s) ∧
  (∀ s : State, s.ep.dstate = .d0 → exec .todLoad s = .next { s with time := { s.time with todLoad := true } }) ∧
  (∀ s : State, s.ppsOn = (decide (s.paramN 0x101A ≠ 0) && (decide (s.time.servo ≠ .freerun) || s.time.ppsFreerun))) ∧
  (∀ s : State, s.ppsOn = false ∨ s.pins.ddReset = true → exec .ppsOutStart s = .next s) ∧
  (∀ s : State, s.ppsOn = true → s.pins.ddReset = false → s.time.addend ≠ 0 → ∃ t, exec .ppsOutStart s = .next t ∧
    s.nowNs ≤ s.ppsStartNs ∧ (if s.paramN 0x101A = 2 then s.period else 1000000000) ∣ s.ppsStartNs ∧ s.ppsStartNs ≤ t.nowNs ∧
    t.tregs = { s.tregs with
      ppsOut := true
      ppsEnd := s.ppsStartNs + (if s.paramN 0x101A = 2 then ceilDiv s.period 64 else s.paramN 0x101B * 1000000) } ∧
    { t with tregs := s.tregs, clock := s.clock, time := { t.time with fab := s.time.fab } } = s) ∧
  (∀ s : State, s.tregs.ppsOut = false → exec .ppsOutEnd s = .next s) ∧
  (∀ s : State, s.tregs.ppsOut = true → s.pins.ddReset = false → s.time.addend ≠ 0 → ∃ t, exec .ppsOutEnd s = .next t ∧
    t.tregs = { s.tregs with ppsOut := false } ∧ s.tregs.ppsEnd ≤ t.nowNs ∧
    { t with tregs := s.tregs, clock := s.clock, time := { t.time with fab := s.time.fab } } = s) ∧
  (∀ (s : State) (p : Nat) (m : Payload.PtpTx), s.ddUp = true → p < 4 → m = .sync p ∨ m = .announce p ∨ m = .pdelayReq p →
    exec (.ptpMessageTx m) s =
      .next (if s.ptpCarried p then (sealOn p s).emit (.ptp m (s.ptpInfo false) s.nowNs) else s)) ∧
  (∀ (s : State) (p : Nat), s.ddUp = true → (s.paramN 0x1014).testBit p = true →
    exec (.ptpMessageTx (.delayReq p)) s =
      .next { s with out := s.out ++ [.ptp (.delayReq p) (s.ptpInfo true) s.nowNs] }) ∧
  ∀ (s : State) (p q : Nat), s.ddUp = true → p < 4 →
    exec (.ptpPdelayReqRx p q) s =
      .next (if s.ptpCarried p then (sealOn p s).emit (.ptpPdelayResp p (s.paramN 0x1013) q s.nowNs s.nowNs) else s)

/-- What PTP Syncs, Announces, PPS edges and their loss do to the sources and the servo -/
def Obligations.SourcesQualifyAndAreLost : Prop :=
  (∀ (s : State) (m : Payload.PtpSync), s.ddUp = true → m.host = false → m.domain = s.paramN 0x1013 →
    s.srcEnabled 1 = true → s.peerPeriodOk m.devId = true → m.devId = s.time.upDev → s.time.gm = false → s.time.active = 1 →
    s.time.scrim.qualified = true → s.time.scrim.lost = false → s.timeStands →
    ∃ t, exec (.ptpSyncRx m) s = .next t ∧ t.time.active = 1 ∧ t.time.scrim.last = some s.clock ∧
      t.tregs.offset = max (-2147483647) (min 2147483647 (((m.originNs + m.delayNs : Nat) : Int) - (s.nowNs : Int))) ∧
      t.groups = s.groups ∧ t.flash = s.flash ∧ t.time.fab = s.time.fab) ∧
  (∀ (s : State) (m : Payload.PtpAnnounce), s.ddUp = true → ∃ t, exec (.ptpAnnounceRx m) s = .next t ∧
    (∃ p, t.tregs.peers = s.tregs.peers.filter (fun x => x.devId ≠ m.devId) ++ [p] ∧
      p.devId = m.devId ∧ p.cls = m.cls ∧ p.gmDev = m.gmDev ∧ p.gmCls = m.gmCls ∧ p.hops = m.hops ∧
      p.periodUs = m.periodUs ∧ p.fpt = m.fpt ∧ p.reachable = true) ∧
    (m.periodUs * 1000 ≠ s.period → (∀ p ∈ s.tregs.peers, p.devId ≠ m.devId) → t.tregs.evt.testBit 4 = true)) ∧
  (∀ s : State, s.ddUp = true → s.time.active = 2 → s.srcUsable 3 = false → s.srcUsable 1 = false →
    ∃ t, exec (.ptpSourceLoss true) s = .next t ∧ t.time.servo = .holdover ∧ t.time.active = 4 ∧
      t.time.host.qualified = false ∧ t.tregs.evt.testBit 0 = true ∧ t.tregs.evt.testBit 2 = true ∧
      t.time.fab = s.time.fab) ∧
  (∀ (s : State) (w : Nat) (f : Bool), w < 100 ∨ f ≠ (s.paramN 0x1019 == 1) → exec (.ppsInEdge w f) s = .next s) ∧
  (∀ (s : State) (w : Nat) (f : Bool), s.ddUp = true → 100 ≤ w → f = (s.paramN 0x1019 == 1) →
    ∃ t, exec (.ppsInEdge w f) s = .next t ∧ t.time.todLoad = false ∧ t.time.ppsLast = some s.clock ∧
      t.tregs.ppsInNs = s.nowNs % 1000000000 ∧ t.tregs.ppsInSec = s.nowNs / 1000000000 % 2 ^ 32 ∧
      t.time.ppsSec = (if s.time.todLoad then s.time.tod else (s.nowNs + 500000000) / 1000000000) ∧
      (s.time.ppsLast = none → t.time.ppsEdges = 1)) ∧
  (∀ s : State, s.ddUp = true → s.time.ppsQualified = true → ∃ t, exec .ppsInLoss s = .next t ∧ t.time.ppsQualified = false ∧
    t.time.ppsEdges = 0 ∧ t.time.ppsLast = none ∧ t.tregs.evt.testBit 3 = true) ∧
  ∀ s : State, s.time.scrim.qualified = true → s.time.scrim.lost = true → s.srcEnabled 1 = true →
    s.elect.dev ≠ s.fuse.deviceId →
    ∃ t, exec (.sourceRequalified 1) s = .next t ∧ t.time.scrim.lost = false ∧ t.time.active = 1

/-- A finished slew locks; 16 intervals outside the threshold leave LOCKED, by slewing or by a pending step; resume time is
told -/
def Obligations.ServoLocksAndActsOnDrift : Prop :=
  (∀ s : State, s.time.servo = .slewing → s.pins.ddReset = false →
    (s.srcOffset s.time.active).natAbs ≤ s.paramN 0x1016 →
    ({ s with time := { s.time with everLocked := true } } : State).timeStands → ∃ t, exec .slewComplete s = .next t ∧
    t.time.servo = .locked ∧ t.time.everLocked = true ∧ t.time.slewPpb = 0 ∧ t.time.fab = s.time.fab ∧ t.told 0x0101 0 []) ∧
  (∀ s : State, s.time.servo ≠ .slewing ∨ s.paramN 0x1016 < (s.srcOffset s.time.active).natAbs →
    exec .slewComplete s = .next s) ∧
  (∀ s : State, s.time.servo = .locked → 16 ≤ s.time.outside → s.time.stepPending = false → s.time.stepDue = none →
    (s.srcOffset s.time.active).natAbs ≤ s.period → 0 < s.paramN 0x1017 →
    ∃ t, exec .lockOffsetDrift s = .next t ∧ t.time.servo = .slewing ∧ t.time.fab = s.time.fab ∧ t.time.outside = 0 ∧
      t.time.slewPpb.natAbs ≤ s.paramN 0x1017 * 1000 ∧ t.time.slewPpb ≠ 0 ∧
      (0 ≤ s.srcOffset s.time.active ↔ 0 < t.time.slewPpb) ∧ t.tregs.evt = s.tregs.evt ∧ t.mbx = s.mbx) ∧
  (∀ s : State, s.time.servo = .locked → 16 ≤ s.time.outside → s.time.stepPending = false → s.time.stepDue = none →
    s.period < (s.srcOffset s.time.active).natAbs →
    ∃ t, exec .lockOffsetDrift s = .next t ∧ t.time.servo = .holdover ∧
      t.time.stepDue = some (s.srcOffset s.time.active) ∧
      t.time.fab = s.time.fab ∧ t.tregs.evt = s.tregs.evt ∧ t.mbx = s.mbx) ∧
  (∀ s : State, s.mode.resumeOpen = true → s.pins.ddReset = false → ∃ t, exec .resumeTimeWindow s = .next t ∧
    t.mode = { s.mode with efUsed := false, resumeOpen := false } ∧ t.time = s.time ∧
    t.told 0x0D03 0 [s.mode.ei, s.mode.ef, (flag s.mode.cntValid 0 + flag s.mode.unknown 2 : Nat)]) ∧
  ∀ s : State, s.mode.resumeOpen = false → exec .resumeTimeWindow s = .next s

/-- Slot, frame and turn boundaries advance time to their instant and count; commits apply at the turn boundary -/
def Obligations.BoundariesAdvanceNumbers : Prop :=
  (∀ s : State, s.pins.ddReset = true → exec .slotBoundary s = .next s ∧ exec .frameBoundary s = .next s ∧
    exec .turnBoundary s = .next s ∧ exec .timeStep s = .next s) ∧
  ∀ s : State, s.pins.ddReset = false → s.net.scheds = [] → (∀ g ∈ s.groups, g.role = .none ∧ g.hand = none ∧ g.requestAgain = false ∧ ¬(g.formed = true ∧ g.health = .forming)) →
    s.groups.length = 6 → s.flash.skimOn = false → s.mode.toHand = [] → s.time.addend ≠ 0 →
    (s.time.stepDue = none → ∃ t, exec .slotBoundary s = .next t ∧ t.tregs.slotSeen = s.tregs.slotSeen + 1 ∧
      slotStart s.period (s.tregs.slotSeen + 1) ≤ t.nowNs ∧ t.tregs.frames = s.tregs.frames ∧ t.tregs.turns = s.tregs.turns) ∧
    (s.time.stepDue = none → ∃ t, exec .frameBoundary s = .next t ∧ t.tregs.frameSeen = s.tregs.frameSeen + 1 ∧
      (s.tregs.frameSeen + 1) * s.period ≤ t.nowNs ∧ t.tregs.frames = s.tregs.frames + 1 ∧ t.tregs.turns = s.tregs.turns) ∧
    (s.time.stepDue = none → ∀ (e : StageEntry) (late : List StageEntry) (d₁ d₂ : Nat),
      s.par.commits = [{ entries := [e], due := d₁ }, { entries := late, due := d₂ }] →
      d₁ ≤ s.tregs.turnSeen + 1 → s.tregs.turnSeen + 1 < d₂ →
      ∃ t, exec .turnBoundary s = .next t ∧ t.tregs.turnSeen = s.tregs.turnSeen + 1 ∧
        (s.tregs.turnSeen + 1) * s.fpt * s.period ≤ t.nowNs ∧ t.tregs.turns = s.tregs.turns + 1 ∧
        t.time.stepPending = false ∧ t.param e.num = e.val ∧ t.par.commits = [{ entries := late, due := d₂ }]) ∧
    (∀ d : Nat, s.time.stepDue = some (d : Int) → ∃ t, exec .timeStep s = .next t ∧ t.time.stepPending = true ∧
      t.time.stepDue = none ∧ (s.tregs.turnSeen + 1) * s.fpt * s.period + d ≤ t.nowNs ∧
      t.tregs.stepUs = min 2147483647 ((d / 1000 : Nat) : Int) ∧ t.tregs.evt.testBit 1 = true ∧
      t.tregs.frames = s.tregs.frames + 1 ∧ t.tregs.turns = s.tregs.turns)

/-- Admin commands decoded at once answer with the status, DW0 and data the tables give, advancing SQHD and restarting keep
alive -/
def Obligations.AdminCommandsAnswer : Prop :=
  ∀ (s : State) (c : Payload.Capsule) (a : Assoc), s.adminNow c a → c.badBuf = false →
    let done (st : Nat) (dnr : Bool) (dw0 : Nat) : Output := .completion c.cntlid 0 c.cid st dnr dw0 0 a.nextHd
    let only (t : State) (o : List Output) : Prop := t.out = s.out ++ o ∧ { t with host := s.host, out := s.out, free := s.free, ciph := s.ciph } = s
    (∃ t, exec (.keepAlive c) s = .next t ∧ only t [done 0 false 0] ∧
      t.assocAt c.cntlid = some { a with heard := s.clock, sqhd := a.nextHd }) ∧
    (∃ t, exec (.unsupportedCommand c) s = .next t ∧ only t [done 0x001 true 0]) ∧
    (c.cdw11 = 0x08 → ∃ t, exec (.propertyGet c) s = .next t ∧ only t [done 0 false 0x00020000]) ∧
    (c.cdw11 = 0x14 → ∃ t, exec (.propertyGet c) s = .next t ∧ only t [done 0 false a.cc]) ∧
    (c.cdw11 = 0x1C → ∃ t, exec (.propertyGet c) s = .next t ∧ only t [done 0 false ((if a.rdy then 1 else 0) + a.shst % 4 * 4)]) ∧
    (c.cdw11 = 0x14 → (a.rdy = true → c.cdw12.testBit 0 = true) → ∃ t x, exec (.propertySet c) s = .next t ∧
      only t [done 0 false 0] ∧ t.assocAt c.cntlid = some x ∧ x.cc = c.cdw12 ∧ x.rdy = c.cdw12.testBit 0) ∧
    (c.cdw10.testBit 31 = true → ∃ t, exec (.setFeatures c) s = .next t ∧ only t [done 0x10D true 0]) ∧
    (c.cdw10 = 0x0F → katoOk c.cdw11 = true → ∃ t x, exec (.setFeatures c) s = .next t ∧ only t [done 0 false 0] ∧
      t.assocAt c.cntlid = some x ∧ x.kato = (if c.cdw11 = 0 then 120000 else (c.cdw11 + 99) / 100 * 100)) ∧
    (c.cdw10 = 0x0F → ∃ t, exec (.getFeatures c) s = .next t ∧ only t [done 0 false a.kato]) ∧
    (c.cdw10 % 256 = 0x01 → ∃ t, exec (.getLogPage c) s = .next t ∧
      only t [.hostData c.cntlid 0 c.cid 0 (logSlice c (s.host.errors.flatMap errorBytes)), done 0 false 0]) ∧
    (c.cdw10 % 256 = 0x03 → ∃ t, exec (.getLogPage c) s = .next t ∧ only t [done 0x109 true 0]) ∧
    (c.cdw10 % 256 = 0x02 → ∃ t, exec (.nvmeIdentify c) s = .next t ∧
      only t [.hostData c.cntlid 0 c.cid 0 (idList (s.grantedNs a) c.nsid), done 0 false 0]) ∧
    (a.notices = [] → a.aers.length < 16 → ∃ t x, exec (.asyncEventRequest c) s = .next t ∧ only t [] ∧
      t.assocAt c.cntlid = some x ∧ x.aers = a.aers ++ [c.cid]) ∧
    (∀ ty i pg rest, a.notices = (ty, i, pg) :: rest → ∃ t x, exec (.asyncEventRequest c) s = .next t ∧
      only t [done 0 false (ty + i * 256 + pg * 65536)] ∧ t.assocAt c.cntlid = some x ∧ x.notices = rest) ∧
    (c.cdw10 % 65536 ≠ 0 → s.sessAt c.cntlid (c.cdw10 % 65536) = none →
      ∃ t, exec (.nvmeAbort c) s = .next t ∧ only t [done 0 false 1]) ∧
    (c.cdw10 % 65536 = 0 → c.cdw10 / 65536 % 65536 ∈ a.aers → s.assoc? a.num = some a → ∃ t x, exec (.nvmeAbort c) s = .next t ∧
      only t [.completion c.cntlid 0 (c.cdw10 / 65536 % 65536) 0x007 false 0 0 a.nextHd, done 0 false 0] ∧
      t.assocAt c.cntlid = some x ∧ x.aers = a.aers.erase (c.cdw10 / 65536 % 65536)) ∧
    (∀ n, s.hostNs a c.nsid = some n → c.cdw11 = 1 → c.cdw12 = 0x101 → ∃ t x, exec (.directiveSend c) s = .next t ∧
      only t [done 0 false 0] ∧ t.assocAt c.cntlid = some x ∧ n.nsx ∈ x.streams) ∧
    (∀ n, s.hostNs a c.nsid = some n → c.cdw11 = 1 → c.cdw10 = 1023 → ∃ t, exec (.directiveReceive c) s = .next t ∧
      only t [.hostData c.cntlid 0 c.cid 0
        (padTo 4096 (leBytes 32 3 ++ leBytes 32 (if a.streams.contains n.nsx then 3 else 1))), done 0 false 0])

/-- Connect admits within the limits, and disconnect, keep alive expiry and transport errors tear down -/
def Obligations.AssociationsComeAndGo : Prop :=
  (∀ (s : State) (m : Payload.Connect), s.ddUp = true → m.tcp = false → nqnOf m.subNqn ≠ discoveryNqn →
    nqnOf m.subNqn = s.subsystemNqn →
    s.subUp m.port m.sub = true → s.serves m false = true →
    (s.serving = false → exec (.connect m) s = .next { s with out := s.out ++ [.connRefused m.port m.sub] }) ∧
    (s.serving = true → (∀ g ∈ s.host.grants, nqnOf g.nqn ≠ nqnOf m.hostNqn) →
      exec (.connect m) s = .next { s with out := s.out ++ [.refusedConnect m.port m.cid 0x184] }) ∧
    (∀ id, s.serving = true → m.qid = 0 → (∃ g ∈ s.host.grants, nqnOf g.nqn = nqnOf m.hostNqn) → s.freeCntlid = some id →
      (∀ x ∈ s.host.assocs, x.num ≠ s.host.nextId) → 1 ≤ m.sqsize → m.sqsize ≤ 31 → katoOk m.kato = true →
      s.admitted + m.sqsize + 1 ≤ s.paramN 0x2003 → s.flush.active = false →
      ∃ t a, exec (.connect m) s = .next t ∧ t.out = s.out ++ [.completion id 0 m.cid 0 false id 0 0] ∧
        t.assocAt id = some a ∧ a.nqn = nqnOf m.hostNqn ∧ a.sqsize = m.sqsize + 1 ∧ a.kato = katoOf m.kato ∧
        t.host.assocs.length = s.host.assocs.length + 1 ∧ t.host.sessions = s.host.sessions) ∧
    (∀ a, s.serving = true → 1 ≤ m.qid → m.qid ≤ 65534 → (∃ g ∈ s.host.grants, nqnOf g.nqn = nqnOf m.hostNqn) →
      s.assocAt m.cntlid = some a → a.discovery = false → a.nqn = nqnOf m.hostNqn → s.sessAt m.cntlid m.qid = none →
      s.host.sessions.length < 65536 → (s.host.sessions.filter fun q => q.assoc == a.num).length < s.paramN 0x2001 →
      1 ≤ m.sqsize → m.sqsize + 1 ≤ s.paramN 0x2002 → s.admitted + m.sqsize + 1 ≤ s.paramN 0x2003 →
      ∃ t q, exec (.connect m) s = .next t ∧ t.host.sessions = s.host.sessions ++ [q] ∧ q.assoc = a.num ∧ q.qid = m.qid ∧
        q.sqsize = m.sqsize + 1 ∧ t.out = s.out ++ [.completion m.cntlid m.qid m.cid 0 false m.cntlid 0 0])) ∧
  (∀ (s : State) (c : Payload.Capsule) (q : Session), s.decodesNow c → c.qid ≠ 0 → s.sessAt c.cntlid c.qid = some q →
    (∀ x ∈ s.host.cmds, x.sess ≠ q.num) → ∃ t, exec (.disconnect c) s = .next t ∧
      s.out ++ [.completion c.cntlid c.qid c.cid 0 false 0 0 q.nextHd] <+: t.out ∧ (∀ x ∈ t.host.sessions, x.num ≠ q.num)) ∧
  (∀ (s : State) (i : Nat) (a : Assoc), s.assocAt i = some a → s.pins.ddReset = false → ∃ t, exec (.katoExpiry i) s = .next t ∧
    (∀ x ∈ t.host.assocs, x.num ≠ a.num) ∧ (∀ q ∈ t.host.sessions, q.assoc ≠ a.num) ∧ t.told 0x0202 i []) ∧
  (∀ (s : State) (i j : Nat) (q : Session), j ≠ 0 → s.sessAt i j = some q → ∃ t, exec (.transportError i j) s = .next t ∧
    (∀ x ∈ t.host.sessions, x.num ≠ q.num) ∧ t.host.assocs = s.host.assocs) ∧
  (∀ (s : State) (h : HeldCapsule) (rest : List HeldCapsule) (a : Assoc), s.host.held = h :: rest → s.contexts < 65536 →
    s.flush.active = false → h.cap.qid = 0 → h.cap.opc = 0x18 → h.cap.fuse = 0 → s.assocAt h.cap.cntlid = some a →
    ∃ t, exec .capsuleReserveAdmit s = .next t ∧ t.host.held = rest ∧
      t.out = s.out ++ [.completion h.cap.cntlid 0 h.cap.cid 0 false 0 0 a.nextHd]) ∧
  (∀ (s : State) (i j : Nat) (q : Session), s.ddUp = true → j ≠ 0 → s.sessAt i j = some q →
    exec (.transportRetransmit i j) s = .next { s with out := s.out ++ [.resend i j] }) ∧
  ∀ (s : State) (c : Payload.Capsule), s.connected c = true → s.serving = true → s.flush.active = false → 65536 ≤ s.contexts →
    (s.cellsUsed + capsuleCells c ≤ 65536 → ∃ t, exec (.keepAlive c) s = .next t ∧ t.out = s.out ∧
      t.host.held = s.host.held ++ [{ cells := capsuleCells c, cap := c }]) ∧
    (65536 < s.cellsUsed + capsuleCells c → ∃ t, exec (.keepAlive c) s = .next t ∧ t.host.held = s.host.held ∧
      t.out = s.out ++ [.notReady c.cntlid c.qid])

/-- Reads check their range, return zeros for unmapped units in order, and enter with the fields of their capsule -/
def Obligations.ReadsDeliverTheirRange : Prop :=
  (∀ (s : State) (c : Payload.Capsule) (a : Assoc) (q : Session) (n : Ns), s.ioNow c false a q n →
    let done (st : Nat) (dnr : Bool) (dw0 : Nat) : Output := .completion c.cntlid c.qid c.cid st dnr dw0 0 q.nextHd
    let first := capSlba c * n.lba
    let len := capNlb c * n.lba
    let plain := n.zoned = false ∧ n.hawk = 0 ∧ c.badBuf = false ∧ s.queueOf q.num = (c.cntlid, c.qid) ∧ s.sess? q.num = some q ∧
      s.ns? n.nsx = some n ∧ (∀ x ∈ s.host.cmds, x.num ≠ s.host.nextId) ∧ n.lookup (first / 16384) = none
    let single := c.cdw12 % 65536 = 0 ∧ first + len ≤ n.size
    (2097152 < len → ∃ t, exec (.nvmeRead c) s = .next t ∧ t.out = s.out ++ [done 0x002 true 0]) ∧
    (len ≤ 2097152 → n.size < first + len → ∃ t, exec (.nvmeRead c) s = .next t ∧ t.out = s.out ++ [done 0x080 true 0]) ∧
    (plain → single → ∃ t, exec (.nvmeRead c) s = .next t ∧ t.groups = s.groups ∧ t.mbx = s.mbx ∧ t.ep = s.ep ∧
      t.out = s.out ++ [.hostData c.cntlid c.qid c.cid 0 (List.replicate n.lba 0), done 0 false 0]) ∧
    (plain → single → ∃ t, exec (.nvmeVerify c) s = .next t ∧ t.groups = s.groups ∧ t.mbx = s.mbx ∧ t.ep = s.ep ∧
      t.out = s.out ++ [done 0 false 0]) ∧
    (c.psdt = 1 → c.cdw10 % 128 = 0 → ∃ t, exec (.gatheredRead c) s = .next t ∧ t.out = s.out ++ [done 0x780 true 0]) ∧
    (c.psdt = 1 → c.cdw10 = 1 → c.cdw11 = 0 → c.rsvd = [] → c.cdw13 = 0 → c.cdw14 = 0 → c.cdw15 = 0 → c.capLen = 80 →
      16 ≤ c.data.length → c.cdw12 = c.sglLen → leAt c.data 0 4 = 0 → leAt c.data 4 4 = 1 → leAt c.data 8 8 = capSlba c →
      c.cdw12 = n.lba → n.lba ≤ s.paramN 0x2006 → plain → capSlba c + 1 ≤ n.lbas →
      ∃ t, exec (.gatheredRead c) s = .next t ∧
        t.out = s.out ++ [.hostData c.cntlid c.qid c.cid 0 (List.replicate n.lba 0), done 0 false 0]) ∧
    (c.psdt = 1 → c.cdw10 = 2 → c.cdw11 = 0 → c.rsvd = [] → c.cdw13 = 0 → c.cdw14 = 0 → c.cdw15 = 0 → 96 ≤ c.capLen →
      32 ≤ c.data.length → leAt c.data 4 4 ≠ 0 → leAt c.data 20 4 = 0 →
      ∃ t, exec (.gatheredRead c) s = .next t ∧ t.out = s.out ++ [done 0x780 true 0x10000]) ∧
    (c.cdw13 = 0 → c.cdw14 = 0 → c.cdw15 = 0 → first + len ≤ n.size → q.policy.rate = 0 →
      ∃ t, exec (.pacedRead c) s = .next t ∧ t.out = s.out ++ [done 0x783 true 0]) ∧
    (c.cdw13 = 0 → c.cdw14 = 0 → c.cdw15 = 0 → first + len ≤ n.size → 0 < q.policy.rate →
      s.paramN 0x2008 * q.policy.rate * 1000 < (s.pacedLeft q.num + len) * 8 →
      ∃ t, exec (.pacedRead c) s = .next t ∧ t.out = s.out ++ [done 0x784 false 0]) ∧
    (c.cdw13 = 0 → c.cdw14 = 0 → c.cdw15 = 0 → 0 < q.policy.rate → plain → single →
      (s.pacedLeft q.num + len) * 8 ≤ s.paramN 0x2008 * q.policy.rate * 1000 →
      ∃ t x, exec (.pacedRead c) s = .next t ∧ t.out = s.out ∧ t.cmd? s.host.nextId = some x ∧ x.paced = true ∧
        x.sess = q.num ∧ x.first = first ∧ x.len = len) ∧
    (n.zoned = true → c.cdw13 % 256 = 0 → c.cdw13 / 256 % 256 ≤ 5 → first < n.size → c.badBuf = false →
      ∃ t b, exec (.zoneMgmtReceive c) s = .next t ∧ t.out = s.out ++ [.hostData c.cntlid c.qid c.cid 0 b, done 0 false 0] ∧
        b.length ≤ (c.cdw12 + 1) * 4 ∧ t.groups = s.groups)) ∧
  ∀ (s : State) (i j k : Nat) (q : Session) (x : Cmd) (u : ReadUnit), s.sessAt i j = some q → s.sess? q.num = some q →
    s.queueOf q.num = (i, j) → s.cntlidOf q.assoc = i → s.host.cmds = [x] → x.kind = .paced → x.paced = true → x.sess = q.num →
    x.units = [u] → x.run = [] → u.st = .ready → u.ticket = false → x.badBuf = false → x.silent = false → s.flush.active = false →
    0 < u.len → u.len ≤ k → q.qid = j →
    (u.len ≤ s.bucketNow q → ∃ t y, exec (.pacedFrameSend i j k) s = .next t ∧ t.sess? q.num = some y ∧
      y.bucket = s.bucketNow q - u.len ∧ t.host.cmds = [] ∧
      t.out = s.out ++ [.hostData i j x.cid u.dst (slice (unitBytes u.data) u.off u.len),
        .completion i j x.cid 0 false ((if u.rebuilt then 1 else 0) + (if u.fromHawk then 65536 else 0)) 0 q.sqhd]) ∧
    (s.bucketNow q < u.len → exec (.pacedFrameSend i j k) s = .next s)

/-- Writes and zone commands are refused as R67, R69 and R72 say, or enter with their fields; held ones go on in order -/
def Obligations.WritesEnterOrAreRefused : Prop :=
  (∀ (s : State) (c : Payload.Capsule) (a : Assoc) (q : Session) (n : Ns) (ds : Nat), s.ioNow c true a q n →
    s.ns? n.nsx = some n →
    let done (st : Nat) (dnr : Bool) (dw0 : Nat) : Output := .completion c.cntlid c.qid c.cid st dnr dw0 0 q.nextHd
    let first := capSlba c * n.lba
    let len := capNlb c * n.lba
    let d := s.decoded c
    let ctx (k : CmdKind) : Cmd :=
      { num := s.host.nextId, sess := q.num, cid := c.cid, kind := k, nsx := n.nsx, stamp := s.clock, engine := q.engine,
        badBuf := c.badBuf, first := first, len := len }
    (s.writeProtected n = true → capStream c = some ds → len ≤ 2097152 → exec (.nvmeWrite c) s = .next (reply c 0x020 true 0 0 d)) ∧
    (s.writeProtected n = true → n.zoned = false → exec (.writeZeroes c) s = .next (reply c 0x020 true 0 0 d)) ∧
    (s.writeProtected n = true → n.zoned = true → exec (.zoneMgmtSend c) s = .next (reply c 0x020 true 0 0 d)) ∧
    (s.writeProtected n = false → n.zoned = false → capStream c = some ds → len ≤ 2097152 → first + len ≤ n.size →
      exec (.nvmeWrite c) s = .next (beginWrite
        { ctx .write with fua := c.cdw12.testBit 30, dsm := c.cdw13 % 256, dspec := ds, data := padTo len c.data } d)) ∧
    (s.writeProtected n = false → n.zoned = false → capStream c = some ds → len ≤ 2097152 → first + len ≤ n.size →
      (∀ x ∈ s.host.cmds, x.num ≠ s.host.nextId) →
      (∃ y ∈ s.host.cmds, y.kind = .write ∧ y.num < s.host.nextId ∧ y.nsx = n.nsx ∧ y.first < first + len ∧ first < y.first + y.len) →
      ∃ t x, exec (.nvmeWrite c) s = .next t ∧ t.cmd? s.host.nextId = some x ∧ x.wst = .overlap ∧ x.recs = [] ∧
        t.out = s.out ∧ t.groups = s.groups ∧ t.flash = s.flash) ∧
    (s.writeProtected n = false → n.zoned = true → capStream c = some ds → len ≤ 2097152 → first + len ≤ n.size →
      (first % 16384 ≠ 0 ∨ len % 16384 ≠ 0) → exec (.nvmeWrite c) s = .next (reply c 0x786 true 0 0 d)) ∧
    (s.writeProtected n = false → n.zoned = true → capStream c = some ds → len ≤ 2097152 → first + len ≤ n.size →
      first % 16384 = 0 → len % 16384 = 0 → (n.zone (first / 16384 / n.zoneUnits)).st ≠ .full →
      (n.zone (first / 16384 / n.zoneUnits)).wp < n.zoneUnits →
      first / 16384 - first / 16384 / n.zoneUnits * n.zoneUnits + len / 16384 ≤ n.zoneUnits →
      first / 16384 - first / 16384 / n.zoneUnits * n.zoneUnits ≠ (n.zone (first / 16384 / n.zoneUnits)).wp →
      exec (.nvmeWrite c) s = .next (reply c 0x1BC true 0 0 d)) ∧
    (s.writeProtected n = false → n.zoned = true → capStream c = some ds → len ≤ 2097152 → first < n.size →
      len % 16384 = 0 → first % 16384 = 0 → first % (n.zoneUnits * 16384) = 0 →
      (n.zone (first / (n.zoneUnits * 16384))).st = .full → exec (.zoneAppend c) s = .next (reply c 0x1B9 true 0 0 d)) ∧
    (s.writeProtected n = false → n.zoned = true → capStream c = some ds → len ≤ 2097152 → len % 16384 = 0 → first % 16384 = 0 →
      ∀ z, (n.zone z).st ≠ .full → (n.zone z).wp < n.zoneUnits → (n.zone z).wp + len / 16384 ≤ n.zoneUnits →
      ∀ s₁, openForWrite n z ((cmdClass ds (c.cdw13 % 256)).getD n.cls) d = .ok s₁ →
      let begun (k : CmdKind) : State := beginWrite
        { ctx k with fua := c.cdw12.testBit 30, dsm := c.cdw13 % 256, dspec := ds, data := padTo len c.data, zone := z,
                     zoneUnit := (n.zone z).wp, first := (z * n.zoneUnits + (n.zone z).wp) * 16384 }
        (s₁.modNs n.nsx fun m => m.modZone z fun y => { y with wp := (n.zone z).wp + len / 16384, order := s.host.nextId })
      (first + len ≤ n.size → z = first / 16384 / n.zoneUnits → first / 16384 - z * n.zoneUnits = (n.zone z).wp →
        exec (.nvmeWrite c) s = .next (begun .write)) ∧
      (first < n.size → first % (n.zoneUnits * 16384) = 0 → z = first / (n.zoneUnits * 16384) →
        exec (.zoneAppend c) s = .next (begun .zappend))) ∧
    (s.writeProtected n = false → n.zoned = false → first + len ≤ n.size →
      exec (.writeZeroes c) s = .next (beginWrite { ctx .zeroes with fua := c.cdw12.testBit 30 } d)) ∧
    (n.zoned = true → exec (.writeZeroes c) s = .next (reply c 0x001 true 0 0 d)) ∧
    (s.writeProtected n = false → n.zoned = true → c.cdw13 = 5 → exec (.zoneMgmtSend c) s = .next (reply c 0x1BF true 0 0 d)) ∧
    (s.writeProtected n = false → n.zoned = true → c.cdw13 = 1 → first < n.size → first % (n.zoneUnits * 16384) = 0 →
      (n.zone (first / (n.zoneUnits * 16384))).st = .explOpen → s.host.cmds = [] → s.poolHigh = false →
      s.queueOf q.num = (c.cntlid, c.qid) → s.sess? q.num = some q →
      ∃ t m, exec (.zoneMgmtSend c) s = .next t ∧ t.ns? n.nsx = some m ∧ (m.zone (first / (n.zoneUnits * 16384))).st = .closed ∧
        t.out = s.out ++ [done 0 false 0] ∧ t.groups = s.groups)) ∧
  (∀ (s : State) (c : Payload.Capsule) (a : Assoc) (q : Session) (n : Ns), s.ioNow c false a q n → s.ns? n.nsx = some n →
    (c.cdw11.testBit 2 = false → n.zoned = true → exec (.datasetManagement c) s = .next (reply c 0x001 true 0 0 (s.decoded c))) ∧
    (c.cdw11 = 0 → c.cdw10 = 0 → n.zoned = false → c.badBuf = false →
      (leAt c.data 8 8 + leAt c.data 4 4) * n.lba ≤ n.size → leAt c.data 0 4 % 16 = 8 →
      ∃ t m, exec (.datasetManagement c) s = .next t ∧ t.ns? n.nsx = some m ∧
        m.hints = ((leAt c.data 8 8 * n.lba / 16384,
          (leAt c.data 8 8 * n.lba + leAt c.data 4 4 * n.lba + 16383) / 16384 - leAt c.data 8 8 * n.lba / 16384, 0) ::
          n.hints).take 256 ∧
        t.out = s.out ++ [.completion c.cntlid c.qid c.cid 0 false 0 0 q.nextHd]) ∧
    (c.nsid ≠ 0xFFFFFFFF → (s.group n.group).journal = [] → s.host.cmds = [] → s.queueOf q.num = (c.cntlid, c.qid) →
      s.sess? q.num = some q → ∃ t, exec (.nvmeFlush c) s = .next t ∧ t.groups = s.groups ∧ t.host.cmds = [] ∧
        t.out = s.out ++ [.completion c.cntlid c.qid c.cid 0 false 0 0 q.nextHd])) ∧
  (∀ s : State, (∀ x ∈ s.host.cmds, x.wst ≠ .overlap) → exec .overlapWriteRelease s = .next s) ∧
  (∀ s : State, (∀ x ∈ s.host.cmds, x.wst ≠ .room ∧ x.wst ≠ .band ∧ x.wst ≠ .merged) → exec .writeFetchResume s = .next s) ∧
  (∀ (s : State) (x : Cmd) (n : Ns) (plan : List (Nat × Nat)), s.host.cmds = [x] → x.kind = .write → x.wst = .overlap →
    x.fail = none → s.ns? x.nsx = some n → n.zoned = false → s.planWrite x n = some plan → s.roomFor x n plan = false →
    ∃ t y, exec .overlapWriteRelease s = .next t ∧ t.host.cmds = [y] ∧ y.wst = .room ∧ t.groups = s.groups ∧ t.out = s.out) ∧
  (∀ (s : State) (x : Cmd) (n : Ns), s.host.cmds = [x] → x.kind = .write → x.wst = .room → x.fail = none → s.ns? x.nsx = some n →
    n.zoned = false → s.planWrite x n = none → (s.group n.group).space ≠ .spent →
    ∃ t y, exec .writeFetchResume s = .next t ∧ t.host.cmds = [y] ∧ y.wst = .band ∧ t.groups = s.groups ∧ t.out = s.out) ∧
  ∀ (s : State) (x : Cmd) (n : Ns), s.host.cmds = [x] → x.kind = .zone → x.wst = .room → x.act = 2 → x.all = false →
    s.ns? x.nsx = some n → (n.zone x.zone).st.active = true → 1025 ≤ s.freeRecs → n.group < s.groups.length →
    (s.group n.group).mirror = .solo → s.poolHigh = false →
    ∃ t m, exec .writeFetchResume s = .next t ∧ t.ns? x.nsx = some m ∧ (m.zone x.zone).st = .full ∧
      (t.group n.group).jseq = (s.group n.group).jseq + 1

/-- A bay write lands only through a live slot of its generation, in place or XORed, and all else is dropped and counted -/
def Obligations.LandingWritesObeySlots : Prop :=
  (∀ (s : State) (bay tag gen off : Nat) (data : List Byte), tag < 2 ^ 18 → gen < 64 →
    let dat := exec (.bayWriteTlp bay (0x0000010000000000 + gen * 2 ^ 32 + tag * 2 ^ 14 + off) data) s
    let tg := exec (.bayWriteTlp bay (0x0000020000000000 + gen * 2 ^ 22 + tag * 2 ^ 4 + off) data) s
    let bad := (s.modFlash fun f => { f with ctrs := { f.ctrs with malformed := f.ctrs.malformed + 1 } }).modOp tag fun o =>
      { o with err := true }
    ((∀ o, s.op? tag = some o → o.live = false ∨ o.gen ≠ gen) → bay < 24 →
      (off < 16384 → ∃ t, dat = .next t ∧ t.flash.ops = s.flash.ops ∧ t.flash.bufs = s.flash.bufs ∧ t.groups = s.groups ∧
        t.host = s.host ∧ t.flash.ctrs = { s.flash.ctrs with lateData := s.flash.ctrs.lateData + 1 }) ∧
      (off < 16 → ∃ t, tg = .next t ∧ t.flash.ops = s.flash.ops ∧ t.flash.bufs = s.flash.bufs ∧ t.groups = s.groups ∧
        t.host = s.host ∧ t.flash.ctrs = { s.flash.ctrs with lateData := s.flash.ctrs.lateData + 1 })) ∧
    ∀ o, s.op? tag = some o → o.live = true → o.gen = gen →
      (off < 16384 → (16384 < off + data.length ∨ 16384 < o.bytes + data.length) → dat = .next bad) ∧
      (off + data.length ≤ 16384 → off < 16384 → o.bytes + data.length ≤ 16384 → dat = .next
        ((s.modBuf o.buf fun b => { b with unit := { b.unit with data := putBytes o.xor b.unit.data off data } }).modOp tag
          fun o => { o with bytes := o.bytes + data.length })) ∧
      (off < 16 → (off ≠ 0 ∨ data.length ≠ 16 ∨ o.tagged = true) → tg = .next bad) ∧
      (off = 0 → data.length = 16 → o.tagged = false → tg = .next
        ((s.modBuf o.buf fun b => { b with unit :=
            if o.xor then { b.unit with wseq := b.unit.wseq ^^^ leAt data 0 8, check := b.unit.check ^^^ leAt data 8 8 }
            else { b.unit with wseq := leAt data 0 8, check := leAt data 8 8 } }).modOp tag fun o => { o with tagged := true }))) ∧
  (∀ (s : State) (bay addr : Nat) (data : List Byte),
    (addr < 0x0000010000000000 ∨ (0x0000014000000000 ≤ addr ∧ addr < 0x0000020000000000) ∨ 0x0000020010000000 ≤ addr) →
    exec (.bayWriteTlp bay addr data) s = .next (s.modBay bay fun b => { b with badWrite := b.badWrite + 1 })) ∧
  (∀ (d off : Nat) (bs : List Byte), (bits (putBytes false d off bs) (8 * off) (8 * bs.length) = leNat bs) ∧
    (bits (putBytes true d off bs) (8 * off) (8 * bs.length) = bits d (8 * off) (8 * bs.length) ^^^ leNat bs)) ∧
  dataAddr 0x28A31 5 = 0x00000105A28C4000 ∧ tagAddr 0x28A31 5 = 0x000002000168A310

/-- Waiting staging requests, starvation, quarantine, drained slots, and what a finished tag check does -/
def Obligations.StagingRequestsTagsAndRescue : Prop :=
  (∀ s : State, s.flash.waits = [] → exec .stageBufferGrant s = .next s) ∧
  (∀ s : State, s.flash.hawk = [] → (∀ b, b < 5120 → (s.buf? b).isSome = true) → exec .stageBufferGrant s = .next s) ∧
  (∀ (s : State) (r : StageReq) (gi band q m u : Nat), s.flash.waits = [r] → r.use = .skimTag gi band q m u →
    r.peer = none → r.how = .place → s.classMay r.cls = true → (∃ b, b < 5120 ∧ s.buf? b = none ∧ ∀ e ∈ s.flash.hawk, e.blk ≠ b) →
    ∃ t b y, exec .stageBufferGrant s = .next t ∧ t.flash.waits = [] ∧ b < 5120 ∧ s.buf? b = none ∧
      (∀ e ∈ s.flash.hawk, e.blk ≠ b) ∧ t.buf? b = some y ∧ y.use = r.use ∧ y.place = r.place ∧ y.cls = r.cls ∧
      t.flash.bufs.length = s.flash.bufs.length + 1 ∧ t.flash.hawk = s.flash.hawk ∧ t.host = s.host) ∧
  (∀ s : State, (∀ w ∈ s.flash.waits, w.cls ≠ 0 ∨ w.told = true ∨ s.nowNs ≤ w.since + s.period) →
    exec .stageStarveTimeout s = .next s) ∧
  (∀ (s : State) (w : StageReq), w ∈ s.flash.waits → w.cls = 0 → w.told = false → w.since + s.period < s.nowNs →
    ∃ t, exec .stageStarveTimeout s = .next t ∧ t.flash.waits.length = s.flash.waits.length ∧
      (∀ x ∈ t.flash.waits, x.cls = 0 → x.since + s.period < s.nowNs → x.told = true) ∧
      (s.canTell → s.flash.starvedTold = none → t.told 0x0210 0 []) ∧ t.flash.bufs = s.flash.bufs ∧ t.groups = s.groups) ∧
  (∀ (s : State) (tag : Nat), (∀ o, s.op? tag = some o → o.st ≠ .quarantine) → exec (.tagQuarantineExpiry tag) s = .next s) ∧
  (∀ (s : State) (tag : Nat) (o : FlashOp), s.op? tag = some o → o.st = .quarantine →
    ∃ t, exec (.tagQuarantineExpiry tag) s = .next t ∧ t.op? tag = none ∧ (∀ g, g ≠ tag → t.op? g = s.op? g) ∧
      { t with flash := { t.flash with ops := s.flash.ops } } = s) ∧
  (∀ (s : State) (blk : Nat), (∀ b, s.buf? blk = some b → b.draining = false) → exec (.slotRevokeDrain blk) s = .next s) ∧
  (∀ (s : State) (blk : Nat) (b : Buf), s.buf? blk = some b → b.draining = true → b.st = .orphan →
    exec (.slotRevokeDrain blk) s = .next (s.freeBuf blk) ∧ (s.freeBuf blk).buf? blk = none) ∧
  (∀ (s : State) (blk : Nat), (∀ b, s.buf? blk = some b → b.st ≠ .check) → exec (.tagCheckDone blk) s = .next s) ∧
  (∀ (s : State) (blk c i : Nat) (b : Buf), s.buf? blk = some b → b.st = .check → b.use = .host c i →
    (b.plain = true ∨ (s.tagPasses b.nsx b.unitNo b.unit = true ∧ ∀ x, s.cmd? c = some x → s.unitStatus x.gens b.nsx true = 0)) →
    exec (.tagCheckDone blk) s = .next (hostUnitReady c i blk
      (if b.plain then b.unit.data else s.cipherUnit true b.nsx b.unitNo b.unit.data)
      ((if b.plain then s else useNsKeys 1 b.nsx true s).modBuf blk fun b => { b with tagOk := true }))) ∧
  (∀ (s : State) (blk c i : Nat) (b : Buf) (x : Cmd), s.buf? blk = some b → b.st = .check → b.use = .host c i → b.plain = false →
    b.unit ≠ Unit16.filler → s.cmd? c = some x → s.unitStatus x.gens b.nsx true ≠ 0 →
    exec (.tagCheckDone blk) s = .next (keyFail c (s.unitStatus x.gens b.nsx true) (nth x.units i).ext (s.freeBuf blk))) ∧
  ∀ (s : State) (blk c i : Nat) (b : Buf), s.buf? blk = some b → b.st = .check → b.use = .host c i → b.plain = false →
    s.tagPasses b.nsx b.unitNo b.unit = false → b.rescued = false → b.xorExp = 0 → b.how = .place → s.encrypted b.nsx = false →
    (s.group b.place.g).canRebuild b.place = true →
    (∀ m ∈ (s.group b.place.g).helpers b.place,
      (s.die ((s.group b.place.g).bayOf m) ((s.group b.place.g).dieOf b.place.q)).busy = false) →
    ∃ t y, exec (.tagCheckDone blk) s = .next t ∧ t.buf? blk = some y ∧ y.rescued = true ∧ y.st = .bound ∧
      y.xorExp = ((s.group b.place.g).helpers b.place).length ∧ y.xorGot = 0 ∧ y.tagOk = false ∧
      t.flash.ctrs = { s.flash.ctrs with tagFail := s.flash.ctrs.tagFail + 1 } ∧ t.out = s.out ∧ t.host = s.host ∧ t.groups = s.groups

/-- Hawk decays and unpins as R126 and R130 say, and peer reads are answered and taken as R134, R137 and R138 say -/
def Obligations.HawkAndPeerReads : Prop :=
  (∀ s : State, s.flash.decayFrames < s.paramN 0x2112 → exec .hawkDecay s = .next s) ∧
  (∀ s : State, s.paramN 0x2112 ≤ s.flash.decayFrames → ∃ t, exec .hawkDecay s = .next t ∧
    (∀ i, s.admitCount i < 16 → (s.flash.admits.filter fun p => p.1 == i).length ≤ 1 → t.admitCount i = s.admitCount i / 2) ∧
    t.flash.hawk = s.flash.hawk.map (fun e => { e with hits := e.hits / 2 }) ∧ t.flash.decayFrames = 0 ∧
    { t with flash := { t.flash with admits := s.flash.admits, hawk := s.flash.hawk, decayFrames := s.flash.decayFrames } } = s) ∧
  (∀ (s : State) (l r : List HawkEntry) (e : HawkEntry), s.flash.hawk = l ++ e :: r →
    (∀ x ∈ l ++ r, x.blk ≠ e.blk ∧ x.removed = false) → ∀ peer : Bool,
    let e₁ : HawkEntry :=
      if peer = true then { e with pins := e.pins - min 1 e.peerPins, peerPins := e.peerPins - 1 }
      else if e.peerPins < e.pins then { e with pins := e.pins - 1 } else e
    ∃ t, exec (.hawkPinRelease { blk := e.blk, peer }) s = .next t ∧
      t.flash.hawk = l ++ (if e.removed = true ∧ e₁.pins = 0 then [] else [e₁]) ++ r ∧
      { t with flash := { t.flash with hawk := s.flash.hawk } } = s) ∧
  (∀ (s : State) (blk : Nat), (∀ b, s.buf? blk = some b → b.st ≠ .bound ∨ b.peerTag = none) →
    exec (.peerHoldExpiry blk) s = .next s) ∧
  (∀ (s : State) (blk : Nat) (b : Buf), s.buf? blk = some b → b.st = .bound → b.peerTag ≠ none →
    ∃ t, exec (.peerHoldExpiry blk) s = .next t ∧ t.buf? blk = some { b with peerTag := none } ∧ t.host = s.host ∧
      t.flash.ops = s.flash.ops ∧ (b.frags ≠ [] → t = s.modBuf blk fun b => { b with peerTag := none })) ∧
  (∀ (s : State) (src : Nat) (body : List Byte) (n : Ns),
    let req := leAt body 0 4
    let u := leAt body 8 5
    let rsp (st frag : Nat) (d : List Byte) : List Byte :=
      leBytes 4 req ++ leBytes 1 st ++ leBytes 1 frag ++ leBytes 2 0 ++ leBytes 8 u ++
        leBytes 8 (if d = [] then 0 else crc64 d) ++ leBytes 8 0 ++ d
    let ans (st : Nat) : Host.Outcome State Fault Refusal :=
      .next (scrimSend src 0x32 (req % 2 ^ 18) 0 (rsp st 0 []) s)
    leAt body 4 4 ≠ 0 → s.ns? (leAt body 4 4 - 1) = some n →
    let allowed := n.peerServe = true ∧ (s.role n.group).owns = true ∧ ∃ p ∈ n.sources, p.1 = src
    (¬ allowed → exec (.peerReadReq src body) s = ans 3) ∧
    (allowed → leAt body 16 8 ≠ n.content → exec (.peerReadReq src body) s = ans 2) ∧
    (allowed → leAt body 16 8 = n.content → s.hawk? n.nsx u = none → exec (.peerReadReq src body) s = ans 1) ∧
    ∀ e, allowed → leAt body 16 8 = n.content → s.hawk? n.nsx u = some e →
      (s.paramN 0x2122 ≤ (s.flash.hawk.map HawkEntry.peerPins).sum → exec (.peerReadReq src body) s = ans 4) ∧
      ((s.flash.hawk.map HawkEntry.peerPins).sum < s.paramN 0x2122 → exec (.peerReadReq src body) s = .next
        (scrimSend src 0x32 (req % 2 ^ 18) 0 (rsp 0 1 ((unitBytes e.data).drop 8192))
          (scrimSend src 0x32 (req % 2 ^ 18) 0 (rsp 0 0 ((unitBytes e.data).take 8192))
            (s.modFlash fun f => { f with hawk := updWhere (fun y => y.blk == e.blk) (fun y => { y with
              hits := min 255 (y.hits + 1), frame := s.tregs.frames, pins := y.pins + 1, peerPins := y.peerPins + 1 }) f.hawk }))))) ∧
  ∀ (s : State) (src : Nat) (body : List Byte),
    let tag := leAt body 0 4 % 2 ^ 18
    let gen := bits (leAt body 0 4) 18 6
    let h := peerHeard src s
    { h with flash := s.flash, scrim := s.scrim } = s ∧
    ((∀ o, s.op? tag = some o → (o.live = false ∨ o.gen ≠ gen ∨ o.opc ≠ opcPeer)) →
      exec (.peerReadRsp src body) s = .next (h.modFlash fun f => { f with ctrs := { f.ctrs with peerLate := f.ctrs.peerLate + 1 } })) ∧
    ∀ o b, s.op? tag = some o → o.live = true → o.gen = gen → o.opc = opcPeer → s.buf? o.buf = some b →
      (leAt body 8 8 ≠ b.unitNo → exec (.peerReadRsp src body) s =
        .next (h.modFlash fun f => { f with ctrs := { f.ctrs with peerBad := f.ctrs.peerBad + 1 } })) ∧
      (leAt body 8 8 = b.unitNo → leAt body 4 1 ≠ 0 → ∃ t y x, exec (.peerReadRsp src body) s = .next t ∧
        t.op? tag = some y ∧ y.live = false ∧ y.st = .quarantine ∧ t.buf? o.buf = some x ∧ x.peerTag = none ∧ x.cls = 0 ∧
        t.flash.bufs.length = s.flash.bufs.length ∧ t.out = s.out ∧ t.host = s.host)

/-- Collection chooses, copies, commits by compare-and-set, waits for durability and for readers, and only then erases -/
def Obligations.CollectionMovesThenErases : Prop :=
  (∀ (s : State) (gi : Nat), ((s.group gi).role.owns = false ∨ s.paramN 0x3005 < (s.group gi).freeBands.length ∨
    ∃ b ∈ (s.group gi).bands, b.st = .victim) → exec (.gcVictimSelect gi) s = .next s) ∧
  (∀ (s : State) (gi st v : Nat), s.streamVictim gi st = some v → ∃ b ∈ (s.group gi).bands, b.num = v ∧ b.st = .closed ∧
    b.stream = st ∧ b.valid < (s.group gi).bandUnits ∧
    ∀ c ∈ (s.group gi).bands, c.st = .closed → c.stream = st → c.valid < (s.group gi).bandUnits →
      (s.gcScore (s.group gi) c).1 * (s.gcScore (s.group gi) b).2 ≤ (s.gcScore (s.group gi) b).1 * (s.gcScore (s.group gi) c).2) ∧
  (∀ (s : State) (gi v : Nat), gi < s.groups.length → (s.group gi).role.owns = true →
    (s.group gi).freeBands.length ≤ s.paramN 0x3005 → (∀ b ∈ (s.group gi).bands, b.st ≠ .victim) → (s.group gi).gcStream < 10 →
    s.streamVictim gi (s.group gi).gcStream = some v → (s.group gi).collects = [] →
    (s.group gi).bandUnits ≤ 2 ^ 26 → (∀ x ∈ (s.group gi).members, v ∉ x.active) →
    (∀ o ∈ (s.group gi).owners, guaBand o.gua = v → s.validAt gi o.gua = false) →
    ∃ t, exec (.gcVictimSelect gi) s = .next t ∧ ((t.group gi).band v).st = .victim ∧
      (t.group gi).gcStream = ((s.group gi).gcStream + 1) % 10 ∧ (t.group gi).jseq = (s.group gi).jseq + 1 ∧
      (t.group gi).journal.getLast?.map JRec.ty = some 6 ∧
      (t.group gi).collects.map Collect.commit = [some (s.group gi).jseq] ∧ t.flash.bufs = s.flash.bufs ∧
      t.host = s.host) ∧
  (∀ (s : State) (gi v : Nat), (∀ c ∈ (s.group gi).collects, c.victim = v → c.batch ≠ [] ∧ ∃ r ∈ c.batch, r.done = false) →
    exec (.gcBatchVerified gi v) s = .next s) ∧
  (∀ (s : State) (gi v : Nat) (c : Collect) (r : RelocUnit) (o : Owner) (n : Ns), gi < s.groups.length →
    (s.group gi).collects = [c] → c.victim = v → c.next = none → c.todo = [] → c.batch = [r] → r.done = true →
    (s.group gi).ownerOf r.old = some o → o.nsx ≠ 0xFFFF → (s.group gi).isLost r.old = false →
    ((s.group gi).band v).st ≠ .closing → s.host.nss = [n] → n.nsx = o.nsx → n.zoned = false → n.group = gi →
    (s.group gi).notCurrent = [] → (s.group gi).health = .optimal → (s.group gi).cause = 0 →
    ∃ t m, exec (.gcBatchVerified gi v) s = .next t ∧ t.host.nss = [m] ∧ (t.group gi).collects = [] ∧
      (∀ u, u ≠ o.unit → m.lookup u = n.lookup u) ∧ { m with map := n.map } = n ∧
      (n.lookup o.unit = some (.gua r.old) → m.lookup o.unit = some (.gua r.new)) ∧
      (n.lookup o.unit ≠ some (.gua r.old) → m = n) ∧
      (t.group gi).journal = (s.group gi).journal ++ [JRec.mk 5 (s.group gi).epoch (s.group gi).jseq
        (bodyReloc r.old r.new 1 (if n.lookup o.unit = some (.gua r.old) then 1 else 0)) s.turnNow]) ∧
  (∀ (s : State) (gi v : Nat) (c : Collect) (j : Nat), gi < s.groups.length → (s.group gi).collects = [c] → c.victim = v →
    c.commit = some j →
    ((s.group gi).isDurable j = false → exec (.gcVictimDurable gi v) s = .next s) ∧
    ((s.group gi).isDurable j = true → ∃ t, exec (.gcVictimDurable gi v) s = .next t ∧
      (t.group gi).band v = { (s.group gi).band v with st := .erasePending } ∧ (t.group gi).collects = [] ∧
      { t with groups := s.groups } = s)) ∧
  (∀ (s : State) (gi v : Nat), (((s.group gi).band v).st ≠ .erasePending ∨ s.readers gi v ≠ 0) →
    exec (.gcReadersDrained gi v) s = .next s) ∧
  (∀ (s : State) (gi v : Nat), gi < s.groups.length → ((s.group gi).band v).st = .erasePending → s.readers gi v = 0 →
    ((s.group gi).band v).retire = [] → (∀ x ∈ (s.group gi).members, x.retired = [] ∧ v ∉ x.active) →
    ∃ t, exec (.gcReadersDrained gi v) s = .next t ∧ ((t.group gi).band v).st = .erasing ∧ t.host = s.host) ∧
  ∀ (s : State) (gi : Nat), (s.group gi).role.owns = false ∨ (∀ m n, m ∈ (s.group gi).bandNums → n ∈ (s.group gi).bandNums →
      ((s.group gi).band m).erases ≤ ((s.group gi).band n).erases + s.paramN 0x300A) →
    exec (.wearLevelStart gi) s = .next s

/-- Spare bands, wear levelling, compaction, the delta log and checkpoints -/
def Obligations.BandsLogsAndCompaction : Prop :=
  (∀ (s : State) (gi : Nat), ((s.group gi).role.owns = false ∨ s.paramN 0x3003 < (s.group gi).freeBands.length ∨
    ∃ m k, m < (s.group gi).w ∧ k < (s.group gi).dies ∧ ((s.group gi).freeSpares m k).length ≤ s.paramN 0x3002) →
    exec (.spareBandForm gi) s = .next s) ∧
  (∀ (s : State) (gi n : Nat), gi < s.groups.length → (s.group gi).role.owns = true →
    (s.group gi).freeBands.length ≤ s.paramN 0x3003 →
    (∀ m k, m < (s.group gi).w → k < (s.group gi).dies → s.paramN 0x3002 < ((s.group gi).freeSpares m k).length) →
    n ≤ 16381 → (s.group gi).bases ≤ n → (∀ b ∈ (s.group gi).bands, b.num = n → b.st = .retired) →
    (∀ x, n < x → x ≤ 16381 → ∃ b ∈ (s.group gi).bands, b.num = x ∧ b.st ≠ .retired) →
    (∀ x ∈ (s.group gi).members, n ∉ x.active) →
    ∃ t, exec (.spareBandForm gi) s = .next t ∧ ((t.group gi).band n).st = .erasing ∧ ((t.group gi).band n).spareFormed = true ∧
      (∀ x, x ≠ n → (t.group gi).band x = (s.group gi).band x) ∧ t.host = s.host) ∧
  (∀ (s : State) (gi : Nat), (s.group gi).role.owns = true → (∃ b ∈ (s.group gi).bands, b.st = .closed) →
    (∀ b ∈ (s.group gi).bands, b.st ≠ .victim) → (∃ m ∈ (s.group gi).bandNums, ∃ n ∈ (s.group gi).bandNums,
      ((s.group gi).band m).st ≠ .retired ∧ ((s.group gi).band n).st ≠ .retired ∧
      ((s.group gi).band n).erases + s.paramN 0x300A < ((s.group gi).band m).erases) →
    ∃ b ∈ (s.group gi).bands, b.st = .closed ∧ (∀ c ∈ (s.group gi).bands, c.st = .closed → b.erases ≤ c.erases) ∧
      exec (.wearLevelStart gi) s = .next (startVictim gi b.num s)) ∧
  (∀ (s : State) (gi v : Nat), gi < s.groups.length → (s.group gi).collects = [] → (s.group gi).bandUnits ≤ 2 ^ 26 →
    (∀ x ∈ (s.group gi).members, v ∉ x.active) →
    (∀ o ∈ (s.group gi).owners, guaBand o.gua = v → s.validAt gi o.gua = false) →
    (((startVictim gi v s).group gi).band v).st = .victim ∧
      ((startVictim gi v s).group gi).collects.map Collect.victim = [v] ∧ (startVictim gi v s).host = s.host) ∧
  (∀ (s : State) (i z : Nat) (n : Ns), s.ns? i = some n →
    (n.zoned = false ∨ (n.zone z).st ≠ .full ∨ (s.role n.group).owns = false ∨ ((n.zone z).compact = false ∧ s.poolHigh = false)) →
    exec (.zoneCompact i z) s = .next s) ∧
  (∀ (s : State) (i z : Nat) (n : Ns), s.ns? i = some n → n.zoned = true → (n.zone z).st = .full → (s.role n.group).owns = true →
    (n.zone z).compact = true ∨ (s.poolHigh = true ∧ 1 < (n.zone z).extents.length ∧ ∀ m ∈ s.host.nss, ∀ y ∈ m.zones,
      y.st = .full → y.extents.length ≤ (n.zone z).extents.length) →
    let units := (List.range (n.zone z).written).filterMap (n.zone z).gua?
    let todo := units.filter fun a => s.validAt n.group a && (s.group n.group).unitDone a && !(s.group n.group).isLost a &&
      !(s.group n.group).copying.contains a
    let one : Collect := { victim := 16383, todo := todo }
    exec (.zoneCompact i z) s = .next (relocate n.group 16383 units s) ∧
      (todo = [] → relocate n.group 16383 units s = s) ∧
      (todo ≠ [] → s.freeRecs < 1024 → relocate n.group 16383 units s = s.modGroup n.group fun g =>
        { g with collects := (g.collects ++ [one]).erase one ++ [one] })) ∧
  (∀ (s : State) (gi : Nat), (s.group gi).role.owns = false →
    exec (.deltaLogAppend gi) s = .next s ∧ exec (.checkpointTimer gi) s = .next s) ∧
  (∀ (s : State) (gi : Nat), gi < s.groups.length → (s.group gi).role.owns = true →
    (∀ r ∈ (s.group gi).journal, r.jseq < (s.group gi).logged) →
    (s.wearPct gi < 80 → exec (.deltaLogAppend gi) s = .next s) ∧
    (80 ≤ s.wearPct gi → s.wearPct gi < 95 → (s.group gi).wear80 = false → s.canTell →
      ∃ t, exec (.deltaLogAppend gi) s = .next t ∧ t.told 0x0306 gi [80] ∧ (t.group gi).wear80 = true ∧ t.flash = s.flash)) ∧
  ∀ (s : State) (gi : Nat), (s.group gi).role.owns = true →
    exec (.deltaLogAppend gi) s = .next (wearCheck gi (appendLog gi s)) ∧
    exec (.checkpointTimer gi) s = .next (startCheckpoint gi s)

/-- No program or erase starts outside its member's write turn, beside another member's, or without room; reads and polls go
out -/
def Obligations.DiesTakeTurns : Prop :=
  (∀ (s : State) (bay die : Nat), s.flush.active = false → s.bayMember bay = none → exec (.dieDispatch bay die) s = .next s) ∧
  (∀ (s : State) (bay die gi m : Nat), s.flush.active = false → s.bayMember bay = some (gi, m) →
    (s.flash.ops.map FlashOp.tag).Nodup → ∃ t, exec (.dieDispatch bay die) s = .next t ∧
      ∀ o ∈ t.flash.ops, o.st = .outstanding → (o.opc = 0x10 ∨ o.opc = 0x20) →
        (∃ x ∈ s.flash.ops, x.tag = o.tag ∧ x.st = .outstanding) ∨
        ((die + s.turnNow) % (s.group gi).w = m ∧ s.time.stepPending = false ∧ s.othersIdle gi die m = true ∧
          (o.opc = 0x10 → (s.desc bay).tProgMax ≤ s.usToGuard) ∧ (o.opc = 0x20 →
            (if s.eraseSuspendOk bay (s.group gi).w then 2 * (s.desc bay).tSuspErase else (s.desc bay).tEraseMax) ≤ s.usToGuard))) ∧
  (∀ (s : State) (gi m blk : Nat) (o : FlashOp), s.flush.active = false → s.bayMember o.bay = some (gi, m) →
    (s.group gi).role = .owner → (s.group gi).hand = none → (s.bay o.bay).st = .ready → (s.bay o.bay).consumed < 4032 →
    (s.group gi).accepted m = true → s.flash.dies = [] → s.flash.ops = [o] →
    o.st = .queued → o.opc = 0x01 → o.qcls = 0 → o.use = .landing blk → s.flash.bufs = [] →
    ∃ t x, exec (.dieDispatch o.bay o.die) s = .next t ∧ t.flash.ops = [x] ∧ x.tag = o.tag ∧ x.gen = o.gen ∧ x.st = .outstanding ∧
      (t.die o.bay o.die).reading = some o.tag ∧ t.groups = s.groups ∧
      t.out = s.out ++ [.bayEntry o.bay
        (leBytes 4 (0x01 + flag o.noRetry 8) ++ leBytes 4 (o.tag + o.gen * 2 ^ 18) ++ leBytes 4 (s.group gi).epoch ++
          leBytes 4 (o.die + o.block * 2 ^ 16) ++ leBytes 4 o.page ++ leBytes 12 0 ++
          padTo 32 (leBytes 8 (dataAddr o.tag o.gen) ++ leBytes 8 (tagAddr o.tag o.gen))),
        .bayReg o.bay 0x1020 (((s.bay o.bay).sqTail + 1) % 4096)]) ∧
  (∀ s : State, (∀ d ∈ s.flash.dies, d.erase = false ∨ d.op = none ∨ d.held = true ∨ d.unknown = true) →
    exec .eraseTurnSuspend s = .next s) ∧
  (∀ (s : State) (d : Die) (gi m : Nat), s.flash.dies = [d] → d.erase = true → d.op ≠ none → d.held = false →
    d.unknown = false → s.bayMember d.bay = some (gi, m) → (d.die + s.turnNow) % (s.group gi).w = m →
    s.eraseSuspendOk d.bay (s.group gi).w = true →
    (d.suspAt ≠ none → ∃ t, exec .eraseTurnSuspend s = .next t ∧ t.flash.dies = [{ d with held := true }] ∧
      { t with flash := s.flash } = s) ∧
    (∀ x, x < 262144 → s.op? x = none → d.suspAt = none → s.ringRoom d.bay = true →
      (∀ o ∈ s.flash.ops, o.bay = d.bay → o.die = d.die → o.opc = 0x30 → o.st = .quarantine) →
      ∃ t b, exec .eraseTurnSuspend s = .next t ∧
        t.out = s.out ++ [.bayEntry d.bay b, .bayReg d.bay 0x1020 (((s.bay d.bay).sqTail + 1) % 4096)] ∧ leAt b 0 1 = 0x30 ∧
        leAt b 12 4 = d.die % 2 ^ 32 ∧ t.groups = s.groups)) ∧
  (∀ (s : State) (bay die : Nat), ((s.die bay die).op = none ∨ (s.die bay die).overrun = true) →
    exec (.programOverrun bay die) s = .next s) ∧
  (∀ (s : State) (bay die : Nat), bay < s.flash.bays.length → (s.die bay die).op ≠ none → (s.die bay die).overrun = false →
    ∃ t, exec (.programOverrun bay die) s = .next t ∧ (t.bay bay).overruns = (s.bay bay).overruns + 1 ∧
      (t.die bay die).overrun = true ∧ t.flash.ops = s.flash.ops ∧ t.groups = s.groups ∧
      (s.canTell → (s.bay bay).overrunTold = none → t.told 0x0401 bay [])) ∧
  (∀ (s : State) (bay die : Nat), (s.die bay die).unknown = false → exec (.dieStatusPoll bay die) s = .next s) ∧
  ∀ (s : State) (bay die x : Nat), (s.die bay die).unknown = true → x < 262144 → s.op? x = none → s.ringRoom bay = true →
    ∃ t b, exec (.dieStatusPoll bay die) s = .next t ∧
      t.out = s.out ++ [.bayEntry bay b, .bayReg bay 0x1020 (((s.bay bay).sqTail + 1) % 4096)] ∧ leAt b 0 1 = 0x50 ∧
      leAt b 12 4 = die % 2 ^ 32 ∧ (t.die bay die).asked = true ∧ t.groups = s.groups

/-- The patrol lists and compares stripes, and the ends of a rebuilt band, a spare delay and a return window -/
def Obligations.PatrolAndRebuild : Prop :=
  (∀ s : State, (s.paramN 0x4010 ≠ 1 ∨ s.flash.skimOn = true ∨ s.ddUp = false) → exec .skimPassStart s = .next s) ∧
  (∀ s : State, s.paramN 0x4010 = 1 → s.flash.skimOn = false → s.ddUp = true → ∃ t, exec .skimPassStart s = .next t ∧
    t.flash.skimOn = true ∧ t.flash.skimStart = s.tregs.frames ∧ t.flash.skimBehind = false ∧
    (∀ gi b q, (gi, b, q) ∈ t.flash.skimLeft ↔ gi ∈ s.ownedGroups ∧ (∃ x ∈ (s.group gi).bands, x.num = b ∧ x.st = .closed) ∧
      q < (s.group gi).stripesPerBand ∧ ∃ o ∈ (s.group gi).owners, guaBand o.gua = b ∧ s.mapNames gi o = true ∧
        (s.group gi).stripeOf (guaDu o.gua) = q) ∧
    { t with flash := s.flash } = s) ∧
  (∀ (s : State) (gi b q : Nat), (∀ w ∈ (s.group gi).skim, w.band = b → w.q = q → w.ready = false) →
    exec (.skimStripeCompare gi b q) s = .next s) ∧
  (∀ (s : State) (gi : Nat) (w x : SkimWork), gi < s.groups.length → (s.group gi).skim = [w, x] → (x.band, x.q) ≠ (w.band, w.q) →
    w.ready = true → (w.compare = true → w.badAt = []) →
    ∃ t, exec (.skimStripeCompare gi w.band w.q) s = .next t ∧ (t.group gi).skim = [x] ∧
      (t.group gi).ctrs = (if w.compare then { (s.group gi).ctrs with skimStripes := (s.group gi).ctrs.skimStripes + 1 }
        else { (s.group gi).ctrs with skimTagFail := (s.group gi).ctrs.skimTagFail + (w.tags.filter fun t => t.2.2 != 0).length }) ∧
      t.flash = s.flash ∧ t.host = s.host ∧ t.out = s.out) ∧
  (∀ (s : State) (gi b : Nat), ((s.group gi).role.owns = false ∨ ∀ m, m < (s.group gi).w →
    ((s.group gi).member m).active.contains b = true → (s.group gi).bandRebuilt m b = false) →
    exec (.rebuildBandDone gi b) s = .next s) ∧
  (∀ (s : State) (gi b m : Nat), gi < s.groups.length → (s.group gi).role = .owner → m < (s.group gi).w →
    ((s.group gi).member m).st = .target → ((s.group gi).member m).todo = [b] → b ∈ ((s.group gi).member m).active →
    (s.group gi).bandRebuilt m b = true → (s.group gi).space = .normal → s.paramN 0x3003 < (s.group gi).freeBands.length →
    (∀ x, x < (s.group gi).w → x ≠ m → ((s.group gi).member x).st = .current) → (s.group gi).health = .rebuilding →
    (∀ i, i < 6 → nth s.host.ana i = s.anaState i) →
    ∃ t, exec (.rebuildBandDone gi b) s = .next t ∧ ((t.group gi).member m).st = .current ∧
      ((t.group gi).member m).todo = [] ∧ (t.group gi).health = .optimal ∧
      ((t.group gi).band b).holes = ((s.group gi).band b).holes.filter (fun h => h.2 != m) ∧ t.flash = s.flash) ∧
  (∀ (s : State) (gi m : Nat), ((s.group gi).role.owns = false ∨ ((s.group gi).member m).st ≠ .missing) →
    exec (.spareDelayExpiry gi m) s = .next s ∧ exec (.returnWindowExpiry gi m) s = .next s) ∧
  (∀ (s : State) (gi m : Nat), gi < s.groups.length → (s.group gi).role.owns = true → m < (s.group gi).w →
    ((s.group gi).member m).st = .missing →
    (∃ t, exec (.returnWindowExpiry gi m) s = .next t ∧ ((t.group gi).member m).window = false ∧
      ((t.group gi).member m).erasedSince = [] ∧ (∀ x, x ≠ m → (t.group gi).member x = (s.group gi).member x) ∧
      { t with groups := s.groups } = s) ∧
    ((∀ b, b < 24 → (s.bay b).spare = false) → ∃ t, exec (.spareDelayExpiry gi m) s = .next t ∧
      ((t.group gi).member m).spareDue = true ∧ (∀ x, x ≠ m → (t.group gi).member x = (s.group gi).member x) ∧
      { t with groups := s.groups } = s))

/-- A completion that is not current is discarded and counted, and an ABORT's success alone revokes its target's slot -/
def Obligations.LateCompletionsAreDiscarded : Prop :=
  (∀ (s : State) (bay : Nat) (e : List Byte), bay < s.flash.bays.length →
    (∀ o, s.op? (cplOf e).tag = some o → o.st ≠ .outstanding ∨ o.bay ≠ bay ∨ o.gen ≠ (cplOf e).gen) →
    ∃ t, exec (.readCpl bay e) s = .next t ∧ exec (.verifyCpl bay e) s = .next t ∧ exec (.programCpl bay e) s = .next t ∧
      exec (.eraseCpl bay e) s = .next t ∧ exec (.suspendCpl bay e) s = .next t ∧ exec (.resumeCpl bay e) s = .next t ∧
      exec (.abortCpl bay e) s = .next t ∧ exec (.dieStatusCpl bay e) s = .next t ∧ exec (.epochSetCpl bay e) s = .next t ∧
      (s.fresh bay e = false → t = s) ∧
      (s.fresh bay e = true → (t.bay bay).lateCpl = (s.bay bay).lateCpl + 1 ∧
        (t.bay bay).cqHead = ((s.bay bay).cqHead + 1) % 4096 ∧
        { t.bay bay with lateCpl := (s.bay bay).lateCpl, consumed := (s.bay bay).consumed, cqHead := (s.bay bay).cqHead,
                         phase := (s.bay bay).phase } = s.bay bay ∧
        (∀ b, b ≠ bay → t.bay b = s.bay b) ∧ { t with out := s.out, flash := { t.flash with bays := s.flash.bays } } = s)) ∧
  ∀ (s : State) (bay tg : Nat) (e : List Byte) (o x : FlashOp), s.fresh bay e = true → s.op? (cplOf e).tag = some o →
    o.st = .outstanding → o.bay = bay → o.gen = (cplOf e).gen → o.opc = 0x40 → (cplOf e).opc = 0x40 →
    o.use = .abort tg x.gen → tg ≠ (cplOf e).tag → s.op? tg = some x → x.st = .outstanding →
    (∀ gi m, s.bayMember bay = some (gi, m) → (s.group gi).presentMember m = true) →
    (∀ blk, x.use = .landing blk → (cplOf e).status = 0 → ∃ t y, exec (.abortCpl bay e) s = .next t ∧ t.op? tg = some y ∧
      y.live = false ∧ y.st = .quarantine) ∧
    ((cplOf e).status = 8 ∨ (cplOf e).status = 9 → ∃ t, exec (.abortCpl bay e) s = .next t ∧ t.op? tg = some x ∧
      t.flash.bufs = s.flash.bufs)

/-- What a current completion of each operation does to its context, its die, its buffer and its group -/
def Obligations.CompletionsTakeEffect : Prop :=
  ∀ (s : State) (bay : Nat) (e : List Byte) (c : Payload.Cpl) (o : FlashOp), bay < s.flash.bays.length → s.fresh bay e = true →
    c = cplOf e → s.op? c.tag = some o → o.st = .outstanding → o.bay = bay → o.gen = c.gen → o.opc = c.opc → o.dropped = false →
    c.tag < 262144 → (∀ x ∈ s.flash.ops, x.tag = c.tag → x = o) →
    (∀ gi m, s.bayMember bay = some (gi, m) → (s.group gi).presentMember m = true) →
    (∀ blk b, o.opc = 0x01 → o.live = true → o.use = .landing blk → s.buf? blk = some b → b.st = .bound → b.xorExp = 0 → s.paramN 0x4010 = 0 →
      (b.use.checked = true → c.status = 0 → o.bytes = 16384 → o.tagged = true → o.err = false → c.retry = false →
        c.cbits * 100 ≤ s.paramN 0x4012 * (s.desc bay).eccCap → ∃ t y, exec (.readCpl bay e) s = .next t ∧
          t.op? c.tag = none ∧ t.buf? blk = some y ∧ y.st = .check ∧ y.unit = b.unit ∧ (t.die bay o.die).reading = none) ∧
      ((∃ k i, b.use = .host k i) → (c.status = 1 ∨ (c.status = 0 ∧ o.bytes ≠ 16384)) → b.rescued = false → b.how ≠ .die →
        (s.group b.place.g).canRebuild b.place = true →
        ∃ t y, exec (.readCpl bay e) s = .next t ∧ t.buf? blk = some y ∧ y.st = .bound ∧ y.rescued = true ∧
          y.xorExp = ((s.group b.place.g).helpers b.place).length ∧ y.xorGot = 0)) ∧
    (∀ gi b m r w, o.opc = 0x02 → o.use = .dieParity gi b m r → c.status = 0 → o.src = [w.slot] → s.flash.slots = [w] →
      w.gua = none → s.paramN 0x4010 = 0 → ∃ t, exec (.verifyCpl bay e) s = .next t ∧ t.op? c.tag = none ∧ t.flash.slots = []) ∧
    (∀ gi b q m, o.opc = 0x10 → o.use = .chunk gi b q m → c.status = 0 → ∃ t x, exec (.programCpl bay e) s = .next t ∧
      x ∈ t.flash.ops ∧ x.st = .queued ∧ x.opc = 0x02 ∧ x.qcls = 1 ∧ x.bay = bay ∧ x.die = o.die ∧ x.block = o.block ∧
      x.page = o.page ∧ x.use = o.use ∧ (t.die bay o.die).op = none ∧
      (∀ n, { t.group n with ctrs := (s.group n).ctrs } = s.group n) ∧
      (gi < s.groups.length → (t.group gi).ctrs.programmed = (s.group gi).ctrs.programmed + o.src.length)) ∧
    (o.opc = 0x10 → c.status = 6 → o.retried = false → s.sourcesHere o = true → ∃ t x, exec (.programCpl bay e) s = .next t ∧ x ∈ t.flash.ops ∧
      x.st = .queued ∧ x.opc = 0x10 ∧ x.retried = true ∧ x.block = o.block ∧ x.page = o.page ∧ x.src = o.src ∧ t.groups = s.groups) ∧
    (∀ gi b m, o.opc = 0x20 → o.use = .erase gi m (.band b) → c.status = 0 → gi < s.groups.length →
      ((s.group gi).band b).st = .erasing → ((s.group gi).band b).eraseLeft = [(m, o.die)] →
      (s.group gi).space = .normal → s.paramN 0x3003 < (s.group gi).freeBands.length →
      (∀ x ∈ (s.group gi).bands, x.moving = false) → (∀ p ∈ (s.group gi).pages, p.use ≠ .summary b) →
      ∃ t, exec (.eraseCpl bay e) s = .next t ∧ ((t.group gi).band b).st = .free ∧
        ((t.group gi).band b).erases = min 65535 (((s.group gi).band b).erases + 1) ∧
        (∀ n, n ≠ b → (t.group gi).band n = (s.group gi).band n) ∧ (t.die bay o.die).op = none) ∧
    (o.opc = 0x30 → c.status = 0 → ∃ t, exec (.suspendCpl bay e) s = .next t ∧
      (t.die bay o.die).suspAt = some s.micros ∧ (t.die bay o.die).op = (s.die bay o.die).op ∧
      (∀ g, (s.die bay o.die).op = some g → ∀ x, t.op? g = some x → x.suspended = true) ∧ t.groups = s.groups) ∧
    (c.status = 0x0A →
      (o.opc = 0x30 → ∃ t, exec (.suspendCpl bay e) s = .next t ∧ (t.die bay o.die).busy = false ∧ t.op? c.tag = none) ∧
      (o.opc = 0x31 → ∃ t, exec (.resumeCpl bay e) s = .next t ∧ (t.die bay o.die).busy = false ∧ t.op? c.tag = none)) ∧
    (o.opc = 0x50 → c.status = 0 →
      (c.dstate = 0 → ∃ t, exec (.dieStatusCpl bay e) s = .next t ∧ (t.die bay o.die).busy = false ∧ t.groups = s.groups) ∧
      ((c.dstate = 1 ∨ c.dstate = 2 ∨ c.dstate = 5) → ∃ t, exec (.dieStatusCpl bay e) s = .next t ∧
        (t.die bay o.die).unknown = true ∧ t.groups = s.groups)) ∧
    ∀ gi m, o.opc = 0x60 → s.bayMember bay = some (gi, m) → gi < s.groups.length → m < (s.group gi).w →
      o.use = .epochSet (s.group gi).epoch → c.status = 0 → (s.group gi).role = .owner → (s.group gi).won = false →
      ∃ t, exec (.epochSetCpl bay e) s = .next t ∧ (t.bay bay).epoch = c.epoch ∧
        ((t.group gi).member m).accepted = (s.group gi).epoch ∧ (t.group gi).role = .owner

/-- Abort timers, timeouts, epoch notices, and module reads of the source window -/
def Obligations.OperationTimersAndSourceReads : Prop :=
  (∀ (s : State) (tag : Nat), (∀ o, s.op? tag = some o → o.st ≠ .outstanding ∨ o.abortSent = true ∨ o.suspended = true ∨
    s.paramN 0x9101 ≠ 1 ∨ (o.opc ≠ 0x01 ∧ o.opc ≠ 0x02 ∧ o.opc ≠ 0x10 ∧ o.opc ≠ 0x20)) → exec (.opAbortTimer tag) s = .next s) ∧
  (∀ (s : State) (tag x : Nat) (o : FlashOp), s.op? tag = some o → o.st = .outstanding → o.abortSent = false →
    o.suspended = false → s.paramN 0x9101 = 1 → (o.opc = 0x01 ∨ o.opc = 0x02 ∨ o.opc = 0x10 ∨ o.opc = 0x20) →
    x < 262144 → s.op? x = none → tag < 2 ^ 18 → o.gen < 64 → o.bay < s.flash.bays.length → s.ringRoom o.bay = true →
    ∃ t b y, exec (.opAbortTimer tag) s = .next t ∧
      t.out = s.out ++ [.bayEntry o.bay b, .bayReg o.bay 0x1020 (((s.bay o.bay).sqTail + 1) % 4096)] ∧ leAt b 0 1 = 0x40 ∧
      leAt b 32 4 = tag + o.gen * 2 ^ 18 ∧ t.op? tag = some y ∧ y.abortSent = true ∧ y.st = .outstanding ∧
      (t.bay o.bay).aborts = (s.bay o.bay).aborts + 1 ∧ t.groups = s.groups) ∧
  (∀ (s : State) (tag : Nat), (∀ o, s.op? tag = some o → o.st ≠ .outstanding ∨ o.suspended = true) →
    exec (.opTimeout tag) s = .next s) ∧
  (∀ (s : State) (tag blk : Nat) (o : FlashOp) (b : Buf), s.op? tag = some o → o.st = .outstanding → o.suspended = false →
    o.opc = 0x01 → o.use = .landing blk → o.live = true → o.dropped = false → s.buf? blk = some b → o.bay < s.flash.bays.length →
    (s.bay o.bay).timeoutsRow < 2 →
    ∃ t x y, exec (.opTimeout tag) s = .next t ∧ t.op? tag = some x ∧ x.live = false ∧ x.st = .quarantine ∧
      t.buf? blk = some y ∧ y.draining = true ∧ (t.bay o.bay).timeouts = (s.bay o.bay).timeouts + 1 ∧
      (t.bay o.bay).evt.testBit 1 = true ∧ (t.bay o.bay).timeoutsRow = (s.bay o.bay).timeoutsRow + 1 ∧ t.groups = s.groups ∧
      (s.canTell → (s.bay o.bay).timeoutTold = none → t.told 0x0505 o.bay [])) ∧
  (∀ (s : State) (tag : Nat) (o : FlashOp), s.op? tag = some o → o.st = .outstanding → o.suspended = false →
    (o.opc = 0x30 ∨ o.opc = 0x31 ∨ o.opc = 0x50) → o.use = .control → (s.bay o.bay).timeoutsRow < 2 → o.bay < s.flash.bays.length →
    ∃ t, exec (.opTimeout tag) s = .next t ∧ (t.die o.bay o.die).unknown = true ∧ t.groups = s.groups) ∧
  (∀ (s : State) (bay : Nat) (e : List Byte), (s.fresh bay e = false ∨ (cplOf e).opc ≠ 0xF0) → exec (.epochNotice bay e) s = .next s) ∧
  (∀ (s : State) (bay gi m : Nat) (e : List Byte) (c : Payload.Cpl), bay < s.flash.bays.length → s.fresh bay e = true → c = cplOf e →
    c.opc = 0xF0 → s.bayMember bay = some (gi, m) →
    ((s.group gi).role = .partner → ∃ t, exec (.epochNotice bay e) s = .next t ∧ (t.bay bay).epoch = c.epoch ∧
      (t.bay bay).evt = setBit (s.bay bay).evt 4 ∧ t.groups = s.groups) ∧
    ((s.group gi).role = .owner → gi < s.groups.length →
      (c.epoch ≤ (s.group gi).epoch → ∃ t, exec (.epochNotice bay e) s = .next t ∧ (t.bay bay).epoch = c.epoch ∧
        t.groups = s.groups) ∧
      ((s.group gi).epoch < c.epoch → ∃ t, exec (.epochNotice bay e) s = .next t ∧ (t.group gi).role = .fenced))) ∧
  ∀ (s : State) (bay src off len : Nat), src < 131072 → off + len ≤ 16400 →
    ((∃ o ∈ s.flash.ops, o.bay = bay ∧ o.opc = 0x10 ∧ o.st = .outstanding ∧ src ∈ o.src) →
      exec (.moduleSourceRead bay (0x0000030000000000 + src * 2 ^ 15 + off) len) s =
        .next { s with out := s.out ++ [.baySource bay (some (slice (sourceBytes (s.sourceUnit src)) off len))] }) ∧
    ((∀ o ∈ s.flash.ops, o.bay = bay → o.opc = 0x10 → o.st = .outstanding → src ∉ o.src) →
      exec (.moduleSourceRead bay (0x0000030000000000 + src * 2 ^ 15 + off) len) s =
        .next { s.modBay bay (fun b => { b with badRead := b.badRead + 1 }) with out := s.out ++ [.baySource bay none] })

/-- A bay comes up by R210's steps, and is held, retrained or departs -/
def Obligations.BaysComeUpAndDepart : Prop :=
  ∀ (s : State) (bay : Nat), bay < s.flash.bays.length →
    let b := s.bay bay
    let sets (f : Bay → Bay) (t : State) : Prop := t.bay bay = f b ∧ (∀ x, x ≠ bay → t.bay x = s.bay x) ∧ t.groups = s.groups
    let held (b : Bay) : Bay :=
      { b with perst := true, stopped := true, up := false, st := .off, speed := 0, width := 0, degraded := false }
    ((nth s.pwr.chans bay).pg = true → b.perst = true → b.stopped = false → b.hold = false →
      exec (.bayPerstRelease bay) s = .next (s.modBay bay fun b => { b with perst := false, st := .training, fenced := false })) ∧
    (((nth s.pwr.chans bay).pg = false ∨ b.perst = false ∨ b.stopped = true ∨ b.hold = true) →
      exec (.bayPerstRelease bay) s = .next s) ∧
    (∀ v w, b.st = .training → b.perst = false → 6 ≤ v → 2 ≤ w → exec (.bayLinkTrained bay v w) s = .next (s.modBay bay fun b =>
      { b with up := true, speed := v, width := w, st := .descriptor, degraded := false, attempts := 0 })) ∧
    (∀ v w, b.st = .training → b.perst = false → (v < 6 ∨ w < 2) →
      (s.paramN 0x9103 = 1 → s.canTell → ∃ t, exec (.bayLinkTrained bay v w) s = .next t ∧ t.told 0x0503 bay [] ∧
        sets (fun b => { b with up := true, speed := v, width := w, st := .descriptor, degraded := true, attempts := 0 }) t) ∧
      (s.paramN 0x9103 ≠ 1 → exec (.bayLinkTrained bay v w) s = .next (s.modBay bay held))) ∧
    (b.st = .training → b.attempts < 2 → exec (.bayLinkTrainTimeout bay) s = .next (s.modBay bay fun b =>
      { b with perst := true, st := .off, attempts := b.attempts + 1 })) ∧
    (b.st = .training → 2 ≤ b.attempts → s.canTell → ∃ t, exec (.bayLinkTrainTimeout bay) s = .next t ∧ t.told 0x0502 bay [] ∧
      sets (fun b => held { b with attempts := 3 }) t) ∧
    (∀ d, b.st = .descriptor → descriptorValid d = true → capacityOk (descriptorOf d) = true →
      ∃ t, exec (.bayEnumerate bay d d) s = .next t ∧
        sets (fun b => { b with desc := some (descriptorOf d), modId := leAt d 8 8, sqTail := 0, cqHead := 0, phase := true,
                                consumed := 0 }) t ∧
        t.out = s.out ++ [.bayConfig bay 512 4096 10, .bayReg bay 0x1008 (Config.ringBase bay false),
          .bayReg bay 0x1010 (Config.ringBase bay true), .bayReg bay 0x1018 (4096 + 4096 * 2 ^ 16), .bayReg bay 0x1000 1]) ∧
    (∀ d e, b.st = .descriptor → (d ≠ e ∨ descriptorValid d = false ∨ capacityOk (descriptorOf d) = false) → s.canTell →
      ∃ t, exec (.bayEnumerate bay d e) s = .next t ∧ t.told 0x0504 bay [] ∧
        sets (fun b => held { b with evt := setBit b.evt 3 }) t) ∧
    (b.st = .descriptor → b.desc ≠ none → s.bayMember bay = none → b.spare = true → s.canTell →
      (∀ gi x, gi < 6 → x < (s.group gi).w → ((s.group gi).member x).st ≠ .missing) →
      ∀ e, ∃ t, exec (.bayPortReady bay (some e)) s = .next t ∧ t.told 0x0501 bay [] ∧
        sets (fun b => { b with st := .ready, modEpoch := e }) t) ∧
    (b.st = .descriptor → b.desc ≠ none → s.canTell → ∃ t, exec (.bayPortReady bay none) s = .next t ∧ t.told 0x0502 bay [] ∧
      sets held t) ∧
    (b.st ≠ .ready → s.ep.dstate = .d0 → exec (.baylnkRetrain bay) s = .next (s.modBay bay fun b =>
      { b with perst := true, stopped := false, attempts := 0, up := false, st := .off, speed := 0, width := 0,
               degraded := false })) ∧
    (∀ v, (∃ o ∈ s.flash.ops, o.bay = bay ∧ (o.st = .queued ∨ o.st = .outstanding)) → exec (.baylnkHold bay v) s = .next s) ∧
    ((∀ o ∈ s.flash.ops, o.bay ≠ bay) → s.ep.dstate = .d0 → exec (.baylnkHold bay false) s = .next (s.modBay bay fun b => { b with hold := false }) ∧
      ∃ t, exec (.baylnkHold bay true) s = .next t ∧ (t.bay bay).hold = true ∧ (t.bay bay).perst = true ∧ (t.bay bay).st = .off) ∧
    (b.st = .off → b.perst = true → exec (.bayLinkDown bay) s = .next s) ∧
    (b.st ≠ .off → (∀ o ∈ s.flash.ops, o.bay ≠ bay) → s.bayMember bay = none → s.canTell →
      ∃ t, exec (.bayLinkDown bay) s = .next t ∧ t.told 0x0502 bay [] ∧ sets (fun b =>
        { b with up := false, speed := 0, width := 0, st := .off, degraded := false, perst := true, desc := none,
                 evt := setBit b.evt 0, consumed := 0, timeoutsRow := 0, invalidAt := [], sqTail := 0, cqHead := 0 }) t)

/-- JMIRROR is answered in R245's order, JACK moves ACKED or ends the mirror, retries and the fail timeout, resynchronisation -/
def Obligations.MirrorAnswersAndRetries : Prop :=
  (∀ (s : State) (src : Nat) (body : List Byte),
    let gi := leAt body 0 1 % 8
    let g := s.group gi
    let recs := carried body
    let jack (st known acked : Nat) (s : State) : State := scrimSend src 0x22 gi 0
      (leBytes 1 gi ++ leBytes 1 st ++ leBytes 2 0 ++ leBytes 4 known ++ leBytes 8 acked ++ leBytes 16 0) s
    let fresh := g.known ≤ leAt body 4 4 ∧ ∀ r ∈ recs, ∀ x, r = some x → g.known ≤ x.epoch
    ((s.ddUp = false ∨ body.length ≠ 32 + 64 * leAt body 1 1) → exec (.jmirrorRx src body) s = .next s) ∧
    (s.ddUp = true → gi < 6 → gi < s.groups.length → body.length = 32 + 64 * leAt body 1 1 →
      (¬ fresh → exec (.jmirrorRx src body) s = .next (jack 1 g.known g.acked s)) ∧
      (fresh → g.role = .owner → exec (.jmirrorRx src body) s = .next (jack 3 g.known g.acked s)) ∧
      (fresh → g.role = .partner → s.mode.mode ≠ .contained → (g.attempt ≠ none ∨ s.freeRecs = 0) → leAt body 16 8 = 0 →
        ∃ u, exec (.jmirrorRx src body) s = .next (jack 2 g.known g.acked u) ∧ (u.group gi).journal = g.journal ∧
          (u.group gi).acked = g.acked ∧ u.flash = s.flash ∧ u.host = s.host ∧ u.out = s.out) ∧
      (∀ r, fresh → g.role = .partner → s.mode.mode ≠ .contained → g.attempt = none → 0 < s.freeFor r.ty → recs = [some r] →
        r.jseq = g.acked → leAt body 16 8 = 0 →
        ∃ u, exec (.jmirrorRx src body) s = .next (jack 0 (leAt body 4 4) (g.acked + 1) u) ∧
          (u.group gi).journal = g.journal ++ [{ r with turn := s.turnNow }] ∧ (u.group gi).acked = g.acked + 1 ∧
          (u.group gi).known = leAt body 4 4 ∧ u.flash = s.flash ∧ u.host = s.host ∧ u.out = s.out))) ∧
  (∀ (s : State) (body : List Byte),
    let gi := leAt body 0 1 % 8
    let g := s.group gi
    s.ddUp = true → gi < 6 → gi < s.groups.length → body.length = 32 → g.role = .owner →
    (leAt body 1 1 = 0 → g.mirror = .service → g.acked < leAt body 8 8 → g.acked < g.jseq → g.hand = none →
      ∃ t, exec (.jackRx body) s = .next t ∧ (t.group gi).acked = min (leAt body 8 8) g.jseq ∧
        (t.group gi).mirror = .service ∧ (t.group gi).role = .owner) ∧
    (leAt body 1 1 = 1 → ∃ t, exec (.jackRx body) s = .next t ∧ (t.group gi).role = .fenced ∧
      (t.group gi).known = max g.known (leAt body 4 4)) ∧
    (leAt body 1 1 = 2 → exec (.jackRx body) s = .next s) ∧
    (leAt body 1 1 = 3 → ∃ t, exec (.jackRx body) s = .next t ∧ (t.group gi).mirror = .solo ∧ (t.group gi).role = .owner)) ∧
  (∀ (s : State) (gi : Nat), s.ddUp = true → gi < s.groups.length → (s.group gi).role = .owner →
    ((s.group gi).jseq ≤ (s.group gi).acked → exec (.jmirrorRetry gi) s = .next s ∧ exec (.mirrorFailTimeout gi) s = .next s) ∧
    ((s.group gi).acked < (s.group gi).jseq → (s.group gi).mirror = .service →
      (∃ t, exec (.jmirrorRetry gi) s = .next t ∧ (t.group gi).mirrorTry = (s.group gi).mirrorTry + 1 ∧
        { t.group gi with mirrorTry := (s.group gi).mirrorTry } = s.group gi ∧ t.flash = s.flash ∧ t.host = s.host) ∧
      ∃ t, exec (.mirrorFailTimeout gi) s = .next t ∧ (t.group gi).mirror = .solo ∧ (t.group gi).role = .owner) ∧
    ((s.group gi).mirror = .solo → s.partnerReached gi = true → s.turnMismatch = false →
      (∀ w ∈ (s.group gi).wits, w.dev ≠ (s.group gi).devA ∧ w.dev ≠ (s.group gi).devB) →
      ∃ t, exec (.resyncStart gi) s = .next t ∧
        t.group gi = { s.group gi with mirror := .resync, resyncSent := true, acked := (s.group gi).jseq, mirrorTry := 0 } ∧
        t.flash = s.flash ∧ t.host = s.host)) ∧
  ∀ (s : State) (p : ResyncPage), s.ddUp = true → p.g < 6 → p.g < s.groups.length →
    (p.epoch < (s.group p.g).known → exec (.resyncRx p) s = .next s) ∧
    (p.first = true → p.last = true → (s.group p.g).known ≤ p.epoch → s.takesRoles = true → s.pairAgrees p.g p = true →
      ((s.group p.g).role = .partner ∨ (s.group p.g).role = .fenced ∨ (s.group p.g).role = .none) →
      ∃ t, exec (.resyncRx p) s = .next t ∧ (t.group p.g).role = .partner ∧ (t.group p.g).journal = [] ∧
        (t.group p.g).acked = p.jseq ∧ (t.group p.g).known = p.epoch ∧ (t.group p.g).epoch = p.epoch)

/-- JCOPY requests and answers, the two waits of a mount, and what GROUP_MOUNT finds -/
def Obligations.MountsAndCopies : Prop :=
  (∀ (s : State) (src : Nat) (body : List Byte),
    let gi := leAt body 0 1 % 8
    s.ddUp = true → gi < 6 → body.length = 32 →
    ((s.group gi).formed = false ∨ (s.group gi).uid ≠ leAt body 16 8 ∨ ∀ r ∈ (s.group gi).journal, r.jseq < leAt body 8 8) →
    exec (.jcopyReqRx src body) s = .next (scrimSend src 0x25 gi 0 (leBytes 1 gi ++ leBytes 1 0 ++ leBytes 1 3 ++ leBytes 1 0 ++
      leBytes 4 0 ++ leBytes 8 (leAt body 8 8) ++ leBytes 8 (leAt body 16 8) ++ leBytes 8 0) s)) ∧
  (∀ (s : State) (body : List Byte),
    let gi := leAt body 0 1 % 8
    ((s.group gi).mountWait = false → exec (.jcopyRx body) s = .next s) ∧
    (∀ r, s.ddUp = true → gi < 6 → gi < s.groups.length → (s.group gi).mountWait = true → body.length = 96 → leAt body 1 1 = 1 →
      leAt body 2 1 = 0 → leAt body 16 8 = (s.group gi).uid → (s.group gi).copies = [] → carried body = [some r] →
      r.jseq = leAt body 8 8 → ∃ t c, exec (.jcopyRx body) s = .next t ∧ (t.group gi).copies = [c] ∧ c.order = 4 ∧
        c.recs = [r] ∧ c.last = false ∧ (t.group gi).mountWait = true ∧ t.out = s.out ∧ t.flash = s.flash)) ∧
  (∀ (s : State) (gi : Nat),
    ((s.group gi).mountWait = false → exec (.jcopyTimeout gi) s = .next s ∧ exec (.journalWaitTimeout gi) s = .next s) ∧
    ((s.group gi).mountWait = true → (s.group gi).copies = [] → s.partnerReached gi = false → exec (.jcopyTimeout gi) s = .next s) ∧
    (s.ddUp = true → (s.group gi).mountWait = true →
      ((s.group gi).copies = [] → s.partnerReached gi = true → exec (.jcopyTimeout gi) s = .next (toPartner gi 0x24
        (leBytes 1 gi ++ leBytes 3 0 ++ leBytes 4 (s.group gi).known ++ leBytes 8 (s.group gi).applied ++ leBytes 8 (s.group gi).uid ++
          leBytes 8 0) s)) ∧
      (∀ x ∈ (s.group gi).copies, (s.group gi).copyCounts x = true →
        ∃ t, exec (.jcopyTimeout gi) s = .next t ∧ exec (.journalWaitTimeout gi) s = .next t)) ∧
    (s.ddUp = true → gi < s.groups.length → (s.group gi).mountWait = true → (s.group gi).copies = [] →
      (s.group gi).logReaches = false → (s.group gi).role = .takingOver → (s.group gi).won = true →
      (s.group gi).replay = [] → (s.group gi).health = .mounting → (s.group gi).bands = [] →
      (∀ x ∈ (s.group gi).members, x.todo = []) →
      ∃ t, exec (.journalWaitTimeout gi) s = .next t ∧ (t.group gi).health = .failed ∧ (t.group gi).cause = 1 ∧
        (t.group gi).mountWait = false ∧ (t.group gi).journal = [] ∧ (t.group gi).jseq = (s.group gi).applied)) ∧
  ∀ (s : State) (gi : Nat) (img : MountImage), gi < 6 → gi < s.groups.length →
    ((s.group gi).role ≠ .none → (s.group gi).role ≠ .takingOver → exec (.groupMount gi img) s = .next s) ∧
    ((s.group gi).role = .none → s.takesRoles = true → img.newest = none → (s.group gi).replay = [] →
      (s.group gi).mountWait = false → (s.group gi).attempt = none → (s.group gi).bands = [] →
      (∀ x ∈ (s.group gi).members, x.todo = []) →
      ∃ t, exec (.groupMount gi img) s = .next t ∧ (t.group gi).formed = true ∧ (t.group gi).health = .failed ∧
        (t.group gi).cause = 2 ∧ (t.group gi).role = .leaseLost) ∧
    (∀ ckpt, (s.group gi).role = .none → s.takesRoles = true → img.newest = some ckpt → ckpt.group.bands = [] → img.log = [] →
      img.images = [] → img.reaches = true → s.partnerReached gi = false → (s.group gi).attempt = none →
      ckpt.group.devA = (s.group gi).devA → ckpt.group.devB = (s.group gi).devB →
      (∀ x ∈ ckpt.group.members, x.st = .current ∧ (s.bay (s.bayOfModule x.moduleId x.bay)).st = .ready ∧
        (s.bay (s.bayOfModule x.moduleId x.bay)).modId = x.moduleId) →
      ((∀ x ∈ ckpt.group.members, s.descFits (s.bayOfModule x.moduleId x.bay) ckpt.group.w = true) →
        ∃ t, exec (.groupMount gi img) s = .next t ∧ (t.group gi).formed = true ∧ (t.group gi).uid = ckpt.group.uid ∧
          (t.group gi).health = .optimal ∧ (t.group gi).role = .leaseLost ∧ (t.group gi).mirror = .solo ∧
          (t.group gi).journal = [] ∧ (t.group gi).jseq = ckpt.group.jseq) ∧
      ((∃ x ∈ ckpt.group.members, s.descFits (s.bayOfModule x.moduleId x.bay) ckpt.group.w = false) →
        ∃ t, exec (.groupMount gi img) s = .next t ∧ (t.group gi).unfit = true ∧ (t.group gi).role = .none))

/-- What becomes of a frame from a host: FCS, acceptance, policing, admission to its egress queue or loss, with the counters -/
def Obligations.HostFramesArePolicedAndAdmitted : Prop :=
  ∀ (s : State) (f : Payload.EthFrame), s.ddUp = true → f.port ≤ 7 → f.port < s.net.ports.length → s.paramN (0x6040 + f.port) = 0 →
    let p := f.port
    let x := s.subPort p f.sub
    let s1 := netCount 0 p 0 s
    let add := s.paramN 0x607B * 125000 * (s.clock - x.bucketAt) / 1600000000
    let tp := min 1048576 (x.tp + add)
    let tc := min 1048576 (x.tc + add)
    let n := ceilDiv f.len 64
    let inQ (port cls : Nat) (y : NetFrame) : Prop := y.port = port ∧ y.sub = 0 ∧ y.cls = cls
    let used (port cls : Nat) : Nat := ((s.net.frames.filter fun y => y.port == port && y.sub == 0 && y.cls == cls).map fun y =>
      y.guaranteed + y.shared).sum
    let shared (port cls : Nat) : Nat := ((s.net.frames.filter fun y => y.port == port && y.sub == 0 && y.cls == cls).map fun y =>
      y.shared).sum
    (s.subUp p f.sub = false → exec (.hostFrameRx f) s = .next s) ∧
    (s.subUp p f.sub = true → f.fcsOk = false → exec (.hostFrameRx f) s = .next (netCount 3 p 0 s1)) ∧
    (s.subUp p f.sub = true → f.fcsOk = true → (9216 < f.len ∨ frameKind s p (s.subPort p f.sub) f.head = none) →
      exec (.hostFrameRx f) s = .next (netEvt p 6 (netCount 2 p 0 s1))) ∧
    (s.subUp p f.sub = true → f.fcsOk = true → f.len ≤ 9216 → frameKind s p (s.subPort p f.sub) f.head = some .mac →
      exec (.hostFrameRx f) s = .next s1) ∧
    (∀ cls, s.subUp p f.sub = true → f.fcsOk = true → f.len ≤ 9216 → f.conn = none →
      frameKind s p (s.subPort p f.sub) f.head = some (.control cls) → f.sub < (s.netPort p).subs.length →
      (tp < f.len → ∃ t, exec (.hostFrameRx f) s = .next t ∧ t.net.frames = s.net.frames ∧ t.out = s.out ∧
        (t.subPort p f.sub).tp = tp ∧ (t.netPort p).evt = setBit (s.netPort p).evt 5 ∧ t.host = s.host ∧ t.flash = s.flash) ∧
      (f.len ≤ tc → f.len ≤ tp → s.lossless p cls = false → used 20 cls + n ≤ s.paramN 0x6070 →
        ∃ t y, exec (.hostFrameRx f) s = .next t ∧ t.net.frames = s.net.frames ++ [y] ∧ inQ 20 cls y ∧ y.key = 0 ∧
          y.len = f.len ∧ y.guaranteed = n ∧ y.shared = 0 ∧ y.ingress = some (p, f.sub, cls) ∧
          (t.subPort p f.sub).tc = tc - f.len ∧ (t.subPort p f.sub).tp = tp - f.len ∧ s.pfcOnly t ∧ t.host = s.host)) ∧
    ∀ c q a v, s.subUp p f.sub = true → f.fcsOk = true → f.len ≤ 9216 → f.conn = some (c, q) →
      frameKind s p (s.subPort p f.sub) f.head = some .session → s.sessAt c q = some v → s.assocAt c = some a →
      (∀ g, s.grantOf a.nqn = some g → g.cir = 0) →
      let cls := ((s.sessGrant v.num).map Grant.cls).getD 3
      let port := 12 + v.engine
      s.lossless p cls = false →
      (used port cls + n ≤ s.paramN 0x6070 → ∃ t y, exec (.hostFrameRx f) s = .next t ∧ t.net.frames = s.net.frames ++ [y] ∧
        inQ port cls y ∧ y.len = f.len ∧ y.guaranteed = n ∧ s.pfcOnly t ∧ t.host = s.host ∧ t.flash = s.flash) ∧
      (s.paramN 0x6070 < used port cls + n → shared port cls + n ≤ s.alphaOf cls s.freeCells →
        ∃ t y, exec (.hostFrameRx f) s = .next t ∧ t.net.frames = s.net.frames ++ [y] ∧ inQ port cls y ∧ y.shared = n) ∧
      (s.paramN 0x6070 < used port cls + n → s.alphaOf cls s.freeCells < shared port cls + n →
        ∃ t, exec (.hostFrameRx f) s = .next t ∧ t.net.frames = s.net.frames ∧ (t.netPort p).evt = setBit (s.netPort p).evt 2 ∧
          t.host = s.host ∧ t.flash = s.flash ∧
          (s.canTell → (s.netPort p).dropTold = none → t.told 0x0703 p []))

/-- Internal sources, the scheduler's choice, PFC pauses and the pause watchdog, CNP caps -/
def Obligations.FramesLeaveInOrderUnderPause : Prop :=
  (∀ (s : State) (f : Payload.NetOut), s.ddUp = true → s.net.held = [] → f.sess = none → f.len ≤ 9216 → f.cls < 8 →
    let used := ((s.net.frames.filter fun y => y.port == f.port && y.sub == f.sub && y.cls == f.cls).map fun y =>
      y.guaranteed + y.shared).sum
    let shared := ((s.net.frames.filter fun y => y.port == f.port && y.sub == f.sub && y.cls == f.cls).map NetFrame.shared).sum
    let n := ceilDiv f.len 64
    let listed := 12 ≤ f.src ∧ f.src ≤ 23 ∧ ((f.port < 8 ∧ f.src ≤ 20) ∨ (8 ≤ f.port ∧ f.port < 12 ∧ f.src = 21) ∨
      (f.port = 21 ∧ f.src ≠ 21) ∨ (12 ≤ f.port ∧ f.port ≤ 23 ∧ f.port ≠ 21 ∧ f.src = 21))
    ((¬ listed ∨ s.subUp f.port f.sub = false) → ∃ t, exec (.internalFrameAdmit (some f)) s = .next t ∧
      t.net.frames = s.net.frames ∧ t.net.held = [] ∧ s.pfcOnly t) ∧
    (listed → s.subUp f.port f.sub = true → (s.subPort f.port f.sub).ignoring.testBit f.cls = false → used + n ≤ s.paramN 0x6070 →
      ∃ t y, exec (.internalFrameAdmit (some f)) s = .next t ∧ t.net.frames = s.net.frames ++ [y] ∧ t.net.held = [] ∧
        y.port = f.port ∧ y.sub = f.sub ∧ y.cls = f.cls ∧ y.len = f.len ∧ y.guaranteed = n ∧ y.key = 0 ∧ s.pfcOnly t) ∧
    (listed → s.subUp f.port f.sub = true → s.paramN 0x6070 < used + n → s.alphaOf f.cls s.freeCells < shared + n →
      ∃ t y, exec (.internalFrameAdmit (some f)) s = .next t ∧ t.net.frames = s.net.frames ∧ t.net.held = [y] ∧
        y.port = f.port ∧ y.len = f.len)) ∧
  (∀ (s : State) (p sub : Nat), s.subUp p sub = false → exec (.portSelect p sub) s = .next s) ∧
  (∀ (s : State) (p sub : Nat) (f : NetFrame), s.ddUp = true → p < 12 → p < s.net.ports.length → s.subUp p sub = true → s.net.frames = [f] →
    f.port = p → f.sub = sub → f.key = 0 → f.cls < 8 → f.ecn = false → s.paramN (0x6050 + p) = 0 →
    (s.net.sched p sub).sendEnd ≤ s.clock → (s.net.sched p sub).classes.length = 8 → (s.subPort p sub).paused = 0 →
    (∀ i, i < 64 → s.gateOpen p f.cls i = true) → (s.netPort p).ctrs.length = 104 →
    let vlan := (s.subPort p sub).vlan
    let tag := if p < 8 ∧ vlan.testBit 15 = true then some (vlan % 4096, f.cls) else none
    ∃ t, exec (.portSelect p sub) s = .next t ∧ t.net.frames = [] ∧
      State.pfcOnly { s with out := s.out ++ [.frame p sub f.cls 0 f.len false tag (if p < 8 ∧ tag = none then 8 * f.cls else 0)] } t ∧
      (t.net.sched p sub).sendEnd = s.clock + ceilDiv ((f.len + 20) * 8 * 16) (10 * s.rateOf p) ∧
      (nth (t.netPort p).ctrs (8 + f.cls)) = (nth (s.netPort p).ctrs (8 + f.cls) + 1) % 2 ^ 64 ∧ t.host = s.host ∧ t.flash = s.flash) ∧
  (∀ (s : State) (p sub vec c : Nat) (times : List Nat), s.ddUp = true → p < 12 → p < s.net.ports.length → s.subUp p sub = true → c < 8 →
    sub < (s.netPort p).subs.length →
    ∃ t, exec (.pfcFrameRx p sub vec times) s = .next t ∧ t.net.frames = s.net.frames ∧ t.out = s.out ∧
      (t.subPort p sub).paused.testBit c = (if vec.testBit c = true ∧ s.lossless p c = true ∧
        (s.subPort p sub).ignoring.testBit c = false then decide (nth times c ≠ 0) else (s.subPort p sub).paused.testBit c)) ∧
  (∀ (s : State) (p sub cls : Nat), p < 12 → p < s.net.ports.length → sub < (s.netPort p).subs.length → cls < 8 →
    (∃ t, exec (.pfcPauseExpiry p sub cls) s = .next t ∧ (t.subPort p sub).paused = clearBit (s.subPort p sub).paused cls ∧
      t.net.frames = s.net.frames ∧ t.out = s.out) ∧
    ((s.subPort p sub).paused.testBit cls = false → exec (.pfcWatchdog p sub cls) s = .next s) ∧
    ((s.subPort p sub).paused.testBit cls = true → s.canTell → ∃ t, exec (.pfcWatchdog p sub cls) s = .next t ∧
      (t.subPort p sub).ignoring = setBit (s.subPort p sub).ignoring cls ∧ t.told 0x0704 p [cls] ∧
      t.net.frames = s.net.frames.filter (fun f => !(f.port == p && f.sub == sub && f.cls == cls)) ∧
      (t.netPort p).evt = setBit (s.netPort p).evt 4) ∧
    exec (.pfcWatchdogRecover p sub cls) s = .next (s.modSub p sub fun x => { x with ignoring := clearBit x.ignoring cls })) ∧
  ∀ (s : State) (i j : Nat) (q : Session), s.sessAt i j = some q →
    let cap (t : State) : Option CnpCap := t.net.caps.find? fun x => x.sess == q.num
    let cut (r : Nat) : Nat := r * (100 - s.paramN 0x6076) / 100
    let line := s.rateOf q.port * 1000
    (cap s = none → (∃ t y, exec (.cnpRx i j) s = .next t ∧ cap t = some y ∧ y.rate = cut line ∧ y.last = s.clock ∧
        t.net.frames = s.net.frames ∧ t.host = s.host) ∧ exec (.cnpRecover i j) s = .next s) ∧
    ∀ x, cap s = some x →
      (s.clock < x.last + 80000 → ∃ t, exec (.cnpRx i j) s = .next t ∧ t.net.caps = s.net.caps) ∧
      (x.last + 80000 ≤ s.clock → ∃ t y, exec (.cnpRx i j) s = .next t ∧ cap t = some y ∧ y.rate = max 100 (cut x.rate) ∧
        y.last = s.clock) ∧
      (line ≤ x.rate + s.paramN 0x6078 → ∃ t, exec (.cnpRecover i j) s = .next t ∧ cap t = none ∧ t.host = s.host) ∧
      (x.rate + s.paramN 0x6078 < line → ∃ t y, exec (.cnpRecover i j) s = .next t ∧ cap t = some y ∧
        y.rate = x.rate + s.paramN 0x6078 ∧ t.host = s.host)

/-- Enabling a port, sub-ports up and down, mirror reset, and the NET block's commit -/
def Obligations.PortsGoUpAndDown : Prop :=
  (∀ (s : State) (p : Nat) (en : Bool), (s.netPort p).enable = en → exec (.netPortEnable p en) s = .next s) ∧
  (∀ (s : State) (p : Nat), s.ddUp = true → p < 12 → p < s.net.ports.length → (s.netPort p).enable = false → s.ep.dstate = .d0 →
    ∃ t, exec (.netPortEnable p true) s = .next t ∧ t.netPort p = { s.netPort p with
      enable := true, mode := s.paramN (0x6000 + p), media := s.paramN (0x6010 + p), pfc := s.paramN (0x6030 + p) } ∧
      (∀ x, x ≠ p → t.netPort x = s.netPort x) ∧ t.net.frames = s.net.frames ∧ t.groups = s.groups ∧ t.flash = s.flash ∧
      ∃ l, t.out = s.out ++ .portTrain p (s.paramN (0x6000 + p)) (s.paramN (0x6010 + p)) :: l) ∧
  (∀ (s : State) (p sub : Nat), s.ddUp = true → p < 12 → p < s.net.ports.length → sub < (s.netPort p).subs.length →
    ((s.netPort p).enable = false → exec (.subportUp p sub) s = .next s) ∧
    ((s.netPort p).enable = true → (s.subPort p sub).up = false →
      sub < (if (s.netPort p).mode = 1 then 2 else if (s.netPort p).mode = 2 then 4 else 1) → s.canTell →
      ∃ t, exec (.subportUp p sub) s = .next t ∧ t.told 0x0702 p [sub] ∧ (t.subPort p sub) = { s.subPort p sub with up := true } ∧
        (t.netPort p).evt = setBit (s.netPort p).evt 1 ∧ t.net.frames = s.net.frames ∧ t.host = s.host)) ∧
  (∀ (s : State) (p sub : Nat), p < 8 → p < s.net.ports.length → sub < (s.netPort p).subs.length →
    ((s.subPort p sub).up = false → exec (.subportDown p sub) s = .next s) ∧
    ((s.subPort p sub).up = true → ∃ t, exec (.subportDown p sub) s = .next t ∧ (t.subPort p sub).up = false ∧
      (∀ q ∈ t.host.sessions, q.port ≠ p ∨ q.sub ≠ sub)) ∧
    ((s.subPort p sub).up = true → (∀ q ∈ s.host.sessions, q.port ≠ p ∨ q.sub ≠ sub) →
      (∀ a ∈ s.host.assocs, a.port ≠ p ∨ a.sub ≠ sub) → s.canTell →
      ∃ t, exec (.subportDown p sub) s = .next t ∧ t.told 0x0701 p [sub, 0] ∧ (t.netPort p).evt = setBit (s.netPort p).evt 0 ∧
        { t.subPort p sub with xoff := 0 } = { s.subPort p sub with up := false, paused := 0, ignoring := 0, xoff := 0 } ∧
        t.net.frames = s.net.frames.filter (fun f => !(f.port == p && f.sub == sub)) ∧
        t.net.held = s.net.held.filter (fun f => !(f.port == p && f.sub == sub)) ∧
        t.host = s.host ∧ t.groups = s.groups ∧ t.flash = s.flash)) ∧
  (∀ s : State, s.ddUp = true → s.ep.dstate = .d0 →
    exec .mirrorReset s = .next { s with net := { s.net with prod := 0, cons := 0, fullTold := false } }) ∧
  ∀ s : State, s.ddUp = true → s.ep.dstate = .d0 →
    (s.par.netStage = [] → exec .netCommit s = .next s) ∧
    (∀ c e, c < 8 → s.par.netStage = [e] → e.num = 0x6068 + c → ∃ t x, exec .netCommit s = .next t ∧ t.par.netStage = [] ∧
      t.par.commits = s.par.commits ++ [x] ∧ x.entries = [e] ∧ t.net = s.net) ∧
    (∀ p c, p < 12 → 6 ≤ c → c < 8 → (∃ e ∈ s.par.netStage, 0x6100 + 16 * p ≤ e.num ∧ e.num < 0x6110 + 16 * p) →
      (∀ k, k < 16 → ∀ i, i < 4 → Nat.testBit (((s.withEntries (s.committed ++ s.par.netStage) (0x6100 + 16 * p + k)).toNat >>> (8 * i)) % 256) c = false) →
      exec .netCommit s = .next { s with net := { s.net with refused := true } })

/-- Claiming an address, HELLO and the adjacency states, a dead adjacency, and what a received Scrim frame leads to -/
def Obligations.AddressesAdjacenciesAndFrames : Prop :=
  (∀ s : State,
    ((s.ddUp = false ∨ s.scrim.chosen = false ∨ s.scrim.claimed = true) → exec .addrClaim s = .next s) ∧
    (s.ddUp = true → s.scrim.chosen = true → s.scrim.claimed = false → ∃ t, exec .addrClaim s = .next t ∧
      t.scrim.claimed = true ∧ t.scrim.addr = s.scrim.addr ∧ t.scrim.lseq = (s.scrim.lseq + 1) % 2 ^ 32 ∧
      (∃ l ∈ t.scrim.lsdb, l.dev = s.fuse.deviceId ∧ l.addr = s.scrim.addr ∧ l.claimed = true ∧ l.lseq = t.scrim.lseq) ∧
      t.groups = s.groups ∧ t.host = s.host ∧ t.flash = s.flash) ∧
    (s.ddUp = true → exec .helloTx s = .next { s with out := s.out ++ (((List.range 4).filter s.spEnabled).map fun p =>
      Output.scrim p ([0x01, 0x80, 0xC2, 0x00, 0x00, 0x0E] ++ leBytes 6 (Config.spMac p) ++ [0x88, 0xB5] ++ leBytes 1 1 ++ leBytes 3 0 ++
        leBytes 8 0 ++ (leBytes 2 0 ++ leBytes 2 s.scrim.addr ++ leBytes 1 1 ++ leBytes 1 6 ++ leBytes 2 0x01 ++ leBytes 2 32 ++
          leBytes 2 0 ++ leBytes 4 0 ++ (leBytes 8 s.fuse.deviceId ++ leBytes 2 (s.scrim.addr % 4096 + flag s.scrim.claimed 12) ++ leBytes 1 p ++
        leBytes 1 0 ++ leBytes 8 (s.adj p).nbr ++ leBytes 2 (s.paramN 0x7001) ++ leBytes 1 (s.paramN 0x7002) ++
        leBytes 1 (s.sys.shelf + flag s.sys.slotB 6) ++ leBytes 8 0)))) })) ∧
  (∀ (s : State) (p : Nat) (b : List Byte), s.ddUp = true → p < 4 → p < s.scrim.adjs.length → s.spEnabled p = true → b.length = 32 →
    (leAt b 0 8 = s.fuse.deviceId → (s.adj p).st ≠ .full → 1 < s.scrim.ctrs.length → ∃ t, exec (.helloRx p b) s = .next t ∧
      (t.adj p).st = .init ∧ nth t.scrim.ctrs 1 = nth s.scrim.ctrs 1 + 1 ∧ t.out = s.out) ∧
    (leAt b 0 8 ≠ s.fuse.deviceId → (s.adj p).st = .down → leAt b 12 8 ≠ s.fuse.deviceId → ∃ t, exec (.helloRx p b) s = .next t ∧
      (t.adj p).st = .init ∧ (t.adj p).nbr = leAt b 0 8 ∧ (t.adj p).nbrAddr = leAt b 8 2 % 4096 ∧
      (∀ q, q ≠ p → t.adj q = s.adj q) ∧ t.groups = s.groups) ∧
    (leAt b 0 8 ≠ s.fuse.deviceId → ((s.adj p).st = .down ∨ ((s.adj p).st = .init ∧ (s.adj p).nbr = leAt b 0 8)) →
      leAt b 12 8 = s.fuse.deviceId → ∃ t, exec (.helloRx p b) s = .next t ∧ (t.adj p).st = .twoWay ∧
        (t.adj p).nbr = leAt b 0 8 ∧ (∀ q, q ≠ p → t.adj q = s.adj q) ∧ t.groups = s.groups)) ∧
  (∀ (s : State) (p : Nat), s.ddUp = true → p < 4 → p < s.scrim.adjs.length →
    ((s.adj p).st = .down → exec (.adjDead p) s = .next s) ∧
    ((s.adj p).st = .full → s.canTell → s.scrim.faults.length < 4096 → ∃ t, exec (.adjDead p) s = .next t ∧ (t.adj p).st = .down ∧
      (t.adj p).nbr = 0 ∧ (t.adj p).protTx = false ∧ (t.adj p).protRx = false ∧ t.scrim.evt.testBit 0 = true ∧
      t.told 0x0802 (8 + p) [] ∧ t.groups = s.groups ∧ t.flash = s.flash)) ∧
  ∀ (s : State) (p : Nat) (f : List Byte), s.ddUp = true → p < 4 → p < s.scrim.adjs.length → s.spEnabled p = true →
    s.paramN (0x6048 + p) = 0 →
    let s1 := netCount 0 (8 + p) 0 s
    let a := s.adj p
    let pn := leAt f 18 8
    let s2 := s1.modAdj p fun a => { a with nbrMac := leAt f 6 6 }
    exec (.scrimFrameRx p { bytes := f, fcsOk := false }) s = .next (netCount 3 (8 + p) 0 s1) ∧
    (leAt f 12 2 ≠ 0xB588 → exec (.scrimFrameRx p { bytes := f }) s = .next (netEvt (8 + p) 6 (netCount 2 (8 + p) 0 s1))) ∧
    (∀ h, leAt f 12 2 = 0xB588 → f.length ≤ 9212 → 42 ≤ f.length → leAt f 14 1 = 1 → routeHead (f.drop 26) = some h →
      (h.ty = 0x01 → ∃ t, exec (.scrimFrameRx p { bytes := f }) s = .next t ∧ exec (.helloRx p h.body) s2 = .next t) ∧
      (h.ty ≠ 0x01 → h.ty ≠ 0x02 → exec (.scrimFrameRx p { bytes := f }) s = .next s2)) ∧
    (leAt f 12 2 = 0xB588 → f.length ≤ 9212 → 58 ≤ f.length → leAt f 14 1 = 0x11 → a.rxKey = [] → a.rxNext = [] →
      2 < s.scrim.ctrs.length →
      ∃ t, exec (.scrimFrameRx p { bytes := f }) s = .next t ∧ t.groups = s.groups ∧
        nth t.scrim.ctrs 2 = nth s.scrim.ctrs 2 + 1 ∧
        (15 ≤ (a.icvAt.filter fun x => decide (s.clock < x + 1600000000)).length → (t.adj p).st = .down)) ∧
    ∀ b h, leAt f 12 2 = 0xB588 → f.length ≤ 9212 → 58 ≤ f.length → leAt f 14 1 = 0x11 + 32 * a.rxAn → a.rxAn < 4 →
      a.rxNext = [] → a.rxKey ≠ [] → openFrame a.rxKey f = some b → routeHead b = some h →
      let s3 := useKey (3077 + 2 * p) s2
      let s4 := s3.modAdj p fun a => { a with rxPn := pn }
      (pn ≤ a.rxPn → exec (.scrimFrameRx p { bytes := f }) s = .next s3) ∧
      (a.rxPn < pn → 0x02 < h.ty → a.st ≠ .full → exec (.scrimFrameRx p { bytes := f }) s = .next (frameCipher h s4)) ∧
      (a.rxPn < pn → a.st = .full → h.ty = 0x31 → h.flood = false → (h.dst ≠ s.scrim.addr ∨ s.scrim.claimed = false) →
        ((h.ttl ≤ 1 ∨ s.nextHop h.src h.dst h.flow 0 = none) → exec (.scrimFrameRx p { bytes := f }) s =
          .next (countScrim 3 (frameCipher h s4))) ∧
        (∀ q, 1 < h.ttl → s.nextHop h.src h.dst h.flow 0 = some q → (s.adj q).st = .full → ∃ t,
          exec (.scrimFrameRx p { bytes := f }) s = .next t ∧ t.out.length = s.out.length + 1 ∧ t.carriedOn q { h with ttl := h.ttl - 1 } ∧
          (t.adj p).rxPn = pn ∧ t.groups = s.groups ∧ t.flash = s.flash))

/-- Flooding, acknowledging, ageing and retransmitting LSAs, and the routes computed from them -/
def Obligations.LinkStateAndRoutes : Prop :=
  (∀ (s : State) (p : Nat) (b : List Byte) (l : Lsa), s.ddUp = true → p < 4 → p < s.scrim.adjs.length → (s.adj p).st = .full →
    lsaOf b = some l →
    let acked (t : State) : Prop :=
      t.carriedOn p { s.message 0 0x11 0 (leBytes 8 l.dev ++ leBytes 4 l.lseq ++ leBytes 4 0) with ttl := 1 }
    let old (y : Lsa) : Prop := s.scrim.lsdb.find? (fun y => y.dev == l.dev) = some y
    let calm := ∀ y ∈ l :: s.scrim.lsdb, y.addr = s.scrim.addr → s.fuse.deviceId ≤ y.dev
    (l.dev ≠ s.fuse.deviceId → ∀ y, old y →
      (l.lseq ≤ y.lseq → ∃ t, exec (.lsaRx p b) s = .next t ∧ acked t ∧ t.out.length = s.out.length + 1 ∧
        t.scrim.lsdb = s.scrim.lsdb ∧ t.scrim.routes = s.scrim.routes ∧ t.groups = s.groups) ∧
      (y.lseq < l.lseq → calm → ∃ t, exec (.lsaRx p b) s = .next t ∧ acked t ∧ l ∈ t.scrim.lsdb ∧ y ∉ t.scrim.lsdb ∧
        t.scrim.spfDue = true ∧ t.scrim.addr = s.scrim.addr ∧
        (∀ q, q < 4 → q ≠ p → (s.adj q).st = .full → t.carriedOn q (s.flooded 0x10 (lsaBytes l)) ∧
          (q, l.dev, l.lseq) ∈ t.scrim.unacked))) ∧
    (l.dev ≠ s.fuse.deviceId → (∀ y ∈ s.scrim.lsdb, y.dev ≠ l.dev) →
      (s.scrim.lsdb.length < 4096 → calm → ∃ t, exec (.lsaRx p b) s = .next t ∧ acked t ∧ l ∈ t.scrim.lsdb ∧
        t.scrim.lsdb.length = s.scrim.lsdb.length + 1 ∧ t.scrim.spfDue = true) ∧
      (4096 ≤ s.scrim.lsdb.length → s.canTell → ∃ t, exec (.lsaRx p b) s = .next t ∧ t.told 0x080C 0 [] ∧ t.hush s = s)) ∧
    (l.dev = s.fuse.deviceId → s.scrim.lseq < l.lseq → ∃ t, exec (.lsaRx p b) s = .next t ∧
      t.scrim.lseq = (l.lseq + 1) % 2 ^ 32 ∧ acked t ∧ t.groups = s.groups)) ∧
  (∀ (s : State) (p : Nat) (b : List Byte), s.ddUp = true → b.length = 16 → exec (.lsaAckRx p b) s =
    .next { s with scrim := { s.scrim with unacked := s.scrim.unacked.filter fun u =>
      !(u.1 == p && u.2.1 == leAt b 0 8 && decide (u.2.2 ≤ leAt b 8 4)) } }) ∧
  (∀ (s : State) (p n : Nat) (l : Lsa), s.ddUp = true → (s.adj p).st = .full → s.scrim.unacked = [(p, l.dev, n)] →
    s.scrim.lsdb.find? (fun y => y.dev == l.dev) = some l → ∃ t, exec (.lsaRetransmit p) s = .next t ∧
      t.out.length = s.out.length + 1 ∧ t.carriedOn p (s.flooded 0x10 (lsaBytes l)) ∧ t.scrim.unacked = s.scrim.unacked ∧ t.scrim.lsdb = s.scrim.lsdb) ∧
  (∀ s : State, s.ddUp = true →
    (s.scrim.chosen = true → ∃ t, exec .lsaRefresh s = .next t ∧ t.scrim.lseq = (s.scrim.lseq + 1) % 2 ^ 32 ∧
      t.scrim.spfDue = true ∧ t.groups = s.groups ∧ t.host = s.host ∧ t.flash = s.flash) ∧
    (∃ t, exec .lsaAgeTick s = .next t ∧ { t with scrim := s.scrim } = s ∧ t.scrim.lsdb =
      (s.scrim.lsdb.map fun l => { l with age := l.age + 1 }).filter fun l => decide (l.age < 3 * s.paramN 0x7003)) ∧
    (s.scrim.spfDue = false → exec .spfCompute s = .next s)) ∧
  ∀ (s : State) (p : Nat) (me y : Lsa) (k j : LsaLink), s.ddUp = true → p < 4 → p < s.scrim.adjs.length → s.scrim.spfDue = true →
    (∀ q, q < 4 → ((s.adj q).st = .full ↔ q = p)) → (s.adj p).nbr = y.dev → me.dev = s.fuse.deviceId → y.dev ≠ me.dev →
    s.scrim.lsdb = [me, y] → me.links = [k] → k.dev = y.dev → y.links = [j] → j.dev = me.dev → j.port = (s.adj p).nbrPort → y.claimed = true →
    1 ≤ s.paramN 0x7005 → ∃ t, exec .spfCompute s = .next t ∧ t.scrim.spfDue = false ∧
      t.scrim.routes = [{ addr := y.addr, hops := 1, ports := [p] }] ∧
      (s.tregs.peers = [] → s.timeStands → t.groups = s.groups ∧ t.flash = s.flash)

/-- A fault report opens an entry and is relayed once; while its window is open it is only counted; the window's end writes
the event -/
def Obligations.FaultReportsCoalesce : Prop :=
  (∀ (s : State) (p : Nat) (b : List Byte), s.ddUp = true → p < 4 → (s.adj p).st = .full → b.length = 32 →
    let sub := leAt b 0 2 % 4096
    let cls := leAt b 2 1
    let mine (f : Fault_) : Bool := f.subject == sub && f.cls == cls
    let e : Fault_ := { subject := sub, cls, start := s.clock, count := 1, firstOrigin := leAt b 4 2 % 4096,
                        firstSeen := leAt b 16 8, here := false }
    ((∀ f ∈ s.scrim.faults, f.subject ≠ sub ∨ f.cls ≠ cls) → s.scrim.faults.length < 4096 →
      ∃ t, exec (.faultReportRx p b) s = .next t ∧ t.scrim.faults = s.scrim.faults ++ [e] ∧
        t.out.length = s.out.length + ((List.range 4).filter fun q => s.scrim.claimed && (s.adj q).st == .full && q != p).length ∧
        (∀ q, q < 4 → q ≠ p → s.scrim.claimed = true → (s.adj q).st = .full → t.carriedOn q (s.flooded 0x12 b)) ∧ t.groups = s.groups ∧ t.mbx = s.mbx) ∧
    ((∃ f ∈ s.scrim.faults, f.subject = sub ∧ f.cls = cls) → ∃ t, exec (.faultReportRx p b) s = .next t ∧
      { t with scrim := { t.scrim with faults := s.scrim.faults } } = s ∧
      t.scrim.faults = s.scrim.faults.map fun f => if mine f then { f with count := f.count + 1 } else f) ∧
    ((∀ f ∈ s.scrim.faults, f.subject ≠ sub ∨ f.cls ≠ cls) → 4096 ≤ s.scrim.faults.length → 5 < s.scrim.ctrs.length →
      ∃ t f, exec (.faultReportRx p b) s = .next t ∧ f ∈ s.scrim.faults ∧ (∀ x ∈ s.scrim.faults, f.start ≤ x.start) ∧
        t.scrim.faults = (s.scrim.faults.filter fun x => !(x.subject == f.subject && x.cls == f.cls)) ++ [e] ∧
        nth t.scrim.ctrs 5 = nth s.scrim.ctrs 5 + 1 ∧
        (s.canTell → t.told 0x0804 f.subject [f.cls, f.count, f.firstOrigin, f.firstSeen, flag f.here 0]))) ∧
  ∀ (s : State) (sub cls : Nat),
    ((∀ f ∈ s.scrim.faults, f.subject ≠ sub ∨ f.cls ≠ cls) → exec (.faultWindowExpiry sub cls) s = .next s) ∧
    (∀ f, f ∈ s.scrim.faults → f.subject = sub → f.cls = cls → (∀ x ∈ s.scrim.faults, x.subject = sub → x.cls = cls → x = f) →
      s.canTell → ∃ t, exec (.faultWindowExpiry sub cls) s = .next t ∧
        t.scrim.faults = s.scrim.faults.filter (fun x => !(x.subject == sub && x.cls == cls)) ∧
        t.told 0x0804 sub [cls, f.count, f.firstOrigin, f.firstSeen, flag f.here 0] ∧ t.groups = s.groups ∧ t.flash = s.flash) ∧
    ((sub, cls) ∉ s.scrim.standing → exec (.faultRepeat sub cls) s = .next s) ∧
    ((sub, cls) ∈ s.scrim.standing → sub < 4096 → cls < 256 → (∀ f ∈ s.scrim.faults, f.subject ≠ sub ∨ f.cls ≠ cls) →
      s.scrim.faults.length < 4096 → ∃ t e, exec (.faultRepeat sub cls) s = .next t ∧ t.scrim.faults = s.scrim.faults ++ [e] ∧
        e.subject = sub ∧ e.cls = cls ∧ e.count = 1 ∧ e.here = true ∧ e.firstOrigin = s.scrim.addr % 4096 ∧
        t.scrim.standing = s.scrim.standing)

/-- A witness answers REGISTER, LEASE_RENEW, TAKEOVER_REQ and RELEASE by its vote table, over Scrim and from checked
datagrams -/
def Obligations.WitnessVotesByItsTable : Prop :=
  (∀ (s : State) (src flow : Nat) (b : List Byte), s.ddUp = true → b.length = 64 →
    let m := WitMsg.ofBytes b
    let e? := s.witEntry m.uid
    let sends (ty answer reason : Nat) (t u : State) : Prop := ∃ r : WitMsg, t = scrimSend src ty flow 0 r.bytes u ∧ r.uid = m.uid ∧
      r.sender = s.fuse.deviceId ∧ r.epoch = m.epoch ∧ r.tag = m.tag ∧ r.answer = answer ∧ r.reason = reason
    let keeps (u : State) : Prop := u.groups = s.groups ∧ u.flash = s.flash ∧ u.host = s.host ∧ u.out = s.out
    let newEntry (m : WitMsg) (now : Nat) : WitEntry :=
      { uid := m.uid, devA := m.sender, devB := m.other, owner := m.sender, epoch := m.epoch, promised := m.epoch, created := now,
        lease := m.lease, period := m.period }
    let taken (e : WitEntry) (m : WitMsg) (now : Nat) : WitEntry :=
      { e with owner := m.sender, epoch := m.epoch, promised := m.epoch, grant := some now, release := none, lease := m.lease,
               period := m.period }
    let voted (u : State) : Prop := ∃ r l, u.bbx.queue = s.bbx.queue ++ r :: l ∧ r.code = 0x0E1A
    (e? = none → s.wit.entries.length < 1024 → bit m.flags 0 = false → ∃ t u, exec (.witnessRegisterRx src flow b) s = .next t ∧
      sends 0x54 1 0 t u ∧ keeps u ∧ u.witEntry m.uid = some (newEntry m s.clock)) ∧
    (e? = none → 1024 ≤ s.wit.entries.length → s.canTell → ∃ t u, exec (.witnessRegisterRx src flow b) s = .next t ∧ sends 0x54 0 5 t u ∧
      u.wit = s.wit ∧ u.told 0x080C 0 []) ∧
    (∀ e, e? = some e → (m.sender ≠ e.owner ∨ m.epoch ≠ e.epoch) → bit m.flags 0 = false → ∃ t r,
      exec (.witnessRegisterRx src flow b) s = .next t ∧ r ≠ 0 ∧ sends 0x54 0 r t s) ∧
    (∀ e, e? = some e → (m.sender ≠ e.owner ∨ m.epoch ≠ e.epoch) → bit m.flags 0 = true → (m.sender = e.devA ∨ m.sender = e.devB) →
      e.promised < m.epoch → e.epoch < m.epoch → ∃ t u, exec (.witnessRegisterRx src flow b) s = .next t ∧ sends 0x54 1 0 t u ∧
        voted u ∧ u.witEntry m.uid = some ((taken e m s.clock).at s.clock)) ∧
    (∀ e, e? = some e → m.sender = e.owner → m.epoch = e.epoch → bit m.flags 0 = false → ∃ t u,
      exec (.witnessRegisterRx src flow b) s = .next t ∧ sends 0x54 1 0 t u ∧ keeps u ∧
      u.witEntry m.uid = some ({ e with promised := m.epoch, lease := m.lease, period := m.period }.at s.clock)) ∧
    (s.groupOf m.uid = none →
      (∀ e, e? = some e → m.sender = e.owner → m.epoch = e.epoch → e.promised ≤ m.epoch → ∃ t u,
        exec (.witnessRenewRx src flow b) s = .next t ∧ sends 0x52 1 0 t u ∧ keeps u ∧
        u.witEntry m.uid = some ({ e with grant := some s.clock, lease := m.lease, period := m.period }.at s.clock)) ∧
      (e? = none → s.wit.entries.length < 1024 → 0 < m.lease * m.period → ∃ t u e, exec (.witnessRenewRx src flow b) s = .next t ∧ sends 0x52 1 0 t u ∧
        u.witEntry m.uid = some e ∧ e.provisional = true ∧ e.owner = m.sender ∧ e.epoch = m.epoch ∧ e.promised = m.epoch ∧
        e.grant = some s.clock) ∧
      (∀ e, e? = some e → (m.sender ≠ e.owner ∨ m.epoch ≠ e.epoch) → e.provisional = false → ∃ (t : State) (r : WitMsg),
        exec (.witnessRenewRx src flow b) s = .next t ∧ t = scrimSend src 0x52 flow 0 r.bytes s ∧ r.answer = 0 ∧ r.other = e.owner ∧
        r.entryEpoch = e.epoch ∧ r.promised = e.promised)) ∧
    (∀ gi, s.groupOf m.uid = some gi → gi < s.groups.length → m.sender = s.otherDev gi → (s.group gi).known ≤ m.epoch → ∃ t,
      exec (.witnessRenewRx src flow b) s = .next t ∧ (t.group gi).heard = s.tregs.frames ∧ t.wit = s.wit ∧ t.out = s.out) ∧
    ((e? = none ∨ ∃ e, e? = some e ∧ e.provisional = true) → ∃ t, exec (.witnessTakeoverRx src flow b) s = .next t ∧
      sends 0x54 0 4 t s) ∧
    (∀ e, e? = some e → e.provisional = false → (m.sender = e.devA ∨ m.sender = e.devB) → e.promised < m.epoch → e.epoch < m.epoch →
      (e.grant = none ∨ (∃ g, e.grant = some g ∧ g + e.lease * e.period * 1600 < s.clock) ∨
        (∃ g, e.release = some (m.sender, g) ∧ s.clock < g + 2 * (e.lease * e.period * 1600)) →
        ∃ t u, exec (.witnessTakeoverRx src flow b) s = .next t ∧ sends 0x54 1 0 t u ∧ voted u ∧
          u.witEntry m.uid = some (taken e m s.clock)) ∧
      (∀ g, e.grant = some g → s.clock ≤ g + e.lease * e.period * 1600 → e.release = none → ∃ t,
        exec (.witnessTakeoverRx src flow b) s = .next t ∧ sends 0x54 0 3 t s)) ∧
    (∀ e, e? = some e → m.sender = e.owner → m.epoch = e.epoch → e.provisional = false → ∃ t,
      exec (.witnessReleaseRx b) s = .next t ∧ t.witEntry m.uid = some { e with release := some (m.other, s.clock) } ∧
      { t with wit := s.wit } = s) ∧
    ((∀ e, e? = some e → m.sender ≠ e.owner ∨ m.epoch ≠ e.epoch) → exec (.witnessReleaseRx b) s = .next s)) ∧
  (∀ (s : State) (uid : Nat) (e : WitEntry), s.witEntry uid = some e →
    (∀ d g, e.release = some (d, g) → (s.clock < g + 2 * (e.lease * e.period * 1600) → exec (.releaseHoldExpiry uid) s = .next s) ∧
      (g + 2 * (e.lease * e.period * 1600) ≤ s.clock → ∃ t, exec (.releaseHoldExpiry uid) s = .next t ∧
        t.witEntry uid = some { e with release := none } ∧ { t with wit := s.wit } = s))) ∧
  (∀ (s : State) (uid : Nat) (e : WitEntry), s.wit.entries.find? (fun x => x.uid == uid) = some e →
    ((e.provisional = false ∨ s.clock < e.created + 2 * (e.lease * e.period * 1600)) → exec (.provisionalMature uid) s = .next s) ∧
    (e.provisional = true → e.created + 2 * (e.lease * e.period * 1600) ≤ s.clock → ∃ t, exec (.provisionalMature uid) s = .next t ∧
      t.wit.entries.find? (fun x => x.uid == uid) = some { e with provisional := false, promised := e.epoch } ∧
      { t with wit := s.wit } = s)) ∧
  ∀ (s : State) (addr : List Byte) (port : Nat) (d : List Byte),
    (s.datagramOk d = false → exec (.witnessDatagramRx addr port d) s = .next s) ∧
    (s.pins.pwronLow = false → s.datagramOk d = true → leAt d 4 2 = 0x55 → ∃ t, exec (.witnessDatagramRx addr port d) s = .next t ∧
      t.wit.seqOf (WitMsg.ofBytes (slice d 16 64)).sender = leAt d 8 8 ∧ { t with wit := s.wit } = s)

/-- Grants keep the lease, fewer than two lose it, and silence, votes and failed attempts move a takeover -/
def Obligations.LeasesAndTakeovers : Prop :=
  (∀ (s : State) (b : List Byte) (gi : Nat) (w v : Witness) (at_ : Nat), s.ddUp = true → b.length = 64 →
    let m := WitMsg.ofBytes b
    let g := s.group gi
    s.groupOf m.uid = some gi → gi < s.groups.length → g.wits = [w, v] → w.dev = m.sender → v.dev ≠ m.sender → m.sender ≠ 0 →
    ((∀ p ∈ w.sent, p.1 ≠ m.tag) → exec (.leaseAnswerRx b) s = .next s) ∧
    (w.sent.find? (fun p => p.1 == m.tag) = some (m.tag, at_) →
      (m.answer = 1 → g.role = .owner → ∃ t, exec (.leaseAnswerRx b) s = .next t ∧ (t.group gi).role = .owner ∧
        ((t.group gi).wits.map Witness.granted) = [some (max at_ (w.granted.getD 0)), v.granted] ∧ t.flash = s.flash ∧ t.out = s.out) ∧
      (∀ f, m.answer = 1 → g.role = .leaseLost → v.granted = some f → s.tregs.frames < f + (s.leaseL - s.leaseG) →
        s.tregs.frames < at_ + (s.leaseL - s.leaseG) → ∃ t, exec (.leaseAnswerRx b) s = .next t ∧ (t.group gi).role = .owner) ∧
      (m.answer = 0 → (g.epoch < m.entryEpoch ∨ g.epoch < m.promised) →
        (g.role = .owner → ∃ t, exec (.leaseAnswerRx b) s = .next t ∧ (t.group gi).role = .owner ∧
          ((t.group gi).wits.map Witness.granted) = [none, v.granted]) ∧
        (g.role = .leaseLost → ∃ t, exec (.leaseAnswerRx b) s = .next t ∧ (t.group gi).role = .fenced)))) ∧
  (∀ (s : State) (gi : Nat), s.ddUp = true → gi < s.groups.length →
    ((2 ≤ s.grants gi ∨ ((s.group gi).role ≠ .owner ∧ (s.group gi).role ≠ .handingOver)) → exec (.leaseLapse gi) s = .next s) ∧
    (s.grants gi < 2 → ((s.group gi).role = .owner ∨ (s.group gi).role = .handingOver) → ∃ t, exec (.leaseLapse gi) s = .next t ∧
      (t.group gi).role = .leaseLost ∧ (t.group gi).hand = none ∧ t.scrim.evt.testBit 2 = true ∧
      (s.canTell → t.told 0x0805 gi [])) ∧
    (s.witnessesSeen gi < 2 → (s.group gi).role ≠ .none →
      ((s.group gi).reachTold = some (s.witnessesSeen gi) → exec (.witnessUnreachable gi) s = .next s) ∧
      ((s.group gi).reachTold ≠ some (s.witnessesSeen gi) → s.canTell → ∃ t, exec (.witnessUnreachable gi) s = .next t ∧
        t.told 0x080A gi [] ∧ t.scrim.evt.testBit 6 = true ∧ (t.group gi).reachTold = some (s.witnessesSeen gi) ∧
        t.flash = s.flash ∧ t.host = s.host))) ∧
  (∀ (s : State) (gi : Nat), s.ddUp = true → gi < s.groups.length → s.takesRoles = true → (s.group gi).role = .partner →
    (s.group gi).attempt = none →
    let g := s.group gi
    let asks (t : State) : Prop := (t.group gi).role = .takingOver ∧ (t.group gi).won = false ∧ ∃ a, (t.group gi).attempt = some a ∧
      a.planned = false ∧ a.yes = [] ∧ a.sentAt = s.tregs.frames ∧ g.epoch < a.epoch ∧ g.known < a.epoch ∧ g.promised < a.epoch ∧
      (∀ r ∈ g.journal, r.epoch < a.epoch) ∧ ∀ n ∈ g.presentBays, (s.bay n).modEpoch < a.epoch
    (s.tregs.frames < g.heard + s.leaseL + s.leaseG → exec (.takeoverTrigger gi) s = .next s) ∧
    (g.heard + s.leaseL + s.leaseG ≤ s.tregs.frames → g.failedAt = none → ∃ t, exec (.takeoverTrigger gi) s = .next t ∧ asks t) ∧
    (∀ f, g.failedAt = some f → (s.tregs.frames < f + s.leaseR → exec (.takeoverRetry gi) s = .next s) ∧
      (f + s.leaseR ≤ s.tregs.frames → ∃ t, exec (.takeoverRetry gi) s = .next t ∧ asks t))) ∧
  ∀ (s : State) (gi : Nat) (a : Attempt), s.ddUp = true → gi < s.groups.length → (s.group gi).role = .takingOver →
    (s.group gi).won = false → (s.group gi).attempt = some a →
    (s.tregs.frames < a.sentAt + 2 * s.leaseR → exec (.takeoverAttemptEnd gi) s = .next s) ∧
    (a.sentAt + 2 * s.leaseR ≤ s.tregs.frames → ∃ t, exec (.takeoverAttemptEnd gi) s = .next t ∧ (t.group gi).role = .partner ∧
      (t.group gi).attempt = none ∧ (t.group gi).failedAt = some s.tregs.frames ∧ (t.group gi).deniedTold = true ∧
      (s.anaStands → { t.flash with hawk := s.flash.hawk } = s.flash)) ∧
    ∀ (b : List Byte) (w : Witness), b.length = 64 →
      let m := WitMsg.ofBytes b
      s.groupOf m.uid = some gi → w ∈ (s.group gi).wits → w.dev = m.sender → s.tregs.frames < a.sentAt + 2 * s.leaseR →
      (m.answer = 0 → a.yes.length < 2 → ∃ t c, exec (.voteRx b) s = .next t ∧ (t.group gi).attempt = some { a with answered := c } ∧
        (t.group gi).role = .takingOver ∧ (t.group gi).promised = max (s.group gi).promised m.promised ∧ t.flash = s.flash) ∧
      (m.answer = 1 → m.tag = a.tag → a.yes = [] → m.sender ∉ a.answered → ∃ t, exec (.voteRx b) s = .next t ∧
        (t.group gi).attempt = some { a with yes := [m.sender], answered := m.sender :: a.answered } ∧ (t.group gi).won = false) ∧
      (∀ x, m.answer = 1 → m.tag = a.tag → a.yes = [x] → m.sender ∉ a.answered → (s.group gi).presentBays ≠ [] →
        ∃ t, exec (.voteRx b) s = .next t ∧ (t.group gi).won = true ∧ (t.group gi).epoch = a.epoch ∧
          (t.group gi).role = .takingOver ∧ (t.group gi).health = .mounting)

/-- Offers, ACKs, commits, cancels and requests of a planned handover, its timeout, failback and swaps -/
def Obligations.HandoversMoveAGroup : Prop :=
  (∀ (s : State) (b : List Byte) (gi : Nat), s.ddUp = true → b.length = 64 →
    let m := WitMsg.ofBytes b
    let g := s.group gi
    let sends (step : Nat) (t u : State) : Prop := ∃ r : WitMsg, t = toPartner gi 0x56 r.bytes u ∧ r.uid = g.uid ∧ r.step = step ∧
      r.tag = m.tag ∧ r.sender = s.fuse.deviceId
    s.groupOf m.uid = some gi → gi < s.groups.length → m.sender = s.otherDev gi →
    (s.failFit gi = true → g.topSeen ≤ g.acked → g.known ≤ m.epoch → s.turnMismatch = false → ∃ t u,
      exec (.handoverOfferRx b) s = .next t ∧ sends 2 t u ∧ (u.group gi).handedBy = some m.turn ∧ u.flash = s.flash ∧
      { u.group gi with handedBy := g.handedBy } = g) ∧
    ((s.failFit gi = false ∨ g.acked < g.topSeen ∨ s.turnMismatch = true) → ∃ t u, exec (.handoverOfferRx b) s = .next t ∧ sends 4 t u ∧
      { u.group gi with requested := g.requested } = g ∧ u.flash = s.flash) ∧
    (∀ h, g.hand = some h → h.offered = true → h.acked = false → s.turnMismatch = false → ∃ t, exec (.handoverAckRx b) s = .next t ∧
      (t.group gi).role = .handingOver ∧ (t.group gi).hand = some { h with acked := true } ∧
      (g.role = .owner → s.anaStands → { t.flash with hawk := s.flash.hawk } = s.flash)) ∧
    (g.hand = none → exec (.handoverAckRx b) s = .next s) ∧
    (∀ h, g.hand = some h → s.canTell → ∃ t, exec (.handoverCancelRx b) s = .next t ∧ (t.group gi).hand = none ∧
      (t.group gi).role = (if g.role = .handingOver then .owner else g.role) ∧ t.told 0x0809 gi [] ∧
      (g.role = .owner → t.flash = s.flash)) ∧
    (g.hand = none → g.handedBy = none → g.requested = true → ∃ t, exec (.handoverCancelRx b) s = .next t ∧
      (t.group gi).requestAgain = true ∧ { t with groups := s.groups } = s) ∧
    (g.role = .owner → g.hand = none → s.prefers gi = false → s.turnMismatch = false → ∃ t h, exec (.handoverRequestRx b) s = .next t ∧
      (t.group gi).hand = some h ∧ h.why = .failback ∧ (t.group gi).role = .owner) ∧
    ((g.role ≠ .owner ∨ g.hand ≠ none ∨ s.prefers gi = true ∨ s.turnMismatch = true) → ∃ t, exec (.handoverRequestRx b) s = .next t ∧ sends 4 t s) ∧
    (∀ n, g.role = .partner → g.handedBy = some n → g.attempt = none → ∃ t a, exec (.handoverCommitRx b) s = .next t ∧
      (t.group gi).role = .takingOver ∧ (t.group gi).attempt = some a ∧ a.planned = true ∧ g.epoch < a.epoch) ∧
    (g.handedBy = none → exec (.handoverCommitRx b) s = .next s)) ∧
  ∀ (s : State) (gi : Nat), s.ddUp = true → gi < s.groups.length →
    (∀ h, (s.group gi).hand = some h →
      ((h.final = false ∨ s.tregs.turns < h.finalAt + 1) → exec (.handoverJackTimeout gi) s = .next s) ∧
      (h.final = true → h.finalAt + 1 ≤ s.tregs.turns → (s.group gi).role = .handingOver → s.mode.toHand = [] → s.canTell →
        ∃ t, exec (.handoverJackTimeout gi) s = .next t ∧ (t.group gi).role = .owner ∧ (t.group gi).hand = none ∧
          t.told 0x0809 gi [])) ∧
    (s.paramN 0x7023 ≠ 1 → exec (.failbackHoldoffExpiry gi) s = .next s) ∧
    (s.paramN 0x7023 = 1 → s.prefers gi = true → s.failFit gi = true → (s.group gi).requested = false → ∃ t u r,
      exec (.failbackHoldoffExpiry gi) s = .next t ∧ t = toPartner gi 0x56 (WitMsg.bytes r) u ∧ r.step = 5 ∧ r.uid = (s.group gi).uid ∧
      (u.group gi).requested = true ∧ u.flash = s.flash) ∧
    ((s.paramN 0x7025 = 0 ∨ (s.group gi).role ≠ .owner) → exec (.swapDue gi) s = .next s) ∧
    (∀ x, s.swapInstant gi = some x → (s.group gi).role = .owner →
      ((s.group gi).swapAt = some x → (s.group gi).swapRetry = none → exec (.swapDue gi) s = .next s) ∧
      ((s.group gi).swapAt ≠ some x → (s.group gi).health ≠ .optimal → ∃ t, exec (.swapDue gi) s = .next t ∧
        t.group gi = { s.group gi with swapAt := some x, swapRetry := some (s.nowNs + 3600000000000) } ∧
        { t with groups := s.groups } = s) ∧
      ((s.group gi).swapAt ≠ some x → (s.group gi).health = .optimal → (s.group gi).mirror = .service → s.healthyFor gi = true →
        s.prefers gi = true → s.partnerReached gi = true → (s.group gi).hand = none → s.turnMismatch = false →
        ∃ t h, exec (.swapDue gi) s = .next t ∧ (t.group gi).hand = some h ∧ h.why = .swap ∧ (t.group gi).role = .owner))

/-- INIT and CONFIRM of KEYX, their resending and restart, and rekeying, as R360 says -/
def Obligations.LinkKeysAreAgreed : Prop :=
  ∀ (s : State) (p : Nat) (b : List Byte), s.ddUp = true → p < 4 → p < s.scrim.adjs.length →
    let a := s.adj p
    let up := a.st = .twoWay ∨ a.st = .full
    let gen := s.paramN 0x8009
    let head (t : State) (step : Nat) : List Byte := leBytes 8 s.fuse.deviceId ++ leBytes 1 step ++ leBytes 1 ((t.adj p).an % 4) ++
      leBytes 2 0 ++ leBytes 4 gen
    let plain (body : List Byte) : Output :=
      .scrim p (s.linkHead p false ++ ({ src := s.scrim.addr, ttl := 1, cls := 6, ty := 0x02, body } : RouteHead).bytes)
    let begun (t : State) (an : Nat) : Prop := (t.adj p).keyx = true ∧ (t.adj p).an = an % 4 ∧ (t.adj p).peerNonce = none ∧
      (t.adj p).st = a.st ∧ (t.adj p).txKey = a.txKey ∧ (t.adj p).rxKey = a.rxKey ∧
      t.out = s.out ++ [plain (head t 1 ++ leBytes 8 (t.adj p).ownNonce ++ leBytes 8 0 ++ leBytes 16 0)] ∧
      t.groups = s.groups ∧ t.host = s.host ∧ t.flash = s.flash
    ((¬ up ∨ leAt b 0 8 ≠ a.nbr ∨ b.length ≠ 48) → exec (.keyxInitRx p b) s = .next s) ∧
    (∀ auth, up → leAt b 0 8 = a.nbr → b.length = 48 → a.keyx = true → a.peerNonce = none → s.derives = true → s.drbgStale = false →
      s.workingKey 3074 6 = some auth → ∃ t, exec (.keyxInitRx p b) s = .next t ∧ (t.adj p).peerNonce = some (leAt b 16 8) ∧
        (t.adj p).an = leAt b 9 1 % 4 ∧ (t.adj p).protTx = true ∧
        t.label (3076 + 2 * p) = leBytes 1 7 ++ leBytes 1 1 ++ leBytes 2 (2 * p) ++ leBytes 4 gen ++ leBytes 8 s.fuse.deviceId ++
          (leBytes 8 a.ownNonce ++ leBytes 8 (leAt b 16 8)) ∧
        t.label (3077 + 2 * p) = leBytes 1 7 ++ leBytes 1 1 ++ leBytes 2 (2 * a.nbrPort) ++ leBytes 4 gen ++ leBytes 8 a.nbr ++
          (leBytes 8 (leAt b 16 8) ++ leBytes 8 a.ownNonce) ∧
        (∃ m, m = head t 2 ++ leBytes 8 a.ownNonce ++ leBytes 8 (leAt b 16 8) ∧
          t.out = s.out ++ [plain (m ++ messageMac (Aes.toBytes auth) m)])) ∧
    (leAt b 8 1 = 2 → s.confirmOk p b = true → (a.keyx = false ∨ a.rxNext = []) → exec (.keyxConfirmRx p b) s = .next s) ∧
    (up → b.length = 48 → leAt b 8 1 = 2 → s.confirmOk p b = true → a.keyx = true → a.rxNext ≠ [] → ∃ t, exec (.keyxConfirmRx p b) s = .next t ∧
      (t.adj p).protRx = true ∧ (t.adj p).keyx = false ∧ t.groups = s.groups ∧ t.flash = s.flash ∧
      (t.adj p).st = (if a.st = .twoWay ∧ a.protTx = true then .full else a.st)) ∧
    (up → b.length = 48 → leAt b 8 1 = 2 → s.confirmOk p b = false → ∃ t, exec (.keyxConfirmRx p b) s = .next t ∧
      t.ciph.ctrs.keyxFail = s.ciph.ctrs.keyxFail + 1 ∧ t.ciph.evt = setBit s.ciph.evt 3 ∧ (t.adj p).keyx = false ∧
      (t.adj p).st = a.st ∧ (t.adj p).protRx = a.protRx ∧ t.groups = s.groups ∧
      (s.canTell → a.keyxTold = none → t.told 0x0904 (8 + p) [])) ∧
    ((a.keyx = false ∨ a.peerNonce ≠ none) → exec (.keyxInitResend p) s = .next s) ∧
    (a.keyx = true → a.peerNonce = none → exec (.keyxInitResend p) s = .next { s with out := s.out ++
      [plain (head s 1 ++ leBytes 8 a.ownNonce ++ leBytes 8 0 ++ leBytes 16 0)] }) ∧
    (a.keyx = true → exec (.keyxRestart p) s = .next s ∧ exec (.keyxRekey p) s = .next s) ∧
    (a.keyx = false → s.derives = true → s.drbgStale = false →
      (a.st = .twoWay → ∃ t, exec (.keyxRestart p) s = .next t ∧ begun t a.an) ∧
      (a.st = .full → ∃ t, exec (.keyxRekey p) s = .next t ∧ begun t (a.txAn + 1)))

/-- Root key and entropy faults, TLS records and key updates, and the Keying commands on labels, generations and the PSK -/
def Obligations.KeyFaultsRecordsAndLabels : Prop :=
  (∀ s : State, (s.ddUp = false → exec .rootKeyFault s = .next { s with fuse := { s.fuse with rootSt := .uncorrectable } } ∧
      exec .entropyFail s = .next s ∧ exec .entropyRecover s = .next s) ∧
    (s.ddUp = true →
      (∃ t, exec .rootKeyFault s = .next t ∧ t.fuse.rootSt = .uncorrectable ∧ t.ciph.rootOk = false ∧ t.ciph.keying = false ∧
        t.ciph.evt.testBit 0 = true ∧ ((s.mode.mode = .standby ∨ s.mode.mode = .owner ∨ s.mode.mode = .partner) →
          t.mode.mode = .contained ∧ t.scrim.contained = true) ∧
        (s.canTell → s.mbx.events.length < 8000 → s.ownedGroups = [] → ∃ e ∈ t.mbx.events, e.code = 0x0901)) ∧
      (s.canTell → ∃ t, exec .entropyFail s = .next t ∧ t.told 0x0902 0 [] ∧ t.ciph.entropyOk = false ∧
        t.ciph.ctrs.entropyFail = s.ciph.ctrs.entropyFail + 1 ∧ t.ciph.evt = setBit s.ciph.evt 1 ∧
        { t.hush s with ciph := s.ciph } = s) ∧
      exec .entropyRecover s = .next { s with ciph := { s.ciph with entropyOk := true, drbg := 0 } })) ∧
  (∀ (s : State) (i j : Nat), (s.tlsKey i j = none → ∀ ok tx, exec (.tlsRecordRx i j ok) s = .next s ∧ exec (.tlsKeyUpdate i j tx) s = .next s) ∧
    ∀ (q : Session) (r : TlsRec), j ≠ 0 → s.sessAt i j = some q → s.ciph.recs = [r] → r.sess = q.num →
      (∃ t, exec (.tlsRecordRx i j true) s = .next t ∧ t.ciph.recs = [{ r with rxSeq := r.rxSeq + 1 }] ∧ t.host = s.host ∧ t.out = s.out) ∧
      (∃ t, exec (.tlsRecordRx i j false) s = .next t ∧ (∀ x ∈ t.host.sessions, x.num ≠ q.num) ∧ t.ciph.recs = [] ∧
        t.ciph.ctrs.tagFail = s.ciph.ctrs.tagFail + 1 ∧ Output.tlsAlert i j ∈ t.out) ∧
      (∃ t x, exec (.tlsKeyUpdate i j true) s = .next t ∧ t.ciph.recs = [x] ∧ x.txSeq = 0 ∧ x.sess = q.num ∧ x.rxKey = r.rxKey ∧
        x.rxIv = r.rxIv ∧ x.rxSeq = r.rxSeq ∧ t.host = s.host ∧ t.out = s.out) ∧
      (∃ t x, exec (.tlsKeyUpdate i j false) s = .next t ∧ t.ciph.recs = [x] ∧ x.rxSeq = 0 ∧ x.sess = q.num ∧ x.txKey = r.txKey ∧
        x.txIv = r.txIv ∧ x.txSeq = r.txSeq)) ∧
  ∀ (s : State) (c : Nat),
    let b := s.body c
    let slot := leAt b 0 2
    let l := slice b 4 32
    (s.carries c 0x0601 →
      ((3072 ≤ slot ∨ (leAt l 1 1 % 2 = 1 ∧ leAt l 4 4 ≤ leAt (s.label slot) 4 4)) →
        exec (.labelWrite c) s = .next (answer c Code.stBadField 0 [] s)) ∧
      (slot < 3072 → leAt l 1 1 < 2 → (leAt l 1 1 = 0 ∨ leAt (s.label slot) 4 4 < leAt l 4 4) → l.length = 32 → ∃ t,
        exec (.labelWrite c) s = .next (answer c Code.stOk 0 [] t) ∧ t.label slot = l ∧
        (∀ x, x ≠ slot → t.label x = s.label x) ∧ (∀ e ∈ t.ciph.cache, e.1 ≠ slot) ∧ t.groups = s.groups ∧
        (2048 ≤ slot → { t with ciph := s.ciph } = s) ∧
        (slot < 2048 → ∀ e ∈ t.flash.hawk, e.nsx = slot % 1024 → e.removed = true))) ∧
    (s.carries c 0x0602 → slot < 4096 → exec (.labelRead c) s = .next (answer c Code.stOk 0 (s.label slot) s)) ∧
    (s.carries c 0x0603 → ∀ n, s.ns? slot = some n → n.nsx = slot → (s.role n.group).owns = true →
      (n.encrypted = false → exec (.genAdvance c) s = .next (answer c Code.stBadField 0 [] s)) ∧
      (n.encrypted = true → leAt b 2 2 = 0 → leAt (s.label slot) 4 4 < leAt b 4 4 → n.genRetired = false → n.deleting = false →
        (s.mbx.jobs.filter Job.running).length < 8 →
        ∃ t x, exec (.genAdvance c) s = .next t ∧ t.ns? slot = some x ∧ x.genRetired = true ∧ { x with genRetired := false } = n)) ∧
    (s.carries c 0x0604 →
      (s.paramN 0x8007 = 0 → exec (.pskExport c) s = .next (answer c Code.stLocked 0 [] s)) ∧
      (s.paramN 0x8007 ≠ 0 → (∀ x ∈ s.host.grants, x.num ≠ slot) → exec (.pskExport c) s = .next (answer c Code.stNotFound 0 [] s)) ∧
      (∀ k, s.paramN 0x8007 ≠ 0 → (∃ x ∈ s.host.grants, x.num = slot) → s.workingKey (2048 + slot) 3 = some k →
        let psk := asciiBytes "NVMeTLSkey-1:02:" ++ base64 (Aes.toBytes k ++ leBytes 4 (crc32 (Aes.toBytes k))) ++ asciiBytes ":"
        exec (.pskExport c) s = .next (answer c Code.stOk 0 (leBytes 2 psk.length ++ psk)
          (raise 0x0906 Kind.chan c [slot, c] (useKey (2048 + slot) s)))))

/-- A BAR2 channel's doorbell, its request checks in their order, its areas, its answer and its acknowledgement -/
def Obligations.Bar2ChannelsTakeCheckAndAnswer : Prop :=
  ∀ (s : State) (c : Nat), s.ddUp = true → s.ep.dstate = .d0 → s.fw.recovery = false → c < 64 → s.mbx.chans.length = 64 → s.mbx.bar2.wf = true →
    let ch := s.chan c
    let req := c * 0x2000
    let rsp := c * 0x2000 + 0x1000
    let m := Memory.readN s.mbx.bar2 req (32 + min 4064 (leAt (Memory.readN s.mbx.bar2 req 32) 8 2))
    let taken : State := { s with mbx := { s.mbx with
      chans := upd s.mbx.chans c fun h => { h with state := .busy, req := m }, requests := (s.mbx.requests + 1) % 2 ^ 64
      order := s.mbx.order.filter (· != c) ++ [c] } }
    let no (st : Nat) : Prop := exec (.mbxDoorbell c) s = .next (answer c st 0 [] taken)
    let clean : Prop := reqChannel m = c ∧ reqHeaderClean m = true ∧ bodyClean m = true
    (s.transport c = 1 → ch.state = .idle →
      (¬ clean → no Code.stBadField) ∧
      (clean → 4064 < reqLength m → no Code.stBadLength) ∧
      (clean → reqLength m ≤ 4064 → cmdRow (reqOpcode m) = none → no Code.stBadOpcode) ∧
      ∀ r, cmdRow (reqOpcode m) = some r → clean → reqLength m ≤ 4064 →
        (lengthOk r m = false → no Code.stBadLength) ∧
        (lengthOk r m = true → (s.privilege c < reqPriv m ∨ reqPriv m < r.priv) → no Code.stPrivilege) ∧
        (lengthOk r m = true → reqPriv m ≤ s.privilege c → r.priv ≤ reqPriv m →
          (r.provision = true → s.mode.mode ≠ .provision → no Code.stMode) ∧
          ((r.provision = true → s.mode.mode = .provision) → exec (.mbxDoorbell c) s = .next taken))) ∧
    (s.transport c = 1 → ch.state ≠ .idle → exec (.mbxDoorbell c) s =
      .next { s with mbx := { s.mbx with chans := upd s.mbx.chans c fun h => { h with overrun := true } } }) ∧
    (s.transport c = 1 → exec (.mbxAck c) s = .next (if ch.state = .done then
      { s with mbx := { s.mbx with chans := upd s.mbx.chans c fun h => { h with state := .idle } } } else s)) ∧
    (∀ (off : Nat) (data : List Byte),
      (s.transport c = 1 → req ≤ off → off + data.length ≤ rsp → off < rsp →
        (ch.state = .busy → exec (.bar2AreaWrite off data) s =
          .next { s with mbx := { s.mbx with areaDrops := (s.mbx.areaDrops + 1) % 2 ^ 64 } }) ∧
        (ch.state ≠ .busy → ∃ t, exec (.bar2AreaWrite off data) s = .next t ∧
          (∀ a, Memory.read t.mbx.bar2 a =
            if off ≤ a ∧ a < off + data.length then nth data (a - off) else Memory.read s.mbx.bar2 a) ∧
          { t with mbx := { t.mbx with bar2 := s.mbx.bar2 } } = s)) ∧
      (rsp ≤ off → off < rsp + 0x1000 → exec (.bar2AreaWrite off data) s = .next s)) ∧
    (s.transport c ≠ 1 → exec (.mbxDoorbell c) s = .next s ∧ exec (.mbxAck c) s = .next s ∧
      ∀ off data, req ≤ off → off < rsp → exec (.bar2AreaWrite off data) s = .next s) ∧
    (s.transport c = 1 → ∀ (st d : Nat) (body : List Byte), body.length ≤ 4064 →
      let t := answer c st d body s
      Memory.readN t.mbx.bar2 rsp 4096 = padTo 4096 (leBytes 2 (leAt ch.req 0 2) ++ leBytes 1 c ++ leBytes 1 (128 + s.privilege c) ++
        leBytes 4 (leAt ch.req 4 4) ++ leBytes 2 body.length ++ leBytes 2 st ++ leBytes 4 d ++ leBytes 8 (leAt ch.req 16 8) ++
        leBytes 8 0 ++ body) ∧
      (∀ a, (a < rsp ∨ rsp + 0x1000 ≤ a) → Memory.read t.mbx.bar2 a = Memory.read s.mbx.bar2 a) ∧
      t.mbx.chans = upd s.mbx.chans c fun h =>
        { h with state := .done, lastStatus := st % 65536, doneBit := true, waiting := false })

/-- Requests on MP, SMBus and Scrim: what is dropped, the CMAC, SEQ and the cached response, and who executes a held one -/
def Obligations.RemoteChannelsCheckSeqAndCmac : Prop :=
  ∀ (s : State) (c : Nat), s.mbx.chans.length = 64 →
    let ch := s.chan c
    let set (f : Chan → Chan) : State := { s with mbx := { s.mbx with chans := upd s.mbx.chans c f } }
    let others := s.mbx.order.filter (· != c)
    let taken (m : List Byte) (addr port : Nat) (held : Bool) : State := { s with mbx := { s.mbx with
      chans := upd s.mbx.chans c fun h => { h with state := .busy, req := m, lastSeq := some (reqSeq m), fromAddr := addr,
                                                   fromPort := port, aonHeld := held || h.aonHeld }
      requests := (s.mbx.requests + 1) % 2 ^ 64, order := if held then others else others ++ [c] } }
    let fresh (m : List Byte) : Prop := ∀ q, ch.lastSeq = some q → q < reqSeq m
    let refused (cmd : Instr) : Prop := ∃ t, exec cmd s = .next t ∧ t.mbx.authFail = (s.mbx.authFail + 1) % 2 ^ 64 ∧
      (s.mbx.chans.any Chan.waiting = false → (t.chan c).state = ch.state ∧ (t.chan c).req = ch.req ∧
        (t.chan c).lastSeq = ch.lastSeq ∧ (s.canTell → ch.authTold = none → t.told 0x0A01 c [])) ∧
      (∀ k, ch.authTold = some k → s.clock < k + 96000000000 →
        t = { s with mbx := { s.mbx with authFail := (s.mbx.authFail + 1) % 2 ^ 64 } })
    (∀ (addr port : Nat) (m mac : List Byte), mac.length = 16 → reqChannel m = c →
      ((s.transport c ≠ 2 ∨ m.length < 32) → exec (.mbxMpRequest addr port (m ++ mac)) s = .next s) ∧
      (s.transport c = 2 → 32 ≤ m.length →
        ((ch.credential = [] ∨ mac ≠ messageMac ch.credential m) → refused (.mbxMpRequest addr port (m ++ mac))) ∧
        (ch.credential ≠ [] → mac = messageMac ch.credential m →
          (fresh m → ch.state = .idle → exec (.mbxMpRequest addr port (m ++ mac)) s = .next (taken m addr port true)) ∧
          (ch.lastSeq = some (reqSeq m) → ch.state ≠ .idle → exec (.mbxMpRequest addr port (m ++ mac)) s = .next s) ∧
          (ch.lastSeq = some (reqSeq m) → ch.state = .idle → leAt ch.cached 4 4 = reqSeq m → ch.cached ≠ [] → ∃ t, exec (.mbxMpRequest addr port (m ++ mac)) s = .next t ∧
            t.out = s.out ++ [.mpResponse addr port (ch.cached ++ messageMac ch.credential ch.cached)] ∧
            (t.chan c).state = .idle ∧ { t with mbx := s.mbx, out := s.out } = s) ∧
          (∀ q, ch.lastSeq = some q → reqSeq m < q → refused (.mbxMpRequest addr port (m ++ mac)))))) ∧
    (∀ (ok : Bool) (ty iana : Nat) (m : List Byte), reqChannel m = c → 32 ≤ m.length → iana < 2 ^ 32 →
      ((ok = false ∨ ty ≠ 0x7F ∨ iana ≠ s.paramN 0x11C2 ∨ s.transport c ≠ 3) →
        exec (.mbxSmbusRequest ok ty (leBytes 4 iana ++ m)) s = .next s) ∧
      (ok = true → ty = 0x7F → iana = s.paramN 0x11C2 → s.transport c = 3 → fresh m → ch.state = .idle →
        exec (.mbxSmbusRequest ok ty (leBytes 4 iana ++ m)) s = .next (taken m 0 0 true))) ∧
    (∀ (src dev : Nat) (m : List Byte), reqChannel m = c → 32 ≤ m.length → s.ddUp = true →
      ((s.transport c ≠ 4 ∨ (s.paramN (0x1180 + c) ≠ 0 ∧ s.paramN (0x1180 + c) ≠ dev)) →
        exec (.mbxScrimRequest src dev m) s = .next s) ∧
      (s.transport c = 4 → (s.paramN (0x1180 + c) = 0 ∨ s.paramN (0x1180 + c) = dev) → fresh m → ch.state = .idle → c < 64 →
        (requestError c m s = none → exec (.mbxScrimRequest src dev m) s = .next (taken m src 0 false)) ∧
        ∀ st, requestError c m s = some st → exec (.mbxScrimRequest src dev m) s = .next (answer c st 0 [] (taken m src 0 false)))) ∧
    (ch.aonHeld = false → exec (.mbxDataDieTake c) s = .next s ∧ exec (.mbxAonWithdraw c) s = .next s) ∧
    (ch.aonHeld = true → ch.state = .busy →
      let free := set fun h => { h with aonHeld := false }
      let op := reqOpcode ch.req
      let last : State := { free with mbx := { free.mbx with order := others ++ [c] } }
      (s.ddUp = true → (requestError c ch.req s = none → exec (.mbxDataDieTake c) s = .next last) ∧
        ∀ st, requestError c ch.req s = some st → exec (.mbxDataDieTake c) s = .next (answer c st 0 [] last)) ∧
      (requestError c ch.req s = none →
        (op ∉ [0x0101, 0x0301, 0x0302, 0x0701, 0x0702, 0x0703, 0x0704, 0x0801, 0x0110] →
          exec (.mbxAonWithdraw c) s = .next (answer c Code.stMode 0 [] free)) ∧
        (op = 0x0302 → leAt (s.body c) 1 1 ≠ 0 → exec (.mbxAonWithdraw c) s = .next (answer c Code.stMode 0 [] free)) ∧
        (op = 0x0101 → exec (.mbxAonWithdraw c) s = .next (answer c Code.stOk 0 (leBytes 2 0x2400 ++ leBytes 1 0xB0 ++
          leBytes 1 (if s.sys.slotB then 1 else 0) ++ leBytes 8 s.fuse.deviceId ++ leBytes 3 0 ++ leBytes 1 0 ++ leBytes 2 0 ++
          leBytes 1 s.mode.mode.ctorIdx ++ leBytes 1 s.fuse.lifecycle ++ leBytes 4 s.bbx.ddResets) free))) ∧
      ∀ st, requestError c ch.req s = some st → exec (.mbxAonWithdraw c) s = .next (answer c st 0 [] free))

/-- What the System and event commands answer and change, how an event joins the ring, and how a job ends -/
def Obligations.SystemAndEventCommandsAnswer : Prop :=
  (∀ (s : State) (c : Nat), c < s.mbx.chans.length →
    let b := s.body c
    let no (cmd : Instr) (st : Nat) : Prop := exec cmd s = .next (answer c st 0 [] s)
    let ok (cmd : Instr) (body : List Byte) : Prop := exec cmd s = .next (answer c Code.stOk 0 body s)
    (s.carries c 0x0101 → ok (.identify c) (leBytes 2 0x2400 ++ leBytes 1 0xB0 ++ leBytes 1 (if s.sys.slotB then 1 else 0) ++
      leBytes 8 s.fuse.deviceId ++ [3, 2, 0, 0] ++ leBytes 2 0x0201 ++ leBytes 1 s.mode.mode.ctorIdx ++ leBytes 1 s.fuse.lifecycle ++
      leBytes 4 s.bbx.ddResets)) ∧
    (s.carries c 0x0102 →
      let got := (counters.drop (leAt b 0 2)).take (leAt b 2 2)
      let bad := leAt b 2 2 = 0 ∨ 500 < leAt b 2 2 ∨ got = [] ∨ (∃ x ∈ got, x.kind ≠ 0 ∧ instances x.kind ≤ leAt b 4 2)
      (bad → no (.stats c) Code.stRange) ∧
      (¬ bad → ok (.stats c) (leBytes 2 got.length ++ leBytes 6 0 ++
        (got.map fun x => leBytes 8 (x.value s (leAt b 4 2))).flatten))) ∧
    (s.carries c 0x0103 →
      let got := (counters.drop (leAt b 0 2)).take (leAt b 2 2)
      let bad := leAt b 2 2 = 0 ∨ 63 < leAt b 2 2 ∨ got = []
      (bad → no (.statsDescribe c) Code.stRange) ∧
      (¬ bad → ok (.statsDescribe c) (leBytes 2 counters.length ++ leBytes 6 0 ++
        (got.map fun x => padTo 48 (asciiBytes x.name) ++ (leBytes 1 x.kind ++ leBytes 15 0)).flatten))) ∧
    (s.carries c 0x0104 →
      let p := leAt b 0 1
      let i := leAt b 1 1
      let given (x : SubPort) : SubPort :=
        { x with mac := leAt b 2 6, vlan := leAt b 8 2, prefix4 := leAt b 10 1, prefix6 := leAt b 11 1, ipv4 := leAt b 12 4, ipv6 := slice b 16 16 }
      let fits := p ≤ 7 ∧ i ≤ 3 ∧ leAt b 10 1 ≤ 32 ∧ leAt b 11 1 ≤ 128 ∧ leAt b 8 2 / 4096 % 8 = 0
      (fits → (∃ q ∈ s.host.sessions, q.port = p ∧ q.sub = i) → no (.netAddr c) Code.stBusy) ∧
      (fits → (∀ q ∈ s.host.sessions, q.port ≠ p ∨ q.sub ≠ i) → p < s.net.ports.length → i < (s.netPort p).subs.length →
        ∃ t, exec (.netAddr c) s = .next (answer c Code.stOk 0 [] t) ∧
          t.subPort p i = given (s.subPort p i) ∧
          (∀ q k, (q ≠ p ∨ k ≠ i) → t.subPort q k = s.subPort q k) ∧ t.groups = s.groups ∧ t.mbx = s.mbx ∧
          t.host.sessions = s.host.sessions)) ∧
    (s.carries c 0x0105 →
      let n := leAt b 4 2
      ((n = 0 ∨ 25 < n) → no (.mirrorRead c) Code.stRange) ∧
      (n ≠ 0 → n ≤ 25 → ok (.mirrorRead c) (leBytes 4 s.net.prod ++ leBytes 4 0 ++ ((List.range n).map fun i =>
        (List.range 160).map fun k => s.mirrorByte ((leAt b 0 4 + i) % s.paramN 0x607E * 160 + k)).flatten))) ∧
    (s.carries c 0x0106 →
      (1 < leAt b 0 1 → no (.reset c) Code.stRange) ∧
      (leAt b 0 1 = 1 → ∃ t, exec (.reset c) s = .next t ∧ t.pins.ddReset = true ∧ t.fw.running = false ∧ t.fw.reason = 2 ∧
        t.bbx.ddResets = (s.bbx.ddResets + 1) % 2 ^ 32 ∧ t.out = (answer c Code.stOk 0 [] s).out ∧ t.pwr = s.pwr ∧
        t.fuse = s.fuse ∧ (t.chan c).state = .idle)) ∧
    (s.carries c 0x0107 →
      let x := leAt b 0 1
      let cred := slice b 4 32
      (s.transport c ≠ 1 → s.transport c ≠ 3 → no (.credential c) Code.stPrivilege) ∧
      ((s.transport c = 1 ∨ s.transport c = 3) → x < 64 → exec (.credential c) s = .next (answer c Code.stOk 0 []
        { s with mbx := { s.mbx with chans := upd s.mbx.chans x fun h =>
          { h with credential := if cred.all (· == 0) then [] else cred, stage := [] } } }))) ∧
    (s.carries c 0x0108 →
      (s.mbx.jobs.find? (fun j => j.num == leAt b 0 2) = none → no (.jobStatus c) Code.stNotFound) ∧
      (∀ j, s.mbx.jobs.find? (fun j => j.num == leAt b 0 2) = some j → ok (.jobStatus c) (leBytes 2 j.opcode ++
        leBytes 1 (if j.running then 0 else 1) ++ leBytes 1 0 ++ leBytes 2 (if j.running then 0 else j.status) ++ leBytes 1 j.percent))) ∧
    (s.carries c 0x0501 → (4096 ≤ leAt b 0 2 → no (.faultSubmit c) Code.stRange) ∧
      (leAt b 0 2 < 4096 → s.scrim.faults.length < 4096 → (∀ f ∈ s.scrim.faults, f.subject ≠ leAt b 0 2 ∨ f.cls ≠ 6) →
        ∃ t e, exec (.faultSubmit c) s = .next (answer c Code.stOk 0 [] t) ∧ t.scrim.faults = s.scrim.faults ++ [e] ∧
          e.subject = leAt b 0 2 ∧ e.cls = 6 ∧ e.count = 1 ∧ e.here = true ∧ t.groups = s.groups ∧ t.mbx = s.mbx)) ∧
    (let f := leAt b 0 8
     let n := leAt b 8 2
     let mask := leAt b 12 16
     let hits := s.mbx.events.filter fun e => f ≤ e.seq && (mask == 0 || mask.testBit (e.code / 256))
     let rec' (e : EventRec) : List Byte := leBytes 2 e.code ++ leBytes 1 e.kind ++ leBytes 1 (if e.unlocked then 1 else 0) ++
       leBytes 4 e.subject ++ leBytes 8 e.seq ++ leBytes 8 e.ftime ++ padTo 40 ((e.detail.map fun d => leBytes 8 (twos 64 d)).flatten)
     let body (t : State) (next : Nat) : List Byte := leBytes 8 t.mbx.oldestSeq ++ leBytes 8 next ++ leBytes 2 (hits.take n).length ++
       leBytes 6 0 ++ ((hits.take n).map rec').flatten
     let lost := min 0xFFFFFFFF (s.mbx.oldestSeq - max 1 f)
     (s.carries c 0x0B01 → ((n = 0 ∨ 63 < n) → no (.eventRead c) Code.stRange) ∧
       (n ≠ 0 → n ≤ 63 → ∃ next, exec (.eventRead c) s = .next (answer c Code.stOk lost (body s next) s) ∧
         (hits.length < n → next = s.mbx.evtHead + 1) ∧ (∀ e, hits[n - 1]? = some e → next = e.seq + 1))) ∧
     (s.carries c 0x0B02 → n ≠ 0 → n ≤ 63 → leAt b 28 4 ≠ 0 → leAt b 28 4 ≤ 10000 →
       (hits = [] → exec (.eventWait c) s = .next { s with mbx := { s.mbx with
         chans := upd s.mbx.chans c fun h => { h with waiting := true }, order := s.mbx.order.filter (· != c) } }) ∧
       (hits ≠ [] → ∃ next, exec (.eventWait c) s = .next (answer c Code.stOk lost (body s next) s))) ∧
     ((s.chan c).waiting = true → s.ddUp = true → hits = [] →
       exec (.eventWaitTimeout c) s = .next (answer c Code.stOk lost (leBytes 8 s.mbx.oldestSeq ++
         leBytes 8 (s.mbx.evtHead + 1) ++ leBytes 2 0 ++ leBytes 6 0) s)) ∧
     ((s.chan c).waiting = false → exec (.eventWaitTimeout c) s = .next s))) ∧
  (∀ s : State, s.ep.dstate = .d0 → exec .evtHeadRead s =
    .next { s with mbx := { s.mbx with evtSent := false }, out := s.out ++ [.regRead 0x000C0000 (leBytes 4 (s.mbx.evtHead % 2 ^ 32))] }) ∧
  (∀ (s : State) (code kind subj : Nat) (detail : List Int), s.canTell →
    let e : EventRec := { code, kind, unlocked := decide (s.time.servo ≠ .locked), subject := subj, seq := s.mbx.evtHead + 1,
                          ftime := s.time.fab / 2 ^ 32, detail := detail.take 5 }
    (raise code kind subj detail s).mbx.events = (s.mbx.events ++ [e]).drop (s.mbx.events.length + 1 - 8192) ∧
    (raise code kind subj detail s).mbx.evtHead = s.mbx.evtHead + 1) ∧
  ∀ (s : State) (n : Nat),
    (s.mbx.jobs.find? (fun j => j.num == n && j.running) = none → exec (.jobDone n) s = .next s) ∧
    (∀ j, s.mbx.jobs.find? (fun j => j.num == n && j.running) = some j → s.canTell → s.ddUp = true →
      j.opcode ∉ [0x0202, 0x0603, 0x0906, 0x0A03] → ∃ t, exec (.jobDone n) s = .next t ∧
        t.told 0x0A03 0 [(j.num : Int), (j.opcode : Int), (j.status : Int)] ∧ t.hush s = s ∧
        t.mbx.jobs = s.mbx.jobs.map fun x => if x.num = n ∧ x.running = true then { x with running := false, percent := 100 } else x)

/-- NS_CREATE with its refusals, NS_DELETE and its job, NS_RESIZE, NS_ATTR, NS_INFO, and the shelf-wide NS_GRANT and
NS_SUBSYS -/
def Obligations.NamespaceCommandsCreateChangeAndGrant : Prop :=
  ∀ (s : State) (c : Nat), c < s.mbx.chans.length →
    let b := s.body c
    let x := leAt b 0 2
    let no (cmd : Instr) (st : Nat) : Prop := exec cmd s = .next (answer c st 0 [] s)
    let done (cmd : Instr) (st d : Nat) (body : List Byte) (p : State → Prop) : Prop :=
      ∃ t, exec cmd s = .next (answer c st d body t) ∧ p t ∧ t.par = s.par ∧ t.mbx.chans = s.mbx.chans ∧
        t.mode = s.mode ∧ t.pins = s.pins
    let did (cmd : Instr) (st d : Nat) (body : List Byte) (p : State → Prop) : Prop :=
      done cmd st d body fun t => p t ∧ t.groups = s.groups
    let owned (n : Ns) : Prop := s.ns? x = some n ∧ (s.role n.group).owns = true
    (s.carries c 0x0201 →
      let gi := leAt b 2 1
      let size := leAt b 8 8
      let n : Ns := { nsx := x, group := gi, lba512 := decide (leAt b 4 1 = 0), zoneCode := leAt b 5 1, encrypted := decide (leAt b 6 1 = 1), hawk := leAt b 7 1, size, nguid := slice b 16 16, cls := s.paramN 0x300E, maxActive := s.paramN 0x200D, maxOpen := s.paramN 0x200E }
      let g := s.group gi
      let cap := (g.bases - s.paramN 0x3003 - 10) * (g.bandUnits * 16384) * (100 - s.paramN 0x3009) / 100
      let bound := ((s.host.nss.filter fun m => m.group == gi && m.nsx != x).map Ns.size).sum
      let map := ((s.host.nss.filter fun m => !m.zoned && m.nsx != x).map fun m => 5 * ((m.size + 16383) / 16384)).sum
      let fields := leAt b 3 1 = 0 ∧ leAt b 4 1 ≤ 1 ∧ leAt b 5 1 ≤ 5 ∧ leAt b 6 1 ≤ 1 ∧ leAt b 7 1 ≤ 2 ∧ x < 1024
      (fields → (6 ≤ gi ∨ g.formed = false) → no (.nsCreate c) Code.stNotFound) ∧
      (fields → gi < 6 → g.formed = true → (s.role gi).owns = false → no (.nsCreate c) Code.stNotOwner) ∧
      (fields → gi < 6 → g.formed = true → (s.role gi).owns = true →
        ((s.ns? x).isSome = true → no (.nsCreate c) Code.stExists) ∧
        (s.ns? x = none → leAt b 6 1 = 1 → s.fuse.lifecycle ≠ 1 → s.fuse.lifecycle ≠ 2 → no (.nsCreate c) Code.stLocked) ∧
        (s.ns? x = none → (leAt b 6 1 = 0 ∨ s.fuse.lifecycle = 1 ∨ s.fuse.lifecycle = 2) → size ≠ 0 → size % (if leAt b 4 1 = 0 then 512 else 4096) = 0 →
          (cap < bound + size → no (.nsCreate c) Code.stNoSpace) ∧
          (bound + size ≤ cap → (slice b 16 16).all (· == 0) = false →
            map + 5 * ((size + 16383) / 16384) + (s.paramN 0x300B * 2 ^ 20 + 4 * 2 ^ 30 + 384 * 2 ^ 20) ≤ 2 ^ 38 →
            did (.nsCreate c) Code.stOk 0 (leBytes 2 x ++ leBytes 2 0 ++ slice b 16 16)
              (fun t => t.host.nss = s.host.nss ++ [n] ∧ t.host.sessions = s.host.sessions ∧ t.flash = s.flash))))) ∧
    (∀ cmd op, (cmd, op) ∈ [(Instr.nsDelete c, 0x0202), (.nsResize c, 0x0203), (.nsAttr c, 0x0204)] → s.carries c op →
      (s.ns? x = none → no cmd Code.stNotFound) ∧
      (∀ n, s.ns? x = some n → (s.role n.group).owns = false → no cmd Code.stNotOwner)) ∧
    (∀ n, owned n →
      (s.carries c 0x0202 → n.deleting = false → n.genRetired = false →
        (8 ≤ (s.mbx.jobs.filter Job.running).length → no (.nsDelete c) Code.stBusy) ∧
        ((s.mbx.jobs.filter Job.running).length < 8 → s.host.cmds = [] → done (.nsDelete c) Code.stStarted s.mbx.nextJob []
          (fun t => (∃ m, t.ns? x = some m ∧ m.deleting = true ∧ (n.zoned = true → m.zones = []) ∧
              (n.zoned = false → ∀ e ∈ m.map, n.size ≤ e.1 * 16384) ∧ { m with deleting := n.deleting, map := n.map, zones := n.zones } = n) ∧
            (∀ e ∈ t.flash.hawk, e.nsx = x → e.pins ≠ 0 ∧ e.removed = true) ∧
            (∀ y, y ≠ x → t.ns? y = s.ns? y) ∧
            ∃ j, t.mbx.jobs = s.mbx.jobs ++ [j] ∧ j.num = s.mbx.nextJob ∧ j.opcode = 0x0202 ∧ j.running = true))) ∧
      (s.carries c 0x0203 → (leAt b 8 8 < n.size → no (.nsResize c) Code.stRange) ∧
        (n.size ≤ leAt b 8 8 → Ns.sizeOk { n with size := leAt b 8 8 } = true → n.deleting = false →
          (s.nsFits { n with size := leAt b 8 8 } = false → no (.nsResize c) Code.stNoSpace) ∧
          (s.nsFits { n with size := leAt b 8 8 } = true → did (.nsResize c) Code.stOk 0 []
            (fun t => t.ns? x = some { n with size := leAt b 8 8 } ∧ ∀ y, y ≠ x → t.ns? y = s.ns? y)))) ∧
      (s.carries c 0x0204 →
        (8 ≤ leAt b 2 1 → no (.nsAttr c) Code.stBadField) ∧
        (leAt b 2 1 = 1 → leAt b 3 1 ≤ 2 → did (.nsAttr c) Code.stOk 0 []
          (fun t => t.ns? x = some { n with hawk := leAt b 3 1 } ∧ (∀ y, y ≠ x → t.ns? y = s.ns? y))) ∧
        (leAt b 2 1 = 2 → leAt b 4 1 ≤ 7 → did (.nsAttr c) Code.stOk 0 []
          (fun t => t.ns? x = some { n with cls := leAt b 4 1 } ∧ (∀ y, y ≠ x → t.ns? y = s.ns? y) ∧ t.flash = s.flash)) ∧
        (leAt b 2 1 = 4 → leAt b 5 1 ≤ 1 → (∀ i, i < 4 → leAt b (16 + 8 * i) 2 < 4096) → did (.nsAttr c) Code.stOk 0 []
          (fun t => (∃ m, t.ns? x = some m ∧ m.peerServe = decide (leAt b 5 1 = 1) ∧ m.content = leAt b 8 8 ∧
            (∀ i, i < 4 → leAt b (20 + 8 * i) 4 ≠ 0 → (leAt b (16 + 8 * i) 2, leAt b (20 + 8 * i) 4) ∈ m.sources) ∧
            { m with peerServe := n.peerServe, content := n.content, sources := n.sources } = n) ∧
            (∀ y, y ≠ x → t.ns? y = s.ns? y) ∧ t.flash = s.flash)))) ∧
    (s.carries c 0x0207 → (s.ns? x = none → no (.nsInfo c) Code.stNotFound) ∧
      ∀ n, s.ns? x = some n → exec (.nsInfo c) s = .next (answer c Code.stOk 0 (leBytes 2 n.nsx ++ leBytes 1 n.group ++
        leBytes 1 (if n.zoned then 1 else 0) ++ leBytes 1 (if n.lba512 then 0 else 1) ++ leBytes 1 n.zoneCode ++
        leBytes 1 (if n.encrypted then 1 else 0) ++ leBytes 1 n.hawk ++ leBytes 8 n.size ++ padTo 16 n.nguid ++
        leBytes 8 (n.size / (if n.lba512 then 512 else 4096)) ++ leBytes 1 (s.anaState n.group)) s)) ∧
    (s.carries c 0x0205 → leAt b 0 2 < 1024 → leAt b 2 1 ≤ 5 →
      let old := s.host.grants.find? fun g => g.num == leAt b 0 2
      let keep := s.host.grants.filter fun g => g.num != leAt b 0 2
      let nqn := (slice b 24 256).takeWhile (· != 0)
      let g : Grant := { num := leAt b 0 2, cls := leAt b 2 1, weight := leAt b 3 1, cir := leAt b 4 4, pir := leAt b 8 4, cbs := leAt b 12 4, pbs := leAt b 16 4, nqn, bitmap := leAt b 280 128 }
      let policed := leAt b 4 4 ≠ 0
      let rates := leAt b 4 4 ≤ leAt b 8 4 ∧ 16 ≤ leAt b 12 4 ∧ leAt b 12 4 ≤ 16384 ∧ 16 ≤ leAt b 16 4 ∧ leAt b 16 4 ≤ 16384
      (leAt b 20 1 = 0 → policed → ¬ rates → no (.nsGrant c) Code.stRange) ∧
      (leAt b 20 1 = 1 → old = none → no (.nsGrant c) Code.stNotFound) ∧
      (leAt b 20 1 = 0 → (policed → rates) → nqn ≠ [] → (s.shelfReached = false → no (.nsGrant c) Code.stPeerUnreachable) ∧
        (s.shelfReached = true → did (.nsGrant c) Code.stOk 0 [] (fun t => t.host.grants = keep ++ [g] ∧ t.host.nss = s.host.nss))) ∧
      (leAt b 20 1 = 1 → old.isSome = true → (s.shelfReached = false → no (.nsGrant c) Code.stPeerUnreachable) ∧
        (s.shelfReached = true → did (.nsGrant c) Code.stOk 0 [] (fun t => t.host.grants = keep ∧ t.host.nss = s.host.nss)))) ∧
    (s.carries c 0x0206 → b.head? ≠ some 0 → b ≠ [] →
      (s.shelfReached = false → no (.nsSubsys c) Code.stPeerUnreachable) ∧
      (s.shelfReached = true → did (.nsSubsys c) Code.stOk 0 [] (fun t => t.host.nqn = some (padTo 224 b) ∧ t.host.nss = s.host.nss))) ∧
    (∀ j, s.mbx.jobs.find? (fun j => j.num == c && j.running) = some j → j.opcode = 0x0202 → s.ddUp = true →
      ∃ t, exec (.jobDone c) s = .next t ∧ t.ns? j.subject = none)

/-- The Bays and Stripe groups commands, FORCE_TAKEOVER and HANDOVER: what each answers, refuses and changes -/
def Obligations.BayAndGroupCommandsAnswerAndAct : Prop :=
  ∀ (s : State) (c : Nat), c < s.mbx.chans.length → s.groups.length = 6 → s.flash.bays.length = 24 →
    let b := s.body c
    let x := leAt b 0 1
    let g := s.group x
    let no (cmd : Instr) (st : Nat) : Prop := exec cmd s = .next (answer c st 0 [] s)
    let did (cmd : Instr) (st d : Nat) (body : List Byte) (p : State → Prop) : Prop :=
      ∃ t, exec cmd s = .next (answer c st d body t) ∧ p t
    let owned : Prop := x < 6 ∧ g.formed = true ∧ g.role.owns = true
    (s.carries c 0x0301 → (24 ≤ x → no (.bayStatus c) Code.stNotFound) ∧
      (x < 24 → exec (.bayStatus c) s = .next (answer c Code.stOk 0 (leBytes 4 (s.baylnkStatus x) ++
        leBytes 4 ((s.pchan x).status s.aonTick) ++ leBytes 8 (s.bay x).modId ++ leBytes 1 (s.bayPlace x).1 ++ leBytes 1 (s.bayPlace x).2.1 ++
        leBytes 1 (s.bayPlace x).2.2) s))) ∧
    (s.bayMember x = none → (∀ h ∈ s.groups, x ∉ h.spareBays) → s.bayPlace x = (0xFF, 0xFF, 3)) ∧
    (∀ gi m, s.bayMember x = some (gi, m) → s.bayPlace x = (gi, m, if ((s.group gi).member m).st = .target then 1 else 0)) ∧
    (s.carries c 0x0302 → (24 ≤ x → no (.bayPower c) Code.stNotFound) ∧ (x < 24 →
      (2 < leAt b 1 1 → no (.bayPower c) Code.stRange) ∧
      (leAt b 1 1 = 1 → (s.pchan x).st = .latched → (s.pchan x).byFet = true → no (.bayPower c) Code.stLocked) ∧
      ∀ act cmd, (act, cmd) ∈ [(0, Instr.baypwrOff x), (1, .baypwrOn x), (2, .baypwrCycle x)] → leAt b 1 1 = act →
        (act = 1 → ¬ ((s.pchan x).st = .latched ∧ (s.pchan x).byFet = true)) → ∃ t, exec cmd s = .next t ∧ exec (.bayPower c) s = .next (answer c Code.stOk 0 [] t))) ∧
    (s.carries c 0x0303 → x < 24 → leAt b 1 1 ≤ 1 → (s.bayIdle x = false → no (.bayHold c) Code.stBusy) ∧
      (s.bayIdle x = true → leAt b 1 1 = 1 → did (.bayHold c) Code.stOk 0 [] (fun t => (t.bay x).hold = true ∧ (t.bay x).perst = true ∧
        (t.bay x).up = false ∧ ∀ y, y ≠ x → (t.bay y).hold = (s.bay y).hold)) ∧
      (s.bayIdle x = true → leAt b 1 1 = 0 → did (.bayHold c) Code.stOk 0 [] (fun t => (t.bay x).hold = false ∧
        ∀ y, y ≠ x → t.bay y = s.bay y))) ∧
    (s.carries c 0x0401 → leAt b 2 1 ≤ 1 →
      let w := leAt b 1 1
      let bays := (List.range w).map fun i => leAt b (4 + i) 1
      let bad (row : Nat) : Prop := exec (.grpForm c) s = .next (answer c Code.stBadField row [] s)
      ((w < 4 ∨ 24 < w) → bad 1) ∧ (4 ≤ w → w ≤ 24 → 5 < x → bad 2) ∧
      (4 ≤ w → w ≤ 24 → x ≤ 5 → (¬ bays.Nodup ∨ ∃ y ∈ bays, 24 ≤ y ∨ (s.bayPlace y).2.2 ≠ 3) → bad 3) ∧
      (formFails b s = none → (g.formed = true → no (.grpForm c) Code.stExists) ∧
        (g.formed = false → (s.shelfReached = false ∨ s.turnMismatch = true) → no (.grpForm c) Code.stPeerUnreachable) ∧
        (g.formed = false → s.shelfReached = true → s.turnMismatch = false → s.takesRoles = true → (s.mbx.jobs.filter Job.running).length < 8 → ∃ uid,
          did (.grpForm c) Code.stStarted s.mbx.nextJob (leBytes 8 uid) (fun t => (t.group x).formed = true ∧ (t.group x).uid = uid ∧
            (t.group x).epoch = 1 ∧ (t.group x).members.map Member.bay = bays ∧
            (t.group x).role = (if (leAt b 2 1 = 1) = (s.sys.slotB = true) then .none else .partner) ∧
            ((leAt b 2 1 = 1) = (s.sys.slotB = true) → s.flash.ops = [] → ∀ y ∈ bays, ∃ o ∈ t.flash.ops, o.bay = y ∧ o.opc = 0x60 ∧ o.use = .epochSet 1) ∧
            ∃ j ∈ t.mbx.jobs, j.num = s.mbx.nextJob ∧ j.opcode = 0x0401))) ∧
      (formFails b s = some 7 → exec (.grpForm c) s = .next (answer c Code.stBadField 7 [] (raise 0x0402 Kind.group x [] s)))) ∧
    (∀ cmd op, (cmd, op) ∈ [(Instr.grpDissolve c, 0x0402), (.grpAcceptLoss c, 0x0404), (.grpLostRead c, 0x0406), (.handover c, 0x0503)] →
      s.carries c op → ((6 ≤ x ∨ g.formed = false) → no cmd Code.stNotFound) ∧
      (x < 6 → g.formed = true → g.role.owns = false → no cmd Code.stNotOwner)) ∧
    (s.carries c 0x0402 → owned → ((∃ n ∈ s.host.nss, n.group = x) → no (.grpDissolve c) Code.stBusy) ∧
      ((∀ n ∈ s.host.nss, n.group ≠ x) → did (.grpDissolve c) Code.stOk 0 [] (fun t => t.group x = {} ∧
        ∀ w ∈ t.flash.slots, w.g ≠ x))) ∧
    (s.carries c 0x0403 → x < 24 → s.bayMember x = none → (∀ h ∈ s.groups, x ∉ h.spareBays) →
      let gi := leAt b 2 1
      let m := leAt b 3 1
      (leAt b 1 1 = 2 → no (.grpAssign c) Code.stOk) ∧
      (leAt b 1 1 = 1 → gi < 6 → (s.group gi).formed = true → (s.group gi).role.owns = true →
        (∀ h ∈ s.groups, ∀ k ∈ h.members, k.st ≠ .missing) → did (.grpAssign c) Code.stOk 0 [] (fun t =>
          (t.group gi).spareBays = x :: (s.group gi).spareBays ∧ (t.bay x).spare = true ∧ ∀ y, y ≠ x → t.bay y = s.bay y)) ∧
      (leAt b 1 1 = 0 → gi < 6 → (s.group gi).formed = true → (s.group gi).role.owns = true → m < (s.group gi).w →
        ((s.group gi).member m).st = .missing → s.meets gi x = true → did (.grpAssign c) Code.stOk 0 [] (fun t =>
          (t.group gi).bayOf m = x))) ∧
    (s.carries c 0x0404 → owned → (leAt b 4 4 ≠ g.epoch → no (.grpAcceptLoss c) Code.stConflict) ∧
      (leAt b 4 4 = g.epoch → (g.health ≠ .failed ∨ g.cause ≠ 1) → no (.grpAcceptLoss c) Code.stBadField) ∧
      (leAt b 4 4 = g.epoch → g.health = .failed → g.cause = 1 → did (.grpAcceptLoss c) Code.stOk 0 [] (fun t =>
        (t.group x).health = g.healthOf ∧ (t.group x).health ≠ .failed ∧ (t.group x).lost = g.lost))) ∧
    (s.carries c 0x0405 → ((6 ≤ x ∨ g.formed = false) → no (.grpStatus c) Code.stNotFound) ∧
      (x < 6 → g.formed = true → exec (.grpStatus c) s = .next (answer c Code.stOk 0 (leBytes 1 g.health.ctorIdx ++
        leBytes 1 g.space.ctorIdx ++ leBytes 1 g.role.ctorIdx ++ leBytes 1 g.w ++ leBytes 4 g.epoch ++ leBytes 8 g.uid ++
        leBytes 4 g.freeBands.length ++ leBytes 4 g.lost.length ++
        (List.range 24).map (fun i => BitVec.ofNat 8 (if i < g.w then g.bayOf i else 0xFF)) ++
        (List.range 24).map (fun i => BitVec.ofNat 8 (if i < g.w then (g.member i).st.ctorIdx else 0))) s))) ∧
    (s.carries c 0x0406 → owned → ((leAt b 8 2 = 0 ∨ 252 < leAt b 8 2) → no (.grpLostRead c) Code.stRange) ∧
      (leAt b 8 2 ≠ 0 → leAt b 8 2 ≤ 252 → exec (.grpLostRead c) s = .next (answer c Code.stOk 0 (leBytes 4 g.lost.length ++
        leBytes 4 0 ++ (((g.lost.drop (leAt b 4 4)).take (leAt b 8 2)).map lostBytes).flatten) s))) ∧
    (s.carries c 0x0502 → x < 6 → g.formed = true → (leAt b 4 4 ≠ g.epoch → no (.forceTakeover c) Code.stConflict) ∧
      (leAt b 4 4 = g.epoch → g.role.owns = true → no (.forceTakeover c) Code.stMode) ∧
      (leAt b 4 4 = g.epoch → (g.role = .partner ∨ g.role = .fenced) → g.won = false → s.takesRoles = true →
        (s.mbx.jobs.filter Job.running).length < 8 → g.presentBays ≠ [] →
        did (.forceTakeover c) Code.stStarted s.mbx.nextJob [] (fun t => (t.group x).role = .takingOver ∧ (t.group x).won = true ∧
          (t.group x).health = .mounting ∧ g.epoch < (t.group x).epoch ∧ g.known < (t.group x).epoch ∧
          g.promised < (t.group x).epoch))) ∧
    (s.carries c 0x0503 → owned → g.role = .owner → g.hand = none → ((s.partnerReached x = false ∨ s.turnMismatch = true) → no (.handover c) Code.stPeerUnreachable) ∧
      (s.partnerReached x = true → s.turnMismatch = false → did (.handover c) Code.stOk 0 [] (fun t => (t.group x).role = .owner ∧
        ∃ h, (t.group x).hand = some h ∧ h.why = .command)))

/-- PARAM_GET, PARAM_SET with its checks in order and all or nothing, COMMIT, DISCARD, DESCRIBE, SAVE and DEFAULTS -/
def Obligations.ParameterCommandsCheckStageAndCommit : Prop :=
  (∀ (s : State) (c : Nat), c < s.mbx.chans.length →
    let b := s.body c
    let n := leAt b 0 2
    let flags := leAt b 2 1
    let no (cmd : Instr) (st d : Nat) : Prop := exec cmd s = .next (answer c st d [] s)
    let did (cmd : Instr) (body : List Byte) (p : State → Prop) : Prop := ∃ t, exec cmd s = .next (answer c Code.stOk 0 body t) ∧ p t
    let num (i : Nat) : Nat := leAt b (4 + 2 * i) 2
    let value (x : Nat) : Int := match (s.chan c).stage.find? (fun e => e.num == x) with
      | some e => if flags = 1 then e.val else s.shown x
      | none => s.shown x
    (s.carries c 0x0901 → ((n = 0 ∨ 336 < n) → no (.paramGet c) Code.stRange 0) ∧
      (n ≠ 0 → n ≤ 336 → flags ≤ 1 →
        (∀ i, i < n → paramRow (num i) = none → (∀ j, j < i → (paramRow (num j)).isSome = true) → no (.paramGet c) Code.stNoParam i) ∧
        ((∀ i, i < n → (paramRow (num i)).isSome = true) → exec (.paramGet c) s = .next (answer c Code.stOk 0
          ((List.range n).map fun i => leBytes 8 (twos 64 (value (num i))) ++ leBytes 4 (s.paramGen (num i))).flatten s)))) ∧
    (s.carries c 0x0902 → ((n = 0 ∨ 252 < n) → no (.paramSet c) Code.stRange 0) ∧
      let raw (i : Nat) : Nat := leAt b (4 + 16 * i) 2
      let ent (i : Nat) (r : ParamRow) : StageEntry := { num := raw i, val := (if r.type = 5 then ofTwos 64 (leAt b (12 + 16 * i) 8) else (leAt b (12 + 16 * i) 8 : Int)), gen := if flags = 1 then some (leAt b (8 + 16 * i) 4) else none }
      let mayWrite (x : Nat) : Prop := (x / 0x1000 = 8 ∨ x / 0x1000 = 10 ∨ x / 0x100 = 0x11) → 2 ≤ reqPriv (s.chan c).req
      let fails (i st : Nat) : Prop := (paramRow (raw i) = none ∧ st = Code.stNoParam) ∨ ∃ r k, paramRow (raw i) = some (r, k) ∧
        let e := ent i r
        let locked : Prop := r.cls = 3 ∧ s.unlocked e.num = false
        ((¬ mayWrite e.num ∧ st = Code.stPrivilege) ∨ (mayWrite e.num ∧ locked ∧ st = Code.stLocked) ∨
          (mayWrite e.num ∧ ¬ locked ∧ (e.val < r.min ∨ r.max < e.val) ∧ st = Code.stRange) ∨
          (mayWrite e.num ∧ ¬ locked ∧ r.min ≤ e.val ∧ e.val ≤ r.max ∧ (∃ g, e.gen = some g ∧ g ≠ s.paramGen e.num) ∧ st = Code.stConflict))
      (n ≠ 0 → n ≤ 252 → flags ≤ 1 → ∀ i st, i < n → fails i st → (∀ j st', j < i → ¬ fails j st') → no (.paramSet c) st i) ∧
      (n = 1 → flags ≤ 1 → (∀ st, ¬ fails 0 st) → ∀ r k, paramRow (raw 0) = some (r, k) →
        let e := ent 0 r
        (r.cls = 1 → ((s.chan c).stage.filter fun x => x.num != e.num).length < 256 → exec (.paramSet c) s = .next (answer c Code.stOk 0 []
          { s with mbx := { s.mbx with chans := upd s.mbx.chans c fun h => { h with stage := (h.stage.filter fun x => x.num != e.num) ++ [e] } } })) ∧
        (r.cls ≠ 1 → rulesOk (s.withEntries [e]) [e.num] s = false → no (.paramSet c) Code.stRange 0) ∧
        (r.cls = 2 → rulesOk (s.withEntries [e]) [e.num] s = true → s.paramIdle e.num = false → no (.paramSet c) Code.stBusy 0) ∧
        (r.cls ≠ 1 → rulesOk (s.withEntries [e]) [e.num] s = true → (r.cls = 2 → s.paramIdle e.num = true) → did (.paramSet c) []
          (fun t => t.param e.num = e.val ∧ t.paramGen e.num = (s.paramGen e.num + 1) % 2 ^ 32 ∧
            ∀ x, x ≠ e.num → t.param x = s.param x ∧ t.paramGen x = s.paramGen x)))) ∧
    (s.carries c 0x0903 →
      let es := (s.chan c).stage
      let stale : Prop := ∃ e ∈ es, ∃ g, e.gen = some g ∧ g ≠ s.paramGen e.num
      (stale → no (.paramCommit c) Code.stConflict 0) ∧
      (¬ stale → commitOk es s = false → no (.paramCommit c) Code.stRange 0) ∧
      (¬ stale → commitOk es s = true → did (.paramCommit c) (leBytes 8 (s.turnNow + 1) ++ leBytes 2 es.length) (fun t =>
        (t.chan c).stage = [] ∧ (∀ x, t.param x = s.param x) ∧ (es = [] → t = s) ∧
        (es ≠ [] → t.par.commits = s.par.commits ++ [{ entries := es, due := s.turnNow + 1 }]) ∧
        ((es.map StageEntry.num).Nodup →
          ∀ x, t.paramGen x = if x ∈ es.map StageEntry.num then (s.paramGen x + 1) % 2 ^ 32 else s.paramGen x)))) ∧
    (s.carries c 0x0904 → exec (.paramDiscard c) s = .next (answer c Code.stOk 0 []
      { s with mbx := { s.mbx with chans := upd s.mbx.chans c fun h => { h with stage := [] } } })) ∧
    (s.carries c 0x0905 →
      let k := leAt b 2 2
      ((k = 0 ∨ 42 < k ∨ paramTotal ≤ n) → no (.paramDescribe c) Code.stRange 0) ∧
      (k ≠ 0 → k ≤ 42 → n < paramTotal → exec (.paramDescribe c) s = .next (answer c Code.stOk 0 (leBytes 2 paramTotal ++ leBytes 6 0 ++
        (((List.range k).filterMap fun i => paramAt paramRows (n + i)).map fun p => paramEntry p.1 p.2).flatten) s))) ∧
    (s.carries c 0x0906 → (8 ≤ (s.mbx.jobs.filter Job.running).length → no (.paramSave c) Code.stBusy 0) ∧
      ((s.mbx.jobs.filter Job.running).length < 8 → ∃ t j, exec (.paramSave c) s = .next (answer c Code.stStarted s.mbx.nextJob [] t) ∧
        t.mbx.jobs = s.mbx.jobs ++ [j] ∧ j.num = s.mbx.nextJob ∧ j.opcode = 0x0906 ∧ { t with mbx := s.mbx } = s)) ∧
    (s.carries c 0x0907 → exec (.paramDefaults c) s = .next (answer c Code.stOk 0 [] { s with par := { s.par with defaultsMark := true } }))) ∧
  ∀ (s : State) (n : Nat) (j : Job), s.mbx.jobs.find? (fun j => j.num == n && j.running) = some j → j.opcode = 0x0906 → s.ddUp = true →
    s.par.store.length = 2 → ∃ t k, exec (.jobDone n) s = .next t ∧ k ∈ t.par.store ∧ k.valid = true ∧ k.values.map StageEntry.num =
      ((s.par.vals.filter fun v => paramClass v.num != 3).map ParamVal.num) ∧ (∀ x ∈ s.par.store, x.valid = true → x.seq < k.seq) ∧
      t.par.vals = s.par.vals

/-- The firmware commands: sessions and chunks, verification, activation, confirmation, and trials that give up -/
def Obligations.FirmwareSessionsSlotsAndTrials : Prop :=
  (∀ (s : State) (c : Nat), c < s.mbx.chans.length → s.fw.recs.length = 2 → s.fw.recovery = false →
    let b := s.body c
    let run := s.fw.runB
    let st (t : State) (x : Bool) : SlotSt := t.fw.boot.st x
    let no (cmd : Instr) (code : Nat) : Prop := exec cmd s = .next (answer c code 0 [] s)
    let did (cmd : Instr) (code d : Nat) (p : State → Prop) : Prop := ∃ t, exec cmd s = .next (answer c code d [] t) ∧ p t
    let idle : Prop := (s.mbx.jobs.filter Job.running).length < 8
    let mine (x : FwSession) : Prop := s.fw.session = some x ∧ x.chan = c
    (s.carries c 0x0A01 → ((leAt b 0 4 < 65536 ∨ 3145728 < leAt b 0 4) → no (.fwBegin c) Code.stRange) ∧
      (65536 ≤ leAt b 0 4 → leAt b 0 4 ≤ 3145728 → (s.fw.session.isSome = true → no (.fwBegin c) Code.stBusy) ∧
        (s.fw.session = none → idle → did (.fwBegin c) Code.stStarted s.mbx.nextJob (fun t =>
          (∃ x, t.fw.session = some x ∧ x.chan = c ∧ x.len = leAt b 0 4 ∧ x.slotB = !run ∧ x.written = 0) ∧ t.fw.image (!run) = [] ∧
          t.fw.image run = s.fw.image run ∧ st t (!run) = .invalid ∧ st t run = st s run ∧ t.fw.boot.seq = s.fw.boot.seq + 1)))) ∧
    (∀ cmd op, (cmd, op) ∈ [(Instr.fwWrite c, 0x0A02), (.fwVerify c, 0x0A03), (.fwActivate c, 0x0A04)] → s.carries c op →
      ∀ x, s.fw.session = some x → x.chan ≠ c → leAt b 0 1 ≤ 1 → no cmd Code.stBusy) ∧
    (s.carries c 0x0A02 → ∀ x, mine x →
      let off := leAt b 0 4
      let n := leAt b 4 4
      ((n = 0 ∨ 4056 < n) → no (.fwWrite c) Code.stRange) ∧
      (1 ≤ n → n ≤ 4056 → off = x.written → off + n ≤ x.len → did (.fwWrite c) Code.stOk 0 (fun t =>
        t.fw.image x.slotB = s.fw.image x.slotB ++ slice b 8 n ∧ t.fw.image (!x.slotB) = s.fw.image (!x.slotB) ∧
        (∃ y, t.fw.session = some y ∧ y.written = off + n ∧ y.len = x.len ∧ y.chan = c) ∧ t.fw.recs = s.fw.recs)) ∧
      (1 ≤ n → n ≤ 4056 → off ≠ x.written → off = x.lastOff → n = x.lastLen → no (.fwWrite c) Code.stOk) ∧
      (1 ≤ n → n ≤ 4056 → off ≠ x.written → (off ≠ x.lastOff ∨ n ≠ x.lastLen) → no (.fwWrite c) Code.stBadField)) ∧
    (s.carries c 0x0A03 → ∀ x, mine x → idle → ∃ t j, exec (.fwVerify c) s = .next (answer c Code.stStarted s.mbx.nextJob [] t) ∧
      t.mbx.jobs = s.mbx.jobs ++ [j] ∧ j.opcode = 0x0A03 ∧ { t with mbx := s.mbx } = s ∧
      let bad := imageFails s.fuse (s.fw.image x.slotB)
      ((x.written < x.len ∨ bad = some 1 ∨ bad = some 2 ∨ bad = some 3) → j.status = Code.stImageBad) ∧
      (x.len ≤ x.written → bad = some 4 → j.status = Code.stRollback) ∧ (x.len ≤ x.written → bad = none → j.status = Code.stOk)) ∧
    (s.carries c 0x0A04 → (1 < leAt b 0 1 → no (.fwActivate c) Code.stRange) ∧
      (leAt b 0 1 ≤ 1 → (∀ x, s.fw.session = some x → x.chan = c) → (st s (!run) ≠ .standby → no (.fwActivate c) Code.stBadField) ∧
        (st s (!run) = .standby →
          (leAt b 0 1 = 0 → did (.fwActivate c) Code.stOk 0 (fun t => st t (!run) = .trial ∧ t.fw.boot.att (!run) = 0 ∧
            st t run = st s run ∧ t.pins = s.pins ∧ t.groups = s.groups)) ∧
          (leAt b 0 1 = 1 → s.ownedGroups = [] → ∃ t, exec (.fwActivate c) s = .next t ∧ st t (!run) = .trial ∧
            t.pins.ddReset = true ∧ t.fw.reason = 2)))) ∧
    (s.carries c 0x0A05 → ∀ ok, (1 < leAt b 0 1 → no (.fwConfirm c ok) Code.stBadField) ∧
      (leAt b 0 1 = 0 → st s run = .trial → did (.fwConfirm c ok) Code.stOk 0 (fun t => st t run = .active ∧ st t (!run) = .standby ∧
        t.fuse = s.fuse ∧ t.pins = s.pins)) ∧
      (leAt b 0 1 = 1 → st s run = .trial → s.fuse.rollbackCount < imgRollback (s.fw.image run) → did (.fwConfirm c true) Code.stOk 0
        (fun t => st t run = .active ∧ t.fuse.rollback = s.fuse.rollback ||| (2 ^ imgRollback (s.fw.image run) - 1) ∧
          t.fuse.hashes = s.fuse.hashes ∧ t.fuse.root = s.fuse.root))) ∧
    (s.carries c 0x0A06 →
      let slot (x : Bool) : List Byte := leBytes 1 (st s x).ctorIdx ++ padTo 3 (slice (s.fw.image x) 8 3) ++ leBytes 4 0 ++
        leBytes 8 (leAt (s.fw.image x) 16 8)
      exec (.fwStatus c) s = .next (answer c Code.stOk 0 (leBytes 1 (if run then 1 else 0) ++
        leBytes 1 (if s.fw.boot.selected then 1 else 0) ++ leBytes 6 0 ++ slot false ++ slot true ++ leBytes 16 s.fuse.rollbackCount) s)) ∧
    (s.carries c 0x0A07 → s.fw.session.isSome = true →
      exec (.fwAbort c) s = .next (answer c Code.stOk 0 [] { s with fw := { s.fw with session := none } }))) ∧
  (∀ (s : State) (n : Nat) (j : Job) (x : FwSession), s.mbx.jobs.find? (fun j => j.num == n && j.running) = some j → s.ddUp = true →
    j.opcode = 0x0A03 → j.status = Code.stOk → s.fw.session = some x → x.slotB = (j.subject == 1) → s.fw.recs.length = 2 →
    s.canTell → s.mbx.events.length < 8000 →
    ∃ t, exec (.jobDone n) s = .next t ∧ t.fw.boot.st x.slotB = .standby ∧ t.fw.session = none ∧ (∃ e ∈ t.mbx.events, e.code = 0x0A05) ∧
      t.told 0x0A03 0 [(j.num : Int), (j.opcode : Int), (j.status : Int)]) ∧
  ∀ s : State, s.ddUp = true →
    exec .fwSessionIdle s = .next { s with fw := { s.fw with session := none } } ∧
    ((s.fw.boot.st s.fw.runB ≠ .trial ∨ s.fw.recovery = true) → exec .fwTrialTimeout s = .next s) ∧
    (s.fw.boot.st s.fw.runB = .trial → s.fw.recovery = false → s.ownedGroups = [] → s.fw.recs.length = 2 → ∃ t,
      exec .fwTrialTimeout s = .next t ∧ t.pins.ddReset = true ∧ t.fw.reason = 3 ∧ t.fw.trialGaveUp = true ∧
      t.fw.boot.st s.fw.runB = .invalid)

/-- The peer window: commits of the shadow bank, mapped and unmapped BAR4 accesses, and interrupts by MSI-X -/
def Obligations.WindowTranslatesByTheActiveBank : Prop :=
  (∀ s : State, s.ep.dstate = .d0 → s.pins.ddReset = false →
    let ep (f : EpState → EpState) : State := { s with ep := f s.ep }
    let lo (e : WinEntry) : Nat := e.target * 4096
    let hi (e : WinEntry) : Nat := e.target * 4096 + e.len * 4096 - 1
    let inside (e : WinEntry) : Prop := 0x07F00000 ≤ lo e ∧ hi e ≤ 0x07FFFFFF
    let bad (e : WinEntry) : Prop := e.valid = true ∧ (e.len = 0 ∨ 0x07FFFFFF < hi e ∨ ¬ (hi e ≤ 0x00FFFFFF ∨ inside e) ∨
      (e.write = true ∧ (s.paramN 0x1201 ≠ 1 ∨ ¬ inside e)))
    (∀ i, i < 128 → bad (nth s.ep.shadow i) → (∀ j, j < i → ¬ bad (nth s.ep.shadow j)) →
      exec .epWinCommit s = .next (ep fun e => { e with refused := true, errEntry := i })) ∧
    ((∀ i, i < 128 → ¬ bad (nth s.ep.shadow i)) → exec .epWinCommit s = .next (ep fun e => { e with
      active := e.shadow, epoch := (e.epoch + 1) % 2 ^ 16, winPending := e.winPending || e.accessed, accessed := false })) ∧
    exec .winEpochDrain s = .next (ep fun e => { e with winPending := false }) ∧
    (∀ (off len : Nat) (data : List Byte),
      let e := nth s.ep.active (off / 2 ^ 20)
      let at_ := e.target * 4096 + off % 2 ^ 20 - 0x07F00000
      e.valid = true → e.len ≤ 256 → 0x07F00000 ≤ lo e →
      (off % 2 ^ 20 + len ≤ e.len * 4096 → off + len ≤ 2 ^ (22 + s.ep.bar4Code) → ∃ t,
        exec (.bar4Access false off len data) s = .next t ∧ t.out = s.out ++ [.bar4Data (Memory.readN s.ep.exchange at_ len)] ∧
        { t with out := s.out, free := s.free, ep := { t.ep with accessed := s.ep.accessed } } = s) ∧
      (off % 2 ^ 20 + data.length ≤ e.len * 4096 → off + data.length ≤ 2 ^ (22 + s.ep.bar4Code) → e.write = true → s.paramN 0x1201 = 1 →
        s.ep.exchange.wf = true → ∃ t, exec (.bar4Access true off len data) s = .next t ∧
        (∀ a, Memory.read t.ep.exchange a = if at_ ≤ a ∧ a < at_ + data.length then nth data (a - at_) else Memory.read s.ep.exchange a) ∧
        { t with ep := { t.ep with accessed := s.ep.accessed, exchange := s.ep.exchange } } = s)) ∧
    ∀ (w : Bool) (off len : Nat) (data : List Byte),
      let n := if w then data.length else len
      (∃ i, i < n ∧ let e := nth s.ep.active ((off + i) / 2 ^ 20)
        (2 ^ (22 + s.ep.bar4Code) ≤ off + i ∨ e.valid = false ∨ e.len * 4096 ≤ (off + i) % 2 ^ 20 ∨
          (w = true ∧ (e.write = false ∨ s.paramN 0x1201 ≠ 1)))) →
      ∃ t, exec (.bar4Access w off len data) s = .next t ∧ t.hush s = s ∧ t.ep.exchange = s.ep.exchange ∧
        t.ep.errCount = min 0xFFFFFFFF (s.ep.errCount + 1) ∧ t.ep.evt.testBit 0 = true ∧ t.ep.active = s.ep.active ∧
        (s.ep.evt.testBit 0 = false → t.ep.errAddr = off ∧ t.ep.errWrite = w) ∧
        (s.ep.evt.testBit 0 = true → t.ep.errAddr = s.ep.errAddr ∧ t.ep.errWrite = s.ep.errWrite) ∧
        (w = false → t.out.getLast? = some (.bar4Ur off) ∧ t.ep.cfg.advisory = true) ∧ (s.ep.faultTold = none → s.canTell → t.told 0x0B04 0 [])) ∧
  (∀ (s : State) (off len : Nat) (data : List Byte),
    (s.pins.ddReset = false → s.ep.dstate = .d3hot → exec (.bar4Access false off len data) s = .next { s with out := s.out ++ [.bar4Ur off] } ∧
      exec (.bar4Access true off len data) s = .next s) ∧
    ((s.ep.dstate = .d3cold ∨ s.pins.ddReset = true) → ∀ w, exec (.bar4Access w off len data) s = .next s)) ∧
  ∀ s : State,
    let held : Prop := s.ep.cfg.funcMask = true ∨ s.ep.cfg.msixEn = false ∨ s.ep.dstate = .d3hot
    (∀ q, (8 ≤ q ∨ s.ep.dmaPaused = true) → exec (.dmaDescDone q) s = .next s) ∧
    (∀ q, q < 8 → s.ep.dmaPaused = false → s.ep.dstate ≠ .d3cold →
      let v := nth s.ep.irqMap (66 + q)
      let m := nth s.ep.msix v
      let done := Output.dmaDone q true (s.ep.roEn.testBit q)
      ((held ∨ m.mask = true) → exec (.dmaDescDone q) s = .next { s with
        ep := { s.ep with msix := upd s.ep.msix v fun e => { e with pending := true } }, out := s.out ++ [done] }) ∧
      (¬ held → m.mask = false →
        exec (.dmaDescDone q) s = .next { s with out := s.out ++ [done, .msix v m.addr m.data] })) ∧
    ∀ v, v < 64 → s.ep.msix.length = 64 → s.ep.dstate = .d0 → (∀ i, i < 64 → i ≠ v → (nth s.ep.msix i).pending = false) →
      let m := nth s.ep.msix v
      (m.pending = false → exec (.msixUnmask v) s =
        .next { s with ep := { s.ep with msix := upd s.ep.msix v fun e => { e with mask := false } } }) ∧
      (m.pending = true → ¬ held → exec (.msixUnmask v) s = .next { s with
        ep := { s.ep with msix := upd s.ep.msix v fun e => { e with mask := false, pending := false } },
        out := s.out ++ [.msix v m.addr m.data] })

/-- Endpoint resets, readiness, power states, link changes, configuration requests, and host accesses outside D0 -/
def Obligations.EndpointResetsPowerAndConfiguration : Prop :=
  (∀ s : State, s.pins.ddReset = false → s.mbx.chans.any Chan.waiting = false →
    let reset (cmd : Instr) (kind : Int) (p : EpState → Prop) : Prop := ∃ t, exec cmd s = .next t ∧ t.told 0x0B03 0 [kind] ∧ t.hush s = s ∧
      t.mbx.chans = s.mbx.chans ∧ t.mbx.bar2 = s.mbx.bar2 ∧ t.ep.shadow = List.replicate 128 {} ∧ t.ep.active = List.replicate 128 {} ∧
      t.ep.epoch = 0 ∧ t.ep.cfg = {} ∧ t.ep.exchange = s.ep.exchange ∧ (s.ep.bar4Held = true → t.ep.bar4Code = s.ep.bar4Code) ∧ Output.dmaAbandoned ∈ t.out ∧ p t.ep
    (s.ep.evt < 8 → s.paramN 0x1202 = 0 →
      reset .epPerstAssert 0 (fun e => e.perst = true ∧ e.cfgReady = false ∧ e.linkUp = false ∧ e.evt.testBit 1 = true) ∧
      reset .epHotReset 1 (fun e => e.linkUp = false ∧ e.dstate = .d0 ∧ e.evt.testBit 1 = true ∧
        e.cfgReady = (s.ddUp && !s.ep.perst)) ∧
      reset .epFlr 2 (fun e => e.linkUp = s.ep.linkUp ∧ e.speed = s.ep.speed ∧ e.width = s.ep.width ∧ e.cfgReady = s.ep.cfgReady)) ∧
    (s.ep.linkUp = false → exec .epLinkDown s = .next s) ∧
    (s.ep.linkUp = true → ∃ t, exec .epLinkDown s = .next t ∧ t.told 0x0B02 0 [] ∧ t.hush s = s ∧ t.ep.linkUp = false ∧ t.ep.dmaPaused = true ∧
      t.ep.active = s.ep.active ∧ t.ep.epoch = s.ep.epoch) ∧
    ∀ g w, ((s.ep.perst = true ∨ s.ep.dstate = .d3cold) → exec (.epLinkUp g w) s = .next s) ∧
      (s.ep.perst = false → s.ep.dstate ≠ .d3cold → ∃ t, exec (.epLinkUp g w) s = .next t ∧ t.told 0x0B01 0 [(g : Int), (w : Int)] ∧ t.hush s = s ∧ t.ep.linkUp = true ∧
      t.ep.speed = g ∧ t.ep.width = w)) ∧
  (∀ s : State,
    let ep (f : EpState → EpState) : State := { s with ep := f s.ep }
    (s.ep.dstate ≠ .d3cold → ∃ t, exec .epPerstDeassert s = .next t ∧ t.ep.perst = false ∧ t.ep.wakeLow = false ∧ t.ep.dstate = .d0 ∧
      (s.ddUp = true → t.ep.cfgReady = true) ∧ (s.ddUp = false → t.ep.cfgReady = s.ep.cfgReady) ∧ t.ep.active = s.ep.active ∧
      { t with ep := s.ep } = s) ∧
    ((s.ep.perst = true ∨ s.ep.cfgReady = true) → exec .epCfgReadyTimeout s = .next s) ∧
    (s.pins.ddReset = false → s.ep.perst = false → s.ep.cfgReady = false → ∃ code, exec .epCfgReadyTimeout s =
        .next (ep fun e => { e with cfgReady := true, bar4Held := true, bar4Code := code }) ∧
      (s.ep.bar4Held = true → code = s.ep.bar4Code) ∧ (s.ep.bar4Held = false →
        (s.fuse.otpField 2 12 1 = none → code = 2) ∧ (∀ v, s.fuse.otpField 2 12 1 = some v → v ≤ 5 → code = v))) ∧
    (∀ q, (s.ep.linkUp = true ∨ 8 ≤ q) → exec (.dmaReadTimeout q) s = .next s) ∧
    (∀ q, q < 8 → s.ep.linkUp = false → s.ep.dmaPaused = true →
      exec (.dmaReadTimeout q) s = .next { s with out := s.out ++ [.dmaDone q false (s.ep.roEn.testBit q)] }) ∧
    (s.ep.dstate = .d0 → exec .epD3hotEntry s = .next (ep fun e => { e with dstate := .d3hot, dmaPaused := true }) ∧
      exec .epD0Return s = .next s) ∧
    (s.ep.dstate = .d3hot → exec .epD3hotEntry s = .next s ∧ ((∀ v, v < 64 → (nth s.ep.msix v).pending = false) →
      exec .epD0Return s = .next (ep fun e => { e with dstate := .d0, dmaPaused := !e.linkUp }))) ∧
    (∃ t, exec .epD3coldEntry s = .next t ∧ t.ep.dstate = .d3cold ∧ t.ep.linkUp = false ∧ t.ep.pmeAtCold = s.ep.cfg.pmeEn ∧
      t.out = s.out ++ [.dmaAbandoned] ∧ { t with ep := s.ep, out := s.out } = s) ∧
    exec (.pmeTurnOff false) s = .next { s with out := s.out ++ [.pmeToAck] } ∧
    exec (.pmeTurnOff true) s = .next { s with out := s.out ++ [.dmaAbandoned, .pmeToAck] } ∧
    ((s.pins.ddReset = true ∨ s.ep.dstate = .d3cold) → ∀ w r v, exec (.configRequest w r v) s = .next s) ∧
    (s.pins.ddReset = false → s.ep.dstate ≠ .d3cold → s.ep.cfgReady = false → ∀ w r v, exec (.configRequest w r v) s = .next { s with out := s.out ++ [.cfg 1 0] }) ∧
    (s.pins.ddReset = false → s.ep.dstate ≠ .d3cold → s.ep.cfgReady = true →
      (∀ v, exec (.configRequest false (.header 0) v) s = .next { s with out := s.out ++ [.cfg 0 0x24001F8C], free := s.free + 1 }) ∧
      (∀ v, exec (.configRequest false (.header 8) v) s = .next { s with out := s.out ++ [.cfg 0 0x058000B0], free := s.free + 1 }) ∧
      (∃ t, exec (.configRequest true (.header 0x10) 0xFFFFFFFF) s = .next t ∧ cfgRead (.header 0x10) t = 0xFFF00004 ∧
        t.ep.cfg.bar2 = s.ep.cfg.bar2 ∧ t.ep.cfg.bar4 = s.ep.cfg.bar4) ∧
      (s.ep.dstate = .d0 → ∃ t, exec (.configRequest true .pmcsr 3) s = .next t ∧ t.ep.dstate = .d3hot ∧ t.ep.dmaPaused = true) ∧
      (s.ep.dstate = .d3hot → ∃ t, exec (.configRequest true .pmcsr 0) s = .next t ∧ t.ep.dstate = .d0) ∧
      (s.ep.dstate = .d0 → ∀ d, (d = 1 ∨ d = 2) → ∃ t, exec (.configRequest true .pmcsr d) s = .next t ∧ t.ep.dstate = .d0)) ∧
    (s.ep.dstate ≠ .d0 → ∀ (n m : Nat) (en : Bool) (data : List Byte), ∀ cmd ∈ [Instr.registerWrite n data, .timeCfgWrite n, .todLoad,
        .baylnkRetrain n, .baylnkHold n en, .netPortEnable n en, .mirrorReset, .netCommit, .mbxDoorbell n, .mbxAck n,
        .bar2AreaWrite m data, .epWinCommit, .msixUnmask n], exec cmd s = .next s) ∧
    (s.ep.dstate = .d3hot → ∀ (cmd : Instr) (off : Nat), (cmd, off) ∈ [(Instr.timeNowRead, 0x00020010), (.evtHeadRead, 0x000C0000)] →
      exec cmd s = .next { s with out := s.out ++ [.bar0Ur off] }) ∧
    (s.ep.dstate = .d3hot → ∀ a n, exec (.mirroredRead { off := a, len := n }) s = .next { s with out := s.out ++ [.bar0Ur a] }))

/-- A bay power channel's moves by its presence pins, its timers, the ramp, power-good and the on, off, cycle and clear
commands -/
def Obligations.BayChannelMovesByPresenceTimersAndCommands : Prop :=
  ∀ (s : State) (x : Nat), x < 24 → s.pwr.chans.length = 24 →
    let c := s.pchan x
    let tick := s.aonTick
    let n := if c.breaker then c.timer + (tick - c.timerAt) else c.timer - (tick - c.timerAt) / 16
    let off (d : PwrChan) (st : PwrSt) : PwrChan :=
      { d with st := st, hsOn := false, orOn := false, enhancing := false, breaker := false, limit := false, pg := false,
               evt := if d.pg then setBit d.evt 1 else d.evt, timer := n, timerAt := tick }
    let mayOr (d : PwrChan) : Bool := match d.samples.getLast? with | some y => decide (y.vout ≤ y.vch) | none => true
    let ramp (d : PwrChan) : PwrChan := { d with st := .ramp, hsOn := true, orOn := mayOr d, enhancing := false, offDone := false }
    let auto : Bool := decide (s.paramN 0x9001 = 1) && s.pwr.loaded && !s.islandHolds
    let start (go : Bool) (d : PwrChan) : PwrChan := if d.st = .seated ∧ go = true then ramp d else d
    let place (d : PwrChan) : PwrChan := { d with st := if d.long = false then .empty else if d.stable = false then .detected else .seated }
    let put (d : PwrChan) : State := { s with pwr := { s.pwr with chans := upd s.pwr.chans x fun _ => d } }
    let again (t : State) : State := { t with flash := { t.flash with bays := upd t.flash.bays x fun b => { b with stopped := false, attempts := 0 } } }
    let goes (cmd : Instr) (d : PwrChan) : Prop := exec cmd s = .next (put d)
    let in_ : PwrChan := { c with long := true, evt := setBit c.evt 2 }
    let out_ : PwrChan := { c with long := false, stable := false, evt := setBit c.evt 2 }
    let low : PwrChan := { c with short := true, evt := setBit c.evt 2 }
    let high : PwrChan := { c with short := false, stable := false, evt := setBit c.evt 2 }
    let lost : PwrChan := if c.st = .seated ∨ c.st = .faultOff then { high with st := .detected } else if c.st = .ramp then off high .detected
      else if c.st = .on then { high with st := .unseating } else high
    goes (.prslChange x true) (if c.st = .empty then { in_ with st := .detected } else in_) ∧
    goes (.prslChange x false) (if c.st = .disabled ∨ (c.st = .latched ∧ c.byFet = true) then out_
      else { off out_ .empty with retries := 0, offDone := false }) ∧
    exec (.prssChange x true) s = .next (let t := put (if c.st = .unseating then { low with st := .on } else low)
      if c.short = true then t else again t) ∧
    (c.short = false → goes (.prssChange x false) lost) ∧
    (c.short = true → ∃ t, exec (.bayLinkDown x) (again (put lost)) = .next t ∧ exec (.prssChange x false) s = .next t) ∧
    goes (.seatTimer x) (if c.long = true ∧ c.short = true then
      (if c.st = .detected then start auto { c with stable := true, st := .seated } else { c with stable := true }) else c) ∧
    goes (.unseatTimer x) (if c.st = .unseating ∧ c.short = false then off c .detected else c) ∧
    (∀ v, goes (.rampComplete x v) (if c.st = .ramp then { c with enhancing := true, orOn := v } else c)) ∧
    goes (.gateEnhanced x) (if c.st = .ramp ∧ c.enhancing = true then { c with st := .on } else c) ∧
    (∀ b l, goes (.breakerCrossing x b l) (if b = c.breaker then { c with limit := l }
      else { c with breaker := b, limit := l, timer := if b = true then n + 1 else n - 1, timerAt := tick })) ∧
    (∀ mv, goes (.powerGoodAssert x mv) (if c.st = .on ∧ s.paramN 0x9007 + 100 ≤ mv ∧ n = 0 ∧ c.breaker = false then { c with pg := true } else c)) ∧
    goes (.pgUndervolt x) { c with pg := false, evt := if c.pg then setBit c.evt 1 else c.evt } ∧
    goes (.retryOfftimeExpiry x) (if c.st = .faultOff then
      (if c.tj < (s.param 0x900B - 20) * 1000000000 then { ramp c with retries := min 7 (c.retries + 1) } else { c with offDone := true }) else c) ∧
    goes (.retryCountReset x) (if c.st = .on ∧ c.pg = true then { c with retries := 0 } else c) ∧
    goes (.baypwrOn x) (if c.st = .seated then start (!s.islandHolds) c else if c.st = .faultOff then { c with retries := 0 }
      else if c.st = .disabled ∨ (c.st = .latched ∧ c.byFet = false) then start (!s.islandHolds) { place c with retries := 0 } else c) ∧
    goes (.baypwrOff x) (if c.st = .empty ∨ c.st = .latched then c else { off c .disabled with offBy := .command }) ∧
    goes (.baypwrCycle x) (if c.st = .on then { off c .disabled with offBy := .cycle } else c) ∧
    goes (.cycleReturn x) (if c.st = .disabled ∧ c.offBy = .cycle then start auto (place c) else c) ∧
    goes (.baypwrClear x) (if c.st = .latched ∧ c.byFet = false then start auto { place c with retries := 0 } else c) ∧
    goes (.bayOrReverse x) (if c.orOn = true then { c with orOn := false, evt := setBit c.evt 5 } else c)

/-- Trips of a bay channel, the FET model, damaged FETs, and the two feeds -/
def Obligations.TripsLatchesAndFeeds : Prop :=
  (∀ (s : State) (x : Nat), x < 24 → s.pwr.chans.length = 24 →
    let c := s.pchan x
    let on : Prop := c.st = .ramp ∨ c.st = .on ∨ c.st = .unseating
    let last : Prop := s.paramN 0x9008 ≤ c.retries
    let wrote (t : State) (fc : Nat) (d : List Int) : Prop := ∃ e ∈ t.bbx.queue, e.code = fc ∧ e.kind = 2 ∧ e.subject = x ∧ e.detail = d
    let alone (t : State) : Prop := { t.hush s with pwr := s.pwr } = s ∧ { t.pwr with chans := s.pwr.chans } = s.pwr ∧
      ∀ y, y ≠ x → t.pchan y = s.pchan y
    let n := if c.breaker then c.timer + (s.aonTick - c.timerAt) else c.timer - (s.aonTick - c.timerAt) / 16
    let full : Prop := c.breaker = true ∨ s.paramN 0x9005 * 16 ≤ n
    let tripped (cmd : Instr) (fc : Nat) (d : List Int) : Prop := ∃ t, exec cmd s = .next t ∧ alone t ∧ wrote t fc d ∧
      (t.pchan x).hsOn = false ∧ (t.pchan x).orOn = false ∧ (t.pchan x).pg = false ∧ (t.pchan x).evt.testBit 0 = true ∧
      (t.pchan x).retries = c.retries ∧
      (¬ last → (t.pchan x).st = .faultOff ∧ (t.pchan x).lastFc = fc ∧ (c.faultTold = none → s.canTell → t.told 0x0C01 x [fc, c.retries])) ∧
      (last → (t.pchan x).st = .latched ∧ (t.pchan x).byFet = false ∧ (t.pchan x).evt.testBit 3 = true ∧ wrote t 0x0C17 [] ∧
        (s.canTell → t.told 0x0C02 x []))
    (c.st = .ramp → c.enhancing = false → tripped (.rampTimeout x) 0x0C15 []) ∧
    (¬ (c.st = .ramp ∧ c.enhancing = false) → exec (.rampTimeout x) s = .next s) ∧
    (c.st = .ramp → tripped (.fastTrip x) 0x0C12 [1] ∧ ∀ ma, full → tripped (.faultTimerExpiry x ma) 0x0C12 [0]) ∧
    ((c.st = .on ∨ c.st = .unseating) → tripped (.fastTrip x) 0x0C13 [] ∧ ∀ ma : Nat, full → tripped (.faultTimerExpiry x ma) 0x0C11 [ma]) ∧
    (¬ on → exec (.fastTrip x) s = .next s ∧ ∀ ma, exec (.faultTimerExpiry x ma) s = .next s) ∧
    (∀ ma, ¬ full → exec (.faultTimerExpiry x ma) s = .next s) ∧
    ((c.hsOn = true ∨ (c.st = .latched ∧ c.byFet = true)) → ∀ near, exec (.fetDamageDetect x near) s = .next s) ∧
    (c.hsOn = false → ¬ (c.st = .latched ∧ c.byFet = true) → ∀ near, ∃ t, exec (.fetDamageDetect x near) s = .next t ∧ alone t ∧
      wrote t 0x0C16 [if near = true then 1 else 0] ∧ (s.canTell → t.told 0x0C03 x []) ∧ (t.pchan x).st = .latched ∧
      (t.pchan x).byFet = true ∧ (t.pchan x).orOn = false ∧ (t.pchan x).evt.testBit 4 = true) ∧
    ∀ q : Payload.Telemetry,
      let p : Int := q.ma * ((q.vSnsn : Int) - q.vch)
      let dt1 := c.dt1 + (p * s.param 0x9012 - c.dt1) * 128 / s.param 0x9013
      let dt2 := c.dt2 + (p * s.param 0x9014 - c.dt2) * 128 / (s.param 0x9015 * 1000)
      let noDiode := q.powerDie * 125000000 + s.param 0x9016 * 1000000000 + dt1 + dt2
      let fitted : Prop := s.paramN 0x9011 = 1 ∧ c.diodeBad = false
      let tj := if fitted then (match q.diode with | some d => d * 125000000 + dt1 | none => noDiode) else noDiode
      ∃ t, exec (.thermalSample x q) s = .next t ∧ { t.hush s with pwr := s.pwr } = s ∧ (∀ y, y ≠ x → t.pchan y = s.pchan y) ∧
        { t.pwr with chans := s.pwr.chans } = (match q.feeds with
          | some f => { s.pwr with collapse := s.pwr.collapse && decide (f.2.2 < s.paramN 0x9020)
                                   feedSamples := (s.pwr.feedSamples ++ [f]).drop (s.pwr.feedSamples.length + 1 - 8) }
          | none => s.pwr) ∧
        (t.pchan x).dt1 = dt1 ∧ (t.pchan x).dt2 = dt2 ∧ (t.pchan x).tj = tj ∧ (t.pchan x).energy = c.energy + (q.ma * q.vout * 128).toNat ∧
        (t.pchan x).samples = (c.samples ++ [({ ma := q.ma, vch := q.vch, vout := q.vout } : Sample)]).drop (c.samples.length + 1 - 8) ∧
        (fitted → q.diode = none → wrote t 0x0C18 [] ∧ (t.pchan x).diodeBad = true) ∧
        (on → s.param 0x900B * 1000000000 < tj → (¬ last → (t.pchan x).st = .faultOff) ∧ (last → (t.pchan x).st = .latched) ∧
          (t.pchan x).hsOn = false ∧ (t.pchan x).pg = false ∧ wrote t 0x0C14 [tj / 1000000000] ∧ (c.st = .ramp → wrote t 0x0C12 [2])) ∧
        (on → tj ≤ s.param 0x900B * 1000000000 → (t.pchan x).st = c.st ∧ (t.pchan x).pg = c.pg ∧
          (t.pchan x).orOn = decide ((q.vout : Int) ≤ q.vch)) ∧
        (c.st = .faultOff → (t.pchan x).st = if c.offDone = true ∧ tj < (s.param 0x900B - 20) * 1000000000 then .ramp else .faultOff)) ∧
  ∀ (s : State) (b : Bool) (mv bus : Nat),
    let f := s.feed b
    let o := s.feed (!b)
    let i := if b = true then 1 else 0
    let seen (s : State) : State := { s with pwr := { s.pwr with collapse := s.pwr.collapse && decide (bus < s.paramN 0x9020) } }
    let put (s : State) (st : FeedSt) : State := s.setFeed b { st := st }
    let happened (s : State) (i : Nat) : State := { s with pwr := { s.pwr with feedEvt := setBit s.pwr.feedEvt i } }
    let told (cmd : Instr) (code : Nat) (u : State) : Prop := ∃ t, exec cmd s = .next t ∧ t.hush s = u ∧ (s.canTell → t.told code i [])
    exec (.feedOringOn b mv bus) s = .next (put (seen s) (if f.st = .idle ∧ bus + 30 ≤ mv then .conducting else f.st)) ∧
    exec (.feedReverseOff b mv bus) s = .next (if f.st = .conducting ∧ mv + 15 ≤ bus then happened (put (seen s) .reverseOff) 1
      else put (seen s) f.st) ∧
    (f.st = .reverseOff → bus + 30 ≤ mv → told (.feedRearm b mv bus) 0x0C05 (put (seen s) .conducting)) ∧
    (¬ (f.st = .reverseOff ∧ bus + 30 ≤ mv) → exec (.feedRearm b mv bus) s = .next (put (seen s) f.st)) ∧
    (f.st = .absent → s.paramN 0x9021 ≤ mv →
      told (.feedRestored b mv bus) 0x0C05 (put (seen s) (if bus + 30 ≤ mv then .conducting else .idle))) ∧
    (¬ (f.st = .absent ∧ s.paramN 0x9021 ≤ mv) → exec (.feedRestored b mv bus) s = .next s) ∧
    (f.st = .ovOff → mv + 200 ≤ s.paramN 0x9022 → told (.feedOvRecover b mv bus) 0x0C05 (put (seen s) .conducting)) ∧
    (¬ (f.st = .ovOff ∧ mv + 200 ≤ s.paramN 0x9022) → exec (.feedOvRecover b mv bus) s = .next s) ∧
    (s.paramN 0x9022 < mv → f.st ≠ .ovOff → ∃ t, exec (.feedOvOff b mv) s = .next t ∧ t.hush s = happened (put s .ovOff) 2 ∧
      ∃ e ∈ t.bbx.queue, e.code = 0x0C1A ∧ e.subject = i) ∧
    (¬ (s.paramN 0x9022 < mv ∧ f.st ≠ .ovOff) → exec (.feedOvOff b mv) s = .next s) ∧
    (f.st ≠ .absent → mv < s.paramN 0x9021 → o.st = .conducting → told (.feedAbsent b mv) 0x0C04 (happened (put s .absent) 0)) ∧
    (f.st ≠ .absent → mv < s.paramN 0x9021 → o.st = .absent →
      let u := happened (put s .absent) 0
      let away := { u with mode := { u.mode with entering := some .island, byFeedLoss := true, toHand := [] } }
      let supply : Prop := s.mode.aux = true ∨ s.mode.poe = true
      (s.mode.mode = .island → s.mode.entering = none → exec (.feedAbsent b mv) s = .next u) ∧
      (¬ (s.mode.mode = .island ∧ s.mode.entering = none) →
        (¬ supply → ∃ t, exec .pwrfailNFall u = .next t ∧ exec (.feedAbsent b mv) s = .next t) ∧
        (supply → s.ddUp = true → ¬ (s.flush.active = true ∧ s.flush.before.isSome = true) → ∃ t, exec .pwrfailNFall away = .next t ∧ exec (.feedAbsent b mv) s = .next t) ∧
        (supply → (s.ddUp = false ∨ (s.flush.active = true ∧ s.flush.before.isSome = true)) → ∃ t, exec (.feedAbsent b mv) s = .next t ∧ (t.feed b).st = .absent ∧ t.mode.entering = some .island ∧
          t.mode.byFeedLoss = true ∧ t.pins.mainEn = false ∧ t.pins.ddReset = true))) ∧
    (¬ (f.st ≠ .absent ∧ mv < s.paramN 0x9021) → exec (.feedAbsent b mv) s = .next s) ∧
    (s.paramN 0x9020 ≤ bus → exec (.feedCollapse bus) s = .next s) ∧
    (bus < s.paramN 0x9020 → ∃ u t, exec (.feedCollapse bus) s = .next t ∧ exec .pwrfailNFall u = .next t ∧
      (∃ e ∈ u.bbx.queue, e.code = 0x0C19) ∧ (s.canTell → u.told 0x0C06 0 []) ∧
      u.hush s = { s with pwr := { s.pwr with collapse := true, feedEvt := setBit s.pwr.feedEvt 3,
                                              collapseTold := s.pwr.collapseTold && !s.pins.ddReset } })

/-- MODE_REQUEST, the other mode commands, causes of CONTAINED, wakes and their latch, ISLAND reached and left -/
def Obligations.ModesWakesAndContained : Prop :=
  (∀ (s : State) (c : Nat), c < s.mbx.chans.length →
    let b := s.body c
    let m := s.mode
    let no (cmd : Instr) (st : Nat) : Prop := exec cmd s = .next (answer c st 0 [] s)
    let tg := leAt b 0 1
    let moved (p : State → Prop) : Prop := ∃ t, exec (.modeRequest c) s = .next t ∧ p t
    (s.carries c 0x0701 → exec (.modeStatus c) s = .next (answer c Code.stOk 0 (leBytes 1 m.mode.ctorIdx ++
      leBytes 1 (match m.entering with | none => 0 | some e => e.ctorIdx + 1) ++ leBytes 1 (if m.hold = true then 1 else 0) ++ leBytes 1 m.cause ++
      leBytes 1 m.latch ++ leBytes 1 m.last ++ leBytes 2 0 ++ leBytes 8 m.lastEntry ++ leBytes 2 m.avsTarget ++ leBytes 2 m.avsAcked) s)) ∧
    (s.carries c 0x0704 → exec (.islandTime c) s = .next (answer c Code.stOk 0 (leBytes 8 s.island ++ leBytes 8 m.ce ++ leBytes 8 m.cd ++
      leBytes 8 m.te ++ leBytes 8 m.ei ++ leBytes 4 m.uncUs ++ leBytes 8 (twos 64 m.ef) ++
      leBytes 1 ((if m.cntValid = true then 1 else 0) + (if m.efUsed = true then 2 else 0) + (if m.unknown = true then 4 else 0))) s)) ∧
    (s.carries c 0x0703 → ((15 < leAt b 1 1 ∨ 15 < leAt b 2 1 ∨ 2 ^ 48 ≤ leAt b 8 8) → no (.wakeConfig c) Code.stRange) ∧
      (leAt b 1 1 ≤ 15 → leAt b 2 1 ≤ 15 → leAt b 8 8 < 2 ^ 48 → ∃ t, exec (.wakeConfig c) s = .next (answer c Code.stOk 0 [] t) ∧
        t.paramN 0x9201 = leAt b 0 1 ∧ t.paramN 0x9202 = leAt b 1 1 ∧ t.paramN 0x9203 = leAt b 2 1 ∧ t.mode = { m with alarm := leAt b 8 8 } ∧
        t.groups = s.groups)) ∧
    (s.carries c 0x0702 →
      let serving : Prop := m.mode = .standby ∨ m.mode = .owner ∨ m.mode = .partner
      let free : Prop := m.entering = none ∧ m.resetAfter = none
      let level : Prop := ∃ i, i < 4 ∧ (s.paramN 0x9203).testBit i = true ∧ (s.paramN 0x9201).testBit i = true ∧
        m.wakeIn.testBit i = (s.paramN 0x9202).testBit i
      ((tg = 3 ∨ 5 < tg) → no (.modeRequest c) Code.stRange) ∧
      (tg ≠ 3 → tg ≤ 5 → ¬ free → no (.modeRequest c) Code.stBusy) ∧
      (free → tg = 5 → ¬ (m.mode = .standby ∧ s.sys.prov = true ∧ s.fuse.lifecycle ≤ 1) → no (.modeRequest c) Code.stLocked) ∧
      (free → tg = 0 → ¬ serving → no (.modeRequest c) Code.stMode) ∧
      (free → tg = 0 → serving → level → no (.modeRequest c) Code.stBusy) ∧
      (free → (tg = 1 ∨ tg = 2 ∨ tg = 4) → m.mode = .contained → no (.modeRequest c) Code.stMode) ∧
      (free → (tg = 2 ∨ tg = 4) → m.mode = .provision → no (.modeRequest c) Code.stMode) ∧
      (free → tg = 5 → m.mode = .standby → s.sys.prov = true → s.fuse.lifecycle ≤ 1 →
        moved fun t => t.mode.mode = .provision ∧ t.mode.entering = none) ∧
      (free → tg = 4 → serving → s.ownedGroups = [] → moved fun t => t.mode.mode = .contained ∧ t.mode.cause = 7) ∧
      (free → tg = 0 → serving → ¬ level → s.groups = List.replicate 6 {} → moved fun t => t.mode.entering = some .island ∧
        t.pins.mainEn = false ∧ t.pins.ddReset = true ∧ t.mode.te = s.aonStamp ∧ t.mode.ce = s.island ∧
        ∀ x, x < 24 → x < s.pwr.chans.length → (t.pchan x).hsOn = true → (s.pchan x).st = .empty ∨ (s.pchan x).st = .latched ∨ (s.pchan x).st = .disabled) ∧
      (free → tg = 1 → (m.mode = .standby ∨ m.mode = .provision) → moved fun t => t.mode.hold = true ∧ t.mode.mode = .standby ∧ t.groups = s.groups) ∧
      (free → tg = 2 → serving → moved fun t => t.mode.hold = false ∧ t.groups = s.groups ∧ t.mode.entering = none))) ∧
  (∀ (s : State) (cmd : Instr) (cause : Nat),
    (cmd, cause) ∈ [(.sramEccError 0, 2), (.sramEccError 1, 2), (.sramEccError 2, 2), (.dramEccError 0, 3), (.dramEccError 1, 3),
      (.invariantBreak, 4), (.dieCriticalTemp, 6)] →
    let may : Prop := s.ddUp = true ∧ (s.mode.entering ≠ none ∨ s.mode.mode = .standby ∨ s.mode.mode = .owner ∨ s.mode.mode = .partner)
    (¬ may → exec cmd s = .next s) ∧
    (may → ∃ t, exec cmd s = .next t ∧ t.mode.mode = .contained ∧ t.mode.cause = cause ∧ t.mode.entering = none ∧
      (s.ownedGroups = [] → t.scrim.contained = true ∧ t.groups = s.groups ∧ ∃ e ∈ t.bbx.queue, e.code = 0x0D12 ∧ e.detail = [(cause : Int)]))) ∧
  ∀ s : State,
    let md (m : ModeState) : State := { s with mode := m }
    let pins (p : PinState) : State := { s with pins := p }
    (∀ r, (3 ≤ r → exec (.sramEccError r) s = .next s) ∧ (2 ≤ r → exec (.dramEccError r) s = .next s)) ∧
    (∀ tc, ((s.pins.mainEn = false ∨ tc ≤ 125) → exec (.dieOvertempShutdown tc) s = .next s) ∧
      (s.pins.mainEn = true → 125 < tc → ∃ t, exec (.dieOvertempShutdown tc) s = .next t ∧ t.mode.entering = some .island ∧ t.pins.mainEn = false ∧
        t.pins.ddReset = true ∧ t.pins.overtempHold = true ∧ t.mode.latch = 0 ∧ ∃ e ∈ t.bbx.queue, e.code = 0x0F13 ∧ e.detail = [(tc : Int)])) ∧
    exec .overtempWakeHoldEnd s = .next (pins { s.pins with overtempHold := false }) ∧
    (∀ mask, exec (.wakeLatchClear mask) s = .next (md { s.mode with latch := w1c s.mode.latch mask % 256 })) ∧
    (let due : Prop := s.island = s.mode.alarm ∧ (s.paramN 0x9201).testBit 6 = true ∧ s.pins.overtempHold = false
     (¬ due → exec .islandAlarm s = .next s) ∧
     (due → s.mode.entering ≠ none → exec .islandAlarm s = .next (md { s.mode with latch := s.mode.latch ||| 64 })) ∧
     (due → s.mode.entering = none → exec .islandAlarm s = .next (md { s.mode with
       latch := if s.mode.mode = .island then s.mode.latch ||| 64 else 0, last := s.mode.latch ||| 64, replayed := false }))) ∧
    (∀ levels,
      let active (l i : Nat) : Prop := l.testBit i = (s.paramN 0x9202).testBit i
      let fires (i : Nat) : Prop := i < 4 ∧ active levels i ∧ (s.paramN 0x9201).testBit i = true ∧
        (if (s.paramN 0x9203).testBit i = true then s.mode.levelHeld.testBit i = false else ¬ active s.mode.wakeIn i)
      ∃ t, exec (.wakeInputQualify levels) s = .next t ∧ t.mode.wakeIn = levels % 16 ∧ { t with mode := s.mode } = s ∧
        (∀ i, t.mode.levelHeld.testBit i = true ↔ s.mode.levelHeld.testBit i = true ∧ i < 4 ∧ active levels i) ∧
        (s.pins.overtempHold = false → (s.mode.entering ≠ none ∨ s.mode.mode = .island) →
          ∀ i, t.mode.latch.testBit i = true ↔ s.mode.latch.testBit i = true ∨ fires i) ∧
        (s.pins.overtempHold = false → s.mode.entering = none → s.mode.mode ≠ .island → (∃ i, fires i) → t.mode.latch = 0 ∧
          ∀ i, t.mode.last.testBit i = true ↔ s.mode.latch.testBit i = true ∨ fires i) ∧
        ((s.pins.overtempHold = true ∨ ∀ i, ¬ fires i) → t.mode.latch = s.mode.latch ∧ t.mode.last = s.mode.last)) ∧
    (let done : Prop := s.mode.entering = some .island ∧ s.pins.ddReset = true ∧ s.pins.mainEn = false
     (¬ done → exec .islandEntryComplete s = .next s) ∧
     (done → ∃ t, exec .islandEntryComplete s = .next t ∧ t.mode.mode = .island ∧ t.mode.entering = none ∧ t.mode.mainPg = false ∧
       t.mode.lastEntry = s.aonStamp ∧ t.mode.latch = s.mode.latch ∧
       (∀ x, x < 24 → x < s.pwr.chans.length → (t.pchan x).hsOn = true → (s.pchan x).st = .empty ∨ (s.pchan x).st = .latched ∨ (s.pchan x).st = .disabled) ∧
       (∀ e ∈ t.flash.hawk, e.pins ≠ 0 ∧ e.removed = true) ∧ { t.flash with hawk := s.flash.hawk } = s.flash ∧
       { t.host with cmds := s.host.cmds } = s.host ∧
       (s.mode.latch ≠ 0 → t.mode.last = s.mode.latch ∧ t.mode.replayed = true ∧ t.mode.replayTell = some s.mode.latch) ∧
       { t with mode := s.mode, pwr := s.pwr, flash := s.flash, host := s.host } = s)) ∧
    (let at_ : Prop := s.mode.mode = .island ∧ s.mode.entering = none ∧ s.pins.pwronLow = false
     let feed : Prop := s.mode.byFeedLoss = true ∧ (s.paramN 0x9201).testBit 7 = true ∧ s.pins.overtempHold = false
     (¬ at_ → exec .islandExit s = .next s) ∧
     (at_ → s.mode.latch = 0 → ¬ feed → exec .islandExit s = .next s) ∧
     (at_ → (s.mode.latch ≠ 0 ∨ feed) → ∃ t, exec .islandExit s = .next t ∧ t.mode.entering = some .standby ∧ t.mode.mode = .island ∧
       t.mode.latch = 0 ∧ t.mode.byFeedLoss = false ∧ t.mode.avsTarget = 800 ∧ t.mode.avsAcked = 800 ∧ t.pins.mainEn = true ∧
       (feed → t.mode.last = s.mode.latch ||| 128) ∧ (¬ feed → t.mode.last = s.mode.last) ∧
       { t with mode := s.mode, pins := s.pins } = s))

/-- MAIN_PG, the release of DD_RST_N, Primer, STANDBY reached, the core voltage, the island supply and the resets of the
power die -/
def Obligations.BringUpVoltagesSuppliesAndResets : Prop :=
  ∀ s : State,
    let m := s.mode
    let md (m : ModeState) : State := { s with mode := m }
    let pins (p : PinState) : State := { s with pins := p }
    let wrote (t : State) (fc : Nat) (d : List Int) : Prop := ∃ e ∈ t.bbx.queue, e.code = fc ∧ e.detail = d
    let step (goal : Nat) : Nat := if m.avsAcked < goal then min goal (m.avsAcked + 25) else max goal (m.avsAcked - 25)
    exec .mainPgRise s = .next (if s.pins.mainEn = true then md { m with mainPg := true } else s) ∧
    (¬ (s.pins.mainEn = true ∧ m.mainPg = false) → exec .mainPgTimeout s = .next s) ∧
    (s.pins.mainEn = true → m.mainPg = false → ∃ t, exec .mainPgTimeout s = .next t ∧ t.mode.entering = none ∧ t.mode.mode = m.mode ∧
      t.pins = { s.pins with mainEn := false } ∧ t.groups = s.groups ∧ wrote t 0x0F11 []) ∧
    (¬ (s.pins.mainEn = true ∧ m.mainPg = true) → exec .mainPgFall s = .next (md { m with mainPg := false })) ∧
    (s.pins.mainEn = true → m.mainPg = true → ∃ t, exec .mainPgFall s = .next t ∧ t.mode.mainPg = false ∧ t.mode.entering = some .island ∧
      t.pins.mainEn = false ∧ t.pins.ddReset = true ∧ t.mode.te = s.aonStamp ∧ t.mode.ce = s.island ∧
      wrote t 0x0F12 [m.mode.ctorIdx, if s.flush.active = true ∧ s.flush.before = none then 1 else 0]) ∧
    (let may : Prop := s.pins.ddReset = true ∧ s.pins.mainEn = true ∧ m.mainPg = true ∧ m.entering ≠ some .island
     let e := (s.island + 2 ^ 48 - m.ce) % 2 ^ 48 * 1000000000 / 32768
     let gone := (s.island + 2 ^ 48 - m.lastIsl) % 2 ^ 48 * 1000000000 / 32768
     (¬ may → exec .ddRstRelease s = .next s) ∧
     (may → ∃ t, exec .ddRstRelease s = .next t ∧ t.pins.ddReset = false ∧ t.pins.lastBeat = s.clock ∧ t.mode.cd = s.island ∧ t.mode.efUsed = false ∧
       t.mode.unknown = !m.cntValid ∧ (m.cntValid = true → t.mode.ei = e ∧ t.mode.uncUs = e * 20 / 1000000000 + 61 ∧ t.nowNs = m.lastFab + gone) ∧
       (m.cntValid = false → t.mode.ei = 0 ∧ t.nowNs = (s.bbx.ring.getLast?.map BbxRec.ftime).getD 0) ∧
       t.par = { s.par with commits := s.par.commits.map fun c => { c with due := 0 } } ∧
       { t with mode := m, pins := s.pins, time := s.time, tregs := s.tregs, par := s.par } = s)) ∧
    (∀ (pipes : Nat) (ok : Bool),
      let boot := exec (.primerBoot pipes ok) s
      let idle : Prop := s.pins.ddReset = false ∧ s.fw.running = false ∧ s.fw.halted = false
      let r := s.fw.boot
      let tries (b : Bool) : Prop :=
        (r.st b = .trial ∧ (b = true → r.st false ≠ .trial) ∧ r.att b < 2) ∨
        ((∀ x, r.st x ≠ .trial) ∧ r.st b = .active ∧ (b = true → r.st false ≠ .active) ∧ r.att b < 3)
      (¬ idle → boot = .next s) ∧
      (idle → s.fuse.lifecycle = 3 → boot = .next { s with fw := { s.fw with halted := true } }) ∧
      (idle → s.fuse.lifecycle ≠ 3 → s.sys.bootSel = true → boot = .next { s with fw := { s.fw with recovery := true, running := true } }) ∧
      ∀ b, idle → s.fuse.lifecycle ≠ 3 → s.sys.bootSel = false → s.fw.recs.length = 2 → tries b →
        let i := s.fw.image b
        ∃ t, boot = .next t ∧
          (imageFails s.fuse i = none → t.fw.boot.att b = min 255 (r.att b + 1) ∧ t.fw.boot.st b = r.st b ∧
            (imgType i = 1 → t.fuse.retired = s.fuse.retired ||| 0xFF ∧ t.fw.halted = true ∧ t.fw.running = false ∧ wrote t 0x0E1C []) ∧
            (imgType i ≠ 1 → t.fw.running = true ∧ t.fw.runB = b ∧ t.fw.recovery = s.fw.recovery ∧ t.pwr.loaded = true ∧
              (s.fuse.rootSt = .good → t.ciph.rootOk = true ∧ t.ciph.keying = ok ∧
                t.ciph.pipes = ((List.range 48).filter fun j => pipes.testBit j).length))) ∧
          (∀ why : Nat, imageFails s.fuse i = some why → t.fw.boot.st b = .invalid ∧ wrote t 0x0E15 [if b = true then 1 else 0, why])) ∧
    (let done : Prop := s.ddUp = true ∧ s.fw.recovery = false ∧ m.entering = some .standby ∧ m.toHand = [] ∧ (∀ q, m.avs = some q → q.why ≠ 0)
     (¬ done → exec .standbyReached s = .next s) ∧
     (done → s.fw.recs.length = 2 → ∃ t, exec .standbyReached s = .next t ∧ t.mode.mode = .standby ∧ t.mode.entering = none ∧
       t.mode.lastEntry = s.nowNs ∧ t.fw.boot.att s.fw.runB = 0 ∧ t.groups = s.groups)) ∧
    (∀ (mv : Nat) (entry : Bool),
      let why := if m.avsAcked < mv then (if entry = true then 0 else 1) else 2
      let bad : Prop := s.ddUp = false ∨ mv < 650 ∨ 850 < mv ∨ mv % 5 ≠ 0 ∨ m.entering = some .island
      (bad → exec (.operatingPointVoltage mv entry) s = .next s) ∧
      (¬ bad → m.avs = none → mv = m.avsAcked → exec (.operatingPointVoltage mv entry) s = .next s) ∧
      (¬ bad → ∀ q, m.avs = some q → exec (.operatingPointVoltage mv entry) s = .next (md { m with avs := some { q with goal := mv, why := why }, avsLower := none })) ∧
      (¬ bad → m.avs = none → mv ≠ m.avsAcked → ∃ t q, exec (.operatingPointVoltage mv entry) s = .next t ∧ t.out = s.out ++ [.avs (step mv)] ∧
        t.mode = { m with avsLower := none, avsTarget := step mv, avs := some q } ∧ q.mv = step mv ∧ q.goal = mv ∧ q.why = why ∧
        q.raise = decide (m.avsAcked < mv) ∧ q.left = s.paramN 0x9206 ∧ { t with mode := m, out := s.out } = s)) ∧
    (m.avs = none → exec .avsTimeout s = .next s ∧ ∀ ack mv, exec (.avsResponse ack mv) s = .next s) ∧
    (∀ q, m.avs = some q →
      (∀ ack mv, (ack = false ∨ q.mv + 15 < mv ∨ mv + 15 < q.mv) → exec (.avsResponse ack mv) s = .next s) ∧
      (∀ mv, mv ≤ q.mv + 15 → q.mv ≤ mv + 15 →
        (q.mv = q.goal → exec (.avsResponse true mv) s = .next (md { m with avs := none, avsAcked := q.mv })) ∧
        (q.mv ≠ q.goal → ∃ t, exec (.avsResponse true mv) s = .next t ∧ t.mode.avsAcked = q.mv ∧
          t.mode.avsTarget = (if q.mv < q.goal then min q.goal (q.mv + 25) else max q.goal (q.mv - 25)) ∧ t.out = s.out ++ [.avs t.mode.avsTarget])) ∧
      (q.left ≠ 0 → exec .avsTimeout s = .next { md { m with avs := some { q with left := q.left - 1 } } with out := s.out ++ [.avs q.mv] }) ∧
      (q.left = 0 → ∃ t, exec .avsTimeout s = .next t ∧ wrote t 0x0D11 [q.mv] ∧
        (q.raise = false → (s.canTell → t.told 0x0D04 0 []) ∧ { t.hush s with mode := m } = s ∧
          t.mode = { m with avs := none, avsTarget := m.avsAcked, avsLower := some q.goal }) ∧
        (q.raise = true → q.why ≠ 0 → s.ddUp = true → (m.mode = .standby ∨ m.mode = .owner ∨ m.mode = .partner) →
          t.mode.mode = .contained ∧ t.mode.cause = 5 ∧ t.mode.avsTarget = m.avsAcked) ∧
        (q.raise = true → q.why = 0 → m.mode = .island → t.mode.mode = .island ∧ t.mode.entering = none ∧ t.pins.mainEn = false ∧ t.pins.ddReset = true ∧
          ∀ x, x < 24 → x < s.pwr.chans.length → (t.pchan x).hsOn = true → (s.pchan x).st = .empty ∨ (s.pchan x).st = .latched ∨ (s.pchan x).st = .disabled))) ∧
    (let due (g : Nat) : Prop := m.avsLower = some g ∧ m.avs = none ∧ s.ddUp = true ∧ g < m.avsAcked
     ((∀ g, ¬ due g) → exec .avsLowerRetry s = .next s) ∧
     (∀ g, due g → ∃ t, exec .avsLowerRetry s = .next t ∧ t.out = s.out ++ [.avs (step g)] ∧ t.mode.avsTarget = step g ∧ t.mode.avsAcked = m.avsAcked ∧
       t.mode.avsLower = none ∧ { t with mode := m, out := s.out } = s)) ∧
    (∀ (aux poe : Bool) (cls : Nat),
      let src := if aux = true then 0 else if poe = true then 1 else 2
      let u := md { m with aux := aux, poe := poe, poeClass := if poe = true then cls % 16 else 0, source := src }
      let dead : Prop := aux = false ∧ poe = false ∧ s.pwr.feedA.st = .absent ∧ s.pwr.feedB.st = .absent
      (dead → ∃ t, exec .vaonLoss u = .next t ∧ exec (.islandSupplyChange aux poe cls) s = .next t) ∧
      (¬ dead → src = m.source → exec (.islandSupplyChange aux poe cls) s = .next u) ∧
      (¬ dead → src ≠ m.source → ∃ t, exec (.islandSupplyChange aux poe cls) s = .next t ∧ t.hush s = u ∧ (s.canTell → t.told 0x0D05 0 []))) ∧
    (∃ t, exec .vaonLoss s = .next t ∧ t.mode.mode = .island ∧ t.mode.entering = none ∧ t.mode.cntValid = false ∧ t.island = 0 ∧
      t.pins.mainEn = false ∧ t.pins.ddReset = true ∧ t.pins.pwronLow = true ∧ t.pwr = {} ∧ t.wit.key = none ∧ t.bbx.queue = [] ∧ t.fuse = s.fuse ∧
      (s.bbx.gasps.length < 16 → ∃ e, t.bbx.gasps = s.bbx.gasps ++ [e] ∧ e.code = 0x0E11 ∧ e.lastGasp = true)) ∧
    (∀ cmd, cmd ∈ [.powerDieReset, .pwronResetAssert] → ∃ t, exec cmd s = .next t ∧ t.pwr = {} ∧ t.mode.mode = .island ∧ t.mode.entering = none ∧
      t.mode.latch = 0 ∧ t.pins.mainEn = false ∧ t.pins.ddReset = true ∧ t.pins.pwronLow = (s.pins.pwronLow || cmd == .pwronResetAssert) ∧
      t.bbx.queue = [] ∧ t.paramN 0x9002 = 5000 ∧ t.paramN 0x9201 = 0xB0 ∧ t.fuse.otp = s.fuse.otp ∧ t.groups = List.replicate 6 {}) ∧
    (∀ (slotB prov sel : Bool) (shelf : Nat),
      (s.pins.pwronLow = false → exec (.pwronResetRelease slotB prov sel shelf) s = .next s) ∧
      (s.pins.pwronLow = true → ∃ t, exec (.pwronResetRelease slotB prov sel shelf) s = .next t ∧ t.sys.slotB = slotB ∧ t.sys.prov = prov ∧
        t.sys.bootSel = sel ∧ t.sys.shelf = shelf % 64 ∧ t.mode.mode = .island ∧ t.mode.entering = none ∧ t.mode.latch = 128 ∧
        t.pins.pwronLow = false ∧ t.pins.mainEn = false ∧ t.pins.ddReset = true)) ∧
    exec .mpPhyResetRelease s = .next (if s.pins.pwronLow = true then s else pins { s.pins with mpPhyUp := true })

/-- Records accepted, committed, read and cleared in the black box, and the sector erased ahead of the write position -/
def Obligations.BlackBoxKeepsRecordsInOrder : Prop :=
  (∀ (s : State) (r : Payload.BbxSubmit), s.pins.ddReset = false →
    let origin := if r.primer then 2 else 1
    let full : Prop := s.bbxTokens = 0 ∨ 56 ≤ s.bbx.queue.length
    ((r.primer = true ∨ ¬ full) → ∃ t e, exec (.bbxRecordSubmit r) s = .next t ∧ t.bbx.queue = s.bbx.queue ++ [e] ∧ e.code = r.code ∧
      e.kind = r.kind ∧ e.subject = r.subject ∧ e.detail = r.detail.take 26 ∧ e.origin = origin ∧ e.seq = s.bbx.seq ∧
      e.ftime = s.time.fab / 2 ^ 32 ∧ e.island = s.island ∧ e.unlocked = decide (s.time.servo ≠ .locked) ∧ e.estimated = false ∧
      e.lastGasp = false ∧ e.ddResets = s.bbx.ddResets ∧ t.bbx.seq = (s.bbx.seq + 1) % 2 ^ 32 ∧ t.bbx.ring = s.bbx.ring ∧
      { t with bbx := s.bbx } = s) ∧
    (r.primer = false → full → ∃ t, exec (.bbxRecordSubmit r) s = .next t ∧ t.bbx.queue = s.bbx.queue ∧ t.bbx.seq = s.bbx.seq ∧
      t.bbx.dropped = min 0xFFFF (s.bbx.dropped + 1) ∧ (s.bbx.dropTold = none → s.mbx.chans.any Chan.waiting = false → t.told 0x0E01 0 []) ∧
      t.hush s = s)) ∧
  (∀ (s : State) (ok : Bool),
    ((s.bbx.queue = [] ∨ s.bbx.erasing = true) → exec (.bbxRecordCommit ok) s = .next s) ∧
    (∀ r rest, s.bbx.queue = r :: rest → s.bbx.erasing = false → ∃ t, exec (.bbxRecordCommit ok) s = .next t ∧
      { t with bbx := s.bbx } = s ∧ t.bbx.queue = rest ∧ t.bbx.seq = s.bbx.seq ∧ t.bbx.pos = (s.bbx.pos + 1) % 8160 ∧
      (let all := s.bbx.ring ++ (if ok then [{ r with pos := s.bbx.pos }] else [])
       (t.bbx.pos % 16 ≠ 0 → t.bbx.ring = all ∧ t.bbx.erasing = false) ∧
       (t.bbx.pos % 16 = 0 → t.bbx.erasing = true ∧ t.bbx.ring = all.filter fun x => x.pos / 16 ≠ (t.bbx.pos / 16 + 1) % 510))) ∧
    exec .bbxEraseDone s = .next { s with bbx := { s.bbx with erasing := false } }) ∧
  ∀ (s : State) (c : Nat),
    (s.carries c 0x0801 → let n := leAt (s.body c) 4 2
      ((n = 0 ∨ 15 < n) → exec (.bbxRead c) s = .next (answer c Code.stRange 0 [] s)) ∧
      (1 ≤ n → n ≤ 15 → exec (.bbxRead c) s = .next (answer c Code.stOk 0 (leBytes 4 ((s.bbx.ring.head?.map BbxRec.seq).getD 0) ++
        leBytes 4 ((s.bbx.ring.getLast?.map BbxRec.seq).getD 0) ++
        (((s.bbx.ring.filter fun r => leAt (s.body c) 0 4 ≤ r.seq).take n).map bbxBytes).flatten) s))) ∧
    (s.carries c 0x0802 → ∃ t e, exec (.bbxClear c) s = .next (answer c Code.stOk 0 [] t) ∧ t.bbx.ring = [] ∧ t.bbx.gasps = [] ∧
      t.bbx.queue = s.bbx.queue ++ [e] ∧ e.code = 0x0E19 ∧ e.detail = [(c : Int), (((s.bbx.ring.getLast?.map BbxRec.seq).getD 0 : Nat) : Int)] ∧
      t.bbx.seq = (s.bbx.seq + 1) % 2 ^ 32 ∧ { t with bbx := s.bbx } = s)

/-- The fuse and OTP commands: what each blows or programs, when it is locked, and the record each leaves -/
def Obligations.FusesAndOtpAreWrittenOnce : Prop :=
  ∀ (s : State) (c : Nat),
    let b := s.body c
    let x := leAt b 0 1
    let f := s.fuse
    let no (cmd : Instr) (st : Nat) : Prop := exec cmd s = .next (answer c st 0 [] s)
    let leaves (t : State) (code : Nat) (d : List Int) : Prop := ∃ e, t.bbx.queue = s.bbx.queue ++ [e] ∧ e.code = code ∧ e.detail = d ∧ e.origin = 0
    let blew (cmd : Instr) (op : Nat) (p : FuseState → Prop) : Prop := ∃ t, exec cmd s = .next (answer c Code.stOk 0 [] t) ∧ p t.fuse ∧
      leaves t 0x0E17 [(op : Int), (c : Int), 0] ∧ t.fuse.deviceId = f.deviceId ∧ t.fuse.otp = f.otp ∧ t.groups = s.groups ∧ t.mode = s.mode
    let locked : Prop := blown f.writeLock = true
    (s.carries c 0x0110 → exec (.fuseStatus c) s = .next (answer c Code.stOk 0 (leBytes 4 (fuseStatusReg f) ++ leBytes 4 (otpStatusReg f) ++
      leBytes 8 f.deviceId ++ leBytes 16 f.rollback) s)) ∧
    (s.carries c 0x0111 → ((f.lifecycle ≠ 0 ∨ f.rootSt ≠ .unprogrammed ∨ locked) → ∀ ok, no (.fuseRootKey c ok) Code.stLocked) ∧
      (f.lifecycle = 0 → f.rootSt = .unprogrammed → ¬ locked → blew (.fuseRootKey c true) 0x0111 fun g =>
        g.root = leAt b 0 32 ∧ g.rootSt = .good ∧ { g with root := f.root, rootSt := f.rootSt } = f)) ∧
    (s.carries c 0x0112 → (3 < x → ∀ ok, no (.fuseKeyHash c ok) Code.stRange) ∧
      (x ≤ 3 → ((nth f.hashes x).programmed = true ∨ locked) → ∀ ok, no (.fuseKeyHash c ok) Code.stLocked) ∧
      (x ≤ 3 → (nth f.hashes x).programmed = false → ¬ locked → x < f.hashes.length → blew (.fuseKeyHash c true) 0x0112 fun g =>
        (nth g.hashes x).programmed = true ∧ (nth g.hashes x).bad = false ∧ (nth g.hashes x).value = leAt b 4 48 ∧
        (∀ i, i ≠ x → nth g.hashes i = nth f.hashes i) ∧ { g with hashes := f.hashes } = f)) ∧
    (s.carries c 0x0113 →
      let rooted : Prop := (f.rootSt = .good ∨ f.rootSt = .corrected) ∧ ∃ h ∈ f.hashes, h.programmed = true ∧ h.bad = false
      ((locked ∨ (x ≠ 1 ∧ x ≠ 2 ∧ x ≠ 3) ∨ (x = 1 ∧ (f.lifecycle ≠ 0 ∨ ¬ rooted)) ∨ (x = 2 ∧ f.lifecycle ≠ 1) ∨ (x = 3 ∧ 2 ≤ f.lifecycle)) →
        ∀ ok, no (.fuseLifecycle c ok) Code.stLocked) ∧
      (¬ locked → x = 1 → f.lifecycle = 0 → rooted → blew (.fuseLifecycle c true) 0x0113 fun g =>
        g.provisioned = f.provisioned ||| 0xFF ∧ { g with provisioned := f.provisioned } = f) ∧
      (¬ locked → x = 2 → f.lifecycle = 1 → blew (.fuseLifecycle c true) 0x0113 fun g =>
        g.deployed = f.deployed ||| 0xFF ∧ g.debugLock = f.debugLock ||| 0xFF ∧ g.writeLock = f.writeLock ||| 0xFF ∧
        { g with deployed := f.deployed, debugLock := f.debugLock, writeLock := f.writeLock } = f) ∧
      (¬ locked → x = 3 → f.lifecycle ≤ 1 → blew (.fuseLifecycle c true) 0x0113 fun g =>
        g.retired = f.retired ||| 0xFF ∧ { g with retired := f.retired } = f)) ∧
    (s.carries c 0x0114 → (locked → ∀ ok, no (.fuseDebugLock c ok) Code.stLocked) ∧
      (¬ locked → blew (.fuseDebugLock c true) 0x0114 fun g =>
        g.debugLock = f.debugLock ||| 0xFF ∧ { g with debugLock := f.debugLock } = f)) ∧
    (s.carries c 0x0118 → f.otp.length = 4 → ((∀ g ∈ f.otp, ∃ y ∈ g, y ≠ 0) → ∀ ok, no (.otpWrite c ok) Code.stLocked) ∧
      (∀ i, i < 4 → (nth f.otp i).all (· == 0) = true → (∀ j, j < i → ∃ y ∈ nth f.otp j, y ≠ 0) → ∃ t,
        exec (.otpWrite c true) s = .next (answer c Code.stOk 0 [BitVec.ofNat 8 i] t) ∧ leaves t 0x0E18 [(i : Int), (c : Int)] ∧
        nth t.fuse.otp i = [0xA5, 0] ++ leBytes 2 (crc16 (padTo 124 b)) ++ padTo 124 b ∧
        (∀ j, j ≠ i → nth t.fuse.otp j = nth f.otp j) ∧ { t.fuse with otp := f.otp } = f)) ∧
    (s.carries c 0x0119 → f.otp.length = 4 → (otpInForce f.otp = 7 → ∀ ok, no (.otpVoid c ok) Code.stLocked) ∧
      (otpInForce f.otp < 4 → ∃ t now, exec (.otpVoid c true) s = .next (answer c Code.stOk 0 [BitVec.ofNat 8 now] t) ∧
        now = (if otpInForce t.fuse.otp < 4 then otpInForce t.fuse.otp else 0xFF) ∧ now ≠ otpInForce f.otp ∧
        leaves t 0x0E18 [((otpInForce f.otp : Nat) : Int), (c : Int)] ∧ { t.fuse with otp := f.otp } = f ∧
        ∀ j, j ≠ otpInForce f.otp → nth t.fuse.otp j = nth f.otp j)) ∧
    (s.carries c 0x011A → (3 < x → no (.otpRead c) Code.stRange) ∧
      (x ≤ 3 → exec (.otpRead c) s = .next (answer c Code.stOk 0 (nth f.otp x) s)))

/-- The power-fail warning and its flush, the reset after it, and the data-die watchdog -/
def Obligations.FlushesAndWatchdogResets : Prop :=
  (∀ s : State,
    ((s.ddUp = false ∨ s.flush.active = true) → exec .pwrfailNFall s = .next { s with pins := { s.pins with pfWarn := true } }) ∧
    (s.ddUp = true → s.flush.active = false → s.ownedGroups = [] → s.flash.dies = [] → exec .pwrfailNFall s = .next
      { s with pins := { s.pins with pfWarn := true }, flush := { s.flush with
        active := true, programmed := 0, image := false, start := s.clock, left := s.programsLeft } }) ∧
    (∀ bay, s.ddUp = true → s.flush.active = false → s.flash.dies = [] → s.flash.ops = [] →
      (∀ gi ∈ s.ownedGroups, (s.group gi).stripes = []) → s.imageBays.1 = some bay → s.imageBays.2.1 = none →
      ∃ t, exec .pwrfailNFall s = .next t ∧ t.pins.pfWarn = true ∧ t.flush.active = true ∧ t.flush.start = s.clock ∧ t.host = s.host ∧
        (s.imageSet bay = none → t.flash = s.flash ∧ t.flush.left = 0) ∧
        (∀ block first, s.imageSet bay = some (block, first) → t.flush.left = 321 ∧
          (t.flash.ops.filter fun o => o.opc == 0x10).length = 321 ∧ (∀ o ∈ t.flash.ops, o.bay = bay ∧ (o.opc = 0x10 → o.st = .queued ∧
            1 ≤ o.die ∧ o.die ≤ 64 ∧ o.src.length = 4 ∧ o.block = block ∧ (o.page ≤ 16 ∨ o.page = 20 ∧ o.die = 1))) ∧
          ((s.bayMember bay).isSome = true → t.flash.ops.length = 321) ∧
          (s.bayMember bay = none → ∀ d, 1 ≤ d → d ≤ 64 → ∃ o ∈ t.flash.ops, o.opc = 0x20 ∧ o.die = d ∧ o.block = block ∧ o.st = .queued))) ∧
    (s.flush.active = false → exec .flushProgressTick s = .next s ∧ exec .pfailFlushDone s = .next s) ∧
    (s.flush.active = true →
      let n := s.flush.programmed + (s.flush.left - s.programsLeft)
      exec .flushProgressTick s = .next { s with flush := { s.flush with programmed := n, left := s.programsLeft },
                                                 bbx := { s.bbx with flushLeft := s.programsLeft } } ∧
      (¬ (s.mode.entering = some .island ∧ s.mode.byFeedLoss = true) → ∃ t, exec .pfailFlushDone s = .next t ∧
        t.flush.before = some ([if s.imageDone = true then 1 else 0, n, s.programsLeft, (s.clock - s.flush.start) / 1600].map fun v : Nat => (v : Int)) ∧
        t.flush.image = s.imageDone ∧ t.flush.active = true ∧ t.bbx.flushLeft = 0xFFFFFFFF ∧ { t.hush s with flush := s.flush } = s ∧
        (s.canTell → ∃ e ∈ t.bbx.queue, e.code = 0x0E12 ∧ some e.detail = t.flush.before)) ∧
      (s.mode.entering = some .island → s.mode.byFeedLoss = true → ∃ t, exec .pfailFlushDone s = .next t ∧ t.mode.entering = some .island ∧
        t.pins.mainEn = false ∧ t.pins.ddReset = true)) ∧
    (s.pins.ddReset = true → exec .ddBeatEdge s = .next s ∧ exec .watchdogExpiry s = .next s) ∧
    (s.pins.ddReset = false →
      exec .ddBeatEdge s = .next { s with pins := { s.pins with lastBeat := s.clock, lastBeatNs := s.aonStamp } } ∧
      (let recent := s.pins.dogResets.filter fun c => decide (s.clock < c + 600 * 1600000000)
       (recent.length + 1 < s.paramN 0xA002 → ∃ t, exec .watchdogExpiry s = .next t ∧ t.pins.ddReset = true ∧ t.pins.mainEn = s.pins.mainEn ∧
         t.fw.reason = 1 ∧ t.pins.dogResets = recent ++ [s.clock] ∧ t.mode.entering = some .standby ∧
         ∃ e ∈ t.bbx.queue, e.code = 0x0E13 ∧ e.detail = [(s.pins.lastBeatNs : Int)]) ∧
       (s.paramN 0xA002 ≤ recent.length + 1 → ∃ t, exec .watchdogExpiry s = .next t ∧ t.pins.ddReset = true ∧ t.pins.mainEn = false ∧
         t.mode.entering = some .island ∧ t.pwr = s.pwr ∧ t.mode.ce = s.island ∧ ∃ e ∈ t.bbx.queue, e.code = 0x0E14)))) ∧
  ∀ s : State,
    let gone (t : State) (reason : Nat) : Prop := t.fw.reason = reason ∧ t.pins.ddReset = true ∧ t.pins.pfWarn = false ∧
      t.groups = List.replicate 6 {} ∧ t.flash = {} ∧ t.host = {} ∧ t.net = {} ∧ t.scrim = {} ∧ t.ciph = {} ∧ t.time = {} ∧ t.sys.linkUp = false ∧
      t.fw.running = false ∧ t.flush.active = false ∧ t.mode.hold = decide (s.paramN 0x9200 = 0) ∧ t.mode.cause = 0 ∧
      t.bbx.ddResets = (s.bbx.ddResets + 1) % 2 ^ 32 ∧ t.bbx.ring = s.bbx.ring ∧ t.pwr = s.pwr ∧ t.fuse = s.fuse ∧ t.par.store = s.par.store ∧
      t.wit = s.wit ∧ t.fw.recs = s.fw.recs ∧ t.sys.slotB = s.sys.slotB ∧ t.out = s.out
    let ends : Prop := s.flush.active = true ∧ s.flush.before ≠ none ∧ s.pwr.collapse = false ∧ s.mode.entering ≠ some .island
    (¬ ends → exec .postFlushReset s = .next s) ∧
    (ends → ∃ t, exec .postFlushReset s = .next t ∧ gone t 5 ∧ t.mode.entering = some .standby ∧ t.flush.before = s.flush.before ∧
      t.bbx.queue = s.bbx.queue) ∧
    (s.pins.ddReset = false → (s.pins.dogResets.filter fun c => decide (s.clock < c + 600 * 1600000000)).length + 1 < s.paramN 0xA002 →
      ∃ t, exec .watchdogExpiry s = .next t ∧ gone t 1)

end
end

