-- ==== Sys2Proof/Laws/Bytes.lean ====
section
/-! SUPPORT. Little-endian byte strings: their length, and that a number read back is the number written. -/

namespace Sys2Proof.Machine

@[simp] theorem leBytes_length (n v : Nat) : (leBytes n v).length = n := by
  induction n generalizing v with
  | zero => rfl
  | succ n ih => simp [leBytes, ih]

/-- A number read back, cut to its bytes. -/
theorem leNat_leBytes (n v : Nat) : leNat (leBytes n v) = v % 256 ^ n := by
  induction n generalizing v with
  | zero => simp [leBytes, leNat, Nat.mod_one]
  | succ n ih =>
    have e : v % 256 ^ (n + 1) = v % 256 + 256 * (v / 256 % 256 ^ n) := by rw [Nat.pow_succ', Nat.mod_mul]
    rw [e, leBytes, leNat, ih, BitVec.toNat_ofNat]

@[simp] theorem leAt_leBytes (n v : Nat) : leAt (leBytes n v) 0 n = v % 256 ^ n := by
  have h := leBytes_length n v
  unfold leAt slice
  rw [List.drop_zero, List.take_of_length_le (by omega), leNat_leBytes]

/-- A number at the front of a longer string. -/
theorem leAt_leBytes_append (n v : Nat) (bs : List Byte) : leAt (leBytes n v ++ bs) 0 n = v % 256 ^ n := by
  unfold leAt slice
  rw [List.drop_zero, List.take_append_of_le_length (by simp), List.take_of_length_le (by simp), leNat_leBytes]

/-- Past a string of the offset's length. -/
theorem leAt_append (as bs : List Byte) (k n : Nat) : leAt (as ++ bs) (as.length + k) n = leAt bs k n := by
  unfold leAt slice
  rw [List.drop_append, List.drop_of_length_le (by omega)]
  simp

end Sys2Proof.Machine
end

