-- ==== Sys2Proof/Laws/Memory.lean ====
section
/-! SUPPORT. The byte memory: what a read gives after a write, and that every operation keeps the canonical form. -/

namespace Sys2Proof.Machine

/-- The canonical form one entry at a time: the byte is not zero, every later address is higher. -/
theorem Memory.wf_cons (k : Nat) (b : Byte) (m : Memory) :
    Memory.wf ((k, b) :: m) = true ↔ b ≠ 0 ∧ (∀ p ∈ m, k < p.1) ∧ Memory.wf m = true := by
  induction m generalizing k b with
  | nil => simp [Memory.wf]
  | cons q m ih =>
    obtain ⟨k', b'⟩ := q
    rw [Memory.wf]
    simp only [Bool.and_eq_true, bne_iff_ne, decide_eq_true_eq, List.mem_cons, forall_eq_or_imp, ih]
    constructor
    · rintro ⟨⟨hb, hk⟩, hb', hall, hw⟩
      exact ⟨hb, ⟨hk, fun p hp => Nat.lt_trans hk (hall p hp)⟩, hb', hall, hw⟩
    · rintro ⟨hb, ⟨hk, _⟩, hb', hall, hw⟩
      exact ⟨⟨hb, hk⟩, hb', hall, hw⟩

/-- An address that a write does not list was listed before, or is the one written. -/
theorem Memory.mem_write (m : Memory) (a : Nat) (v : Byte) (p : Host.Cell) (h : p ∈ Memory.write m a v) :
    p ∈ m ∨ p = (a, v) := by
  induction m with
  | nil =>
    simp only [Memory.write] at h
    split at h
    · simp at h
    · simp at h; exact .inr h
  | cons q m ih =>
    obtain ⟨k, b⟩ := q
    simp only [Memory.write] at h
    split at h
    · split at h
      · exact .inl h
      · simp at h; rcases h with h | h | h
        · exact .inr h
        · exact .inl (by simp [h])
        · exact .inl (by simp [h])
    · split at h
      · split at h
        · exact .inl (by simp [h])
        · simp at h; rcases h with h | h
          · exact .inr h
          · exact .inl (by simp [h])
      · simp at h; rcases h with h | h
        · exact .inl (by simp [h])
        · rcases ih h with h | h
          · exact .inl (by simp [h])
          · exact .inr h

/-- A write keeps the canonical form. -/
theorem Memory.wf_write (m : Memory) (a : Nat) (v : Byte) (h : Memory.wf m = true) :
    Memory.wf (Memory.write m a v) = true := by
  induction m with
  | nil =>
    simp only [Memory.write]
    split
    · rfl
    · rename_i hv; simpa [Memory.wf] using hv
  | cons q m ih =>
    obtain ⟨k, b⟩ := q
    have h' := (Memory.wf_cons k b m).1 h
    simp only [Memory.write]
    split
    · split
      · exact h
      · rename_i hk hv
        refine (Memory.wf_cons a v _).2 ⟨hv, ?_, h⟩
        intro p hp
        simp at hp
        rcases hp with hp | hp
        · simp [hp]; exact hk
        · exact Nat.lt_trans hk (h'.2.1 p hp)
    · split
      · rename_i _ hk
        split
        · exact h'.2.2
        · rename_i hv
          exact (Memory.wf_cons a v m).2 ⟨hv, hk ▸ h'.2.1, h'.2.2⟩
      · refine (Memory.wf_cons k b _).2 ⟨h'.1, ?_, ih h'.2.2⟩
        intro p hp
        rcases Memory.mem_write m a v p hp with hp | hp
        · exact h'.2.1 p hp
        · rw [hp]; show k < a; omega

/-- A run of writes keeps the canonical form. -/
theorem Memory.wf_writeN (m : Memory) (a : Nat) (bs : List Byte) (h : Memory.wf m = true) :
    Memory.wf (Memory.writeN m a bs) = true := by
  induction bs generalizing m a with
  | nil => exact h
  | cons b bs ih => exact ih _ _ (Memory.wf_write m a b h)

/-- Leaving entries out keeps the canonical form. -/
theorem Memory.wf_filter (m : Memory) (f : Host.Cell → Bool) (h : Memory.wf m = true) :
    Memory.wf (m.filter f) = true := by
  induction m with
  | nil => exact h
  | cons q m ih =>
    obtain ⟨k, b⟩ := q
    have h' := (Memory.wf_cons k b m).1 h
    rw [List.filter_cons]
    split
    · exact (Memory.wf_cons k b _).2 ⟨h'.1, fun p hp => h'.2.1 p ((List.mem_filter.1 hp).1), ih h'.2.2⟩
    · exact ih h'.2.2

/-- Filling a 4 KiB area keeps the canonical form. -/
theorem wf_writeArea (m : Memory) (off : Nat) (bs : List Byte) (h : Memory.wf m = true) :
    Memory.wf (writeArea m off bs) = true :=
  Memory.wf_writeN _ _ _ (Memory.wf_filter _ _ h)

/-- No entry at or below an address reads as zero there. -/
theorem Memory.read_none (m : Memory) (a : Nat) (h : ∀ p ∈ m, a < p.1) : Memory.read m a = 0 := by
  induction m with
  | nil => rfl
  | cons q m ih =>
    obtain ⟨k, b⟩ := q
    have hk : a < k := h (k, b) (by simp)
    rw [Memory.read, if_neg (by omega)]
    exact ih fun p hp => h p (by simp [hp])

/-- A byte just written reads as it was written. -/
theorem Memory.read_write (m : Memory) (a : Nat) (v : Byte) (h : Memory.wf m = true) :
    Memory.read (Memory.write m a v) a = v := by
  induction m with
  | nil =>
    simp only [Memory.write]
    split
    · rename_i hv; simp [Memory.read, hv]
    · simp [Memory.read]
  | cons q m ih =>
    obtain ⟨k, b⟩ := q
    have h' := (Memory.wf_cons k b m).1 h
    simp only [Memory.write]
    split
    · rename_i hk
      split
      · rename_i hv
        rw [hv]
        refine Memory.read_none _ _ ?_
        intro p hp
        simp at hp
        rcases hp with hp | hp
        · simp [hp]; exact hk
        · exact Nat.lt_trans hk (h'.2.1 p hp)
      · simp [Memory.read]
    · split
      · rename_i _ hk
        split
        · rename_i hv
          rw [hv]
          exact Memory.read_none _ _ (hk ▸ h'.2.1)
        · simp [Memory.read]
      · rename_i hk hne
        rw [Memory.read, if_neg (fun e => hne e.symm)]
        exact ih h'.2.2

/-- A write leaves every other byte as it reads. -/
theorem Memory.read_write_ne (m : Memory) (a x : Nat) (v : Byte) (hx : x ≠ a) :
    Memory.read (Memory.write m a v) x = Memory.read m x := by
  induction m with
  | nil =>
    simp only [Memory.write]
    split
    · rfl
    · simp [Memory.read, Ne.symm hx]
  | cons q m ih =>
    obtain ⟨k, b⟩ := q
    simp only [Memory.write]
    split
    · split
      · rfl
      · rw [Memory.read, if_neg (fun e => hx e.symm)]
    · split
      · rename_i _ hk
        split
        · rw [Memory.read.eq_def ((k, b) :: m)]
          simp only
          rw [if_neg (by omega)]
        · simp only [Memory.read]
          rw [if_neg (fun e => hx e.symm), if_neg (by omega)]
      · simp only [Memory.read, ih]

/-- A run of writes leaves every byte outside it as it reads. -/
theorem Memory.read_writeN_out (m : Memory) (a x : Nat) (bs : List Byte) (hx : x < a ∨ a + bs.length ≤ x) :
    Memory.read (Memory.writeN m a bs) x = Memory.read m x := by
  induction bs generalizing m a with
  | nil => rfl
  | cons b bs ih =>
    simp only [List.length_cons] at hx
    rw [Memory.writeN, ih _ _ (by omega), Memory.read_write_ne _ _ _ _ (by omega)]

/-- A run of writes reads back byte by byte. -/
theorem Memory.read_writeN (m : Memory) (a i : Nat) (bs : List Byte) (h : Memory.wf m = true) (hi : i < bs.length) :
    Memory.read (Memory.writeN m a bs) (a + i) = bs[i] := by
  induction bs generalizing m a i with
  | nil => simp at hi
  | cons b bs ih =>
    rw [Memory.writeN]
    cases i with
    | zero => rw [Memory.read_writeN_out _ _ _ _ (by omega)]; exact Memory.read_write m a b h
    | succ i =>
      have := ih (Memory.write m a b) (a + 1) i (Memory.wf_write m a b h) (by simpa using hi)
      rw [show a + (i + 1) = a + 1 + i by omega, this]
      simp

end Sys2Proof.Machine
end

