-- ==== Sys2Proof/Laws/Keeps.lean ====
section
/-! SUPPORT. What every operation of the block keeps, as one relation between the state before and the state after, and
how it goes through a record update, a choice and a fold. -/

namespace Sys2Proof.Machine

/-- What every operation keeps: the queue; time, free values and the output record only grow; the two memories stay in
canonical form and the event ring in order; no fuse unblows; the numbers of groups, bays, channels and ports stay. -/
structure Keeps (s t : State) : Prop where
  queue : t.pending = s.pending
  clock : s.clock ≤ t.clock
  free : s.free ≤ t.free
  out : s.out <+: t.out
  mbx : MbxOk s.mbx → MbxOk t.mbx
  ep : EpOk s.ep → EpOk t.ep
  fuse : FuseLe s.fuse t.fuse
  groups : s.groups.length = 6 → t.groups.length = 6
  pwr : s.pwr.chans.length = 24 → t.pwr.chans.length = 24
  bays : s.flash.bays.length = 24 → t.flash.bays.length = 24
  ports : s.net.ports.length = 12 → t.net.ports.length = 12
  adjs : s.scrim.adjs.length = 4 → t.scrim.adjs.length = 4

theorem FuseLe.refl (f : FuseState) : FuseLe f f := by simp [FuseLe]

theorem FuseLe.trans {f g h : FuseState} (a : FuseLe f g) (b : FuseLe g h) : FuseLe f h := by
  have key : ∀ x y z : Nat, x &&& y = x → y &&& z = y → x &&& z = x := by
    intro x y z h1 h2
    rw [← h1, Nat.and_assoc, h2]
  exact ⟨key _ _ _ a.1 b.1, key _ _ _ a.2.1 b.2.1, key _ _ _ a.2.2.1 b.2.2.1, key _ _ _ a.2.2.2.1 b.2.2.2.1,
    key _ _ _ a.2.2.2.2 b.2.2.2.2⟩

theorem Keeps.refl (s : State) : Keeps s s :=
  ⟨rfl, Nat.le_refl _, Nat.le_refl _, List.prefix_refl _, id, id, FuseLe.refl _, id, id, id, id, id⟩

theorem Keeps.trans {s t u : State} (a : Keeps s t) (b : Keeps t u) : Keeps s u :=
  ⟨b.queue.trans a.queue, Nat.le_trans a.clock b.clock, Nat.le_trans a.free b.free, a.out.trans b.out,
    fun h => b.mbx (a.mbx h), fun h => b.ep (a.ep h), a.fuse.trans b.fuse, fun h => b.groups (a.groups h),
    fun h => b.pwr (a.pwr h), fun h => b.bays (a.bays h), fun h => b.ports (a.ports h), fun h => b.adjs (a.adjs h)⟩

/-- A record update that leaves the queue, the clock, the counter and the output record alone. -/
theorem Keeps.upd {s t : State} (h : Keeps s t) {sys time tregs par mbx fw ep pwr mode bbx fuse flush pins groups flash host
    net scrim wit ciph} (mbx' : MbxOk t.mbx → MbxOk mbx) (ep' : EpOk t.ep → EpOk ep) (fuse' : FuseLe t.fuse fuse)
    (groups' : t.groups.length = 6 → groups.length = 6) (pwr' : t.pwr.chans.length = 24 → pwr.chans.length = 24)
    (bays' : t.flash.bays.length = 24 → flash.bays.length = 24) (ports' : t.net.ports.length = 12 → net.ports.length = 12)
    (adjs' : t.scrim.adjs.length = 4 → scrim.adjs.length = 4) :
    Keeps s { pending := t.pending, out := t.out, free := t.free, clock := t.clock, sys, time, tregs, par, mbx, fw, ep, pwr,
              mode, bbx, fuse, flush, pins, groups, flash, host, net, scrim, wit, ciph } :=
  h.trans ⟨rfl, Nat.le_refl _, Nat.le_refl _, List.prefix_refl _, mbx', ep', fuse', groups', pwr', bays', ports', adjs'⟩

/-- Free values drawn. -/
theorem Keeps.draw {s t : State} (h : Keeps s t) (n : Nat) : Keeps s { t with free := t.free + n } :=
  h.trans ⟨rfl, Nat.le_refl _, Nat.le_add_right _ _, List.prefix_refl _, id, id, FuseLe.refl _, id, id, id, id, id⟩

/-- Cycles gone by. -/
theorem Keeps.ticks {s t : State} (h : Keeps s t) (n : Nat) : Keeps s { t with clock := t.clock + n } :=
  h.trans ⟨rfl, Nat.le_add_right _ _, Nat.le_refl _, List.prefix_refl _, id, id, FuseLe.refl _, id, id, id, id, id⟩

/-- Something more has left the block. -/
theorem Keeps.outs {s t : State} (h : Keeps s t) (o : List Output) : Keeps s { t with out := t.out ++ o } :=
  h.trans ⟨rfl, Nat.le_refl _, Nat.le_refl _, List.prefix_append _ _, id, id, FuseLe.refl _, id, id, id, id, id⟩

theorem Keeps.ite {s a b : State} {c : Prop} [Decidable c] (ha : Keeps s a) (hb : Keeps s b) :
    Keeps s (if c then a else b) := by split <;> assumption

theorem Keeps.ite2 {α : Type} {s : State} {a b : α × State} {c : Prop} [Decidable c] (ha : Keeps s a.2) (hb : Keeps s b.2) :
    Keeps s (if c then a else b).2 := by split <;> assumption

theorem Keeps.pair {α : Type} {s t : State} {a : α} (h : Keeps s t) : Keeps s (a, t).2 := h

/-- The state that a pair names. -/
theorem Keeps.named {α : Type} {s t : State} {x : α} {p : α × State} (e : p = (x, t)) (h : Keeps s p.2) : Keeps s t := by
  rw [e] at h; exact h

theorem Keeps.foldl {α : Type} {s t : State} {f : State → α → State} {l : List α}
    (hf : ∀ u x, Keeps s u → Keeps s (f u x)) (h : Keeps s t) : Keeps s (l.foldl f t) := by
  induction l generalizing t with
  | nil => exact h
  | cons x l ih => exact ih (hf t x h)

theorem Keeps.foldlPair {α β : Type} {s : State} {p : β × State} {f : β × State → α → β × State} {l : List α}
    (hf : ∀ u x, Keeps s u.2 → Keeps s (f u x).2) (h : Keeps s p.2) : Keeps s (l.foldl f p).2 := by
  induction l generalizing p with
  | nil => exact h
  | cons x l ih => exact ih (hf p x h)

theorem RingOk.same {m m' : MbxState} (h : RingOk m) (e : m'.events = m.events) (e' : m'.evtHead = m.evtHead) : RingOk m' := by
  simpa [RingOk, e, e'] using h

theorem MbxOk.same {m m' : MbxState} (b : m'.bar2 = m.bar2) (c : m'.chans.length = m.chans.length)
    (e : m'.events = m.events) (e' : m'.evtHead = m.evtHead) (h : MbxOk m) : MbxOk m' :=
  ⟨b ▸ h.1, c ▸ h.2.1, h.2.2.same e e'⟩

theorem EpOk.same {m m' : EpState} (a : m'.exchange = m.exchange) (b : m'.shadow.length = m.shadow.length)
    (c : m'.active.length = m.active.length) (d : m'.msix.length = m.msix.length) (h : EpOk m) : EpOk m' :=
  ⟨a ▸ h.1, b ▸ h.2.1, c ▸ h.2.2.1, d ▸ h.2.2.2⟩

theorem FuseLe.same {f g : FuseState} (a : g.provisioned = f.provisioned) (b : g.deployed = f.deployed)
    (c : g.retired = f.retired) (d : g.debugLock = f.debugLock) (e : g.rollback = f.rollback) : FuseLe f g := by
  simp [FuseLe, a, b, c, d, e]

@[simp] theorem length_upd {α : Type} (l : List α) (i : Nat) (f : α → α) : (upd l i f).length = l.length := by
  simp [upd]

@[simp] theorem length_updWhere {α : Type} (p : α → Bool) (f : α → α) (l : List α) : (updWhere p f l).length = l.length := by
  simp [updWhere]

/-- A fuse word with more bits blown. -/
theorem fuse_or (x y : Nat) : x &&& (x ||| y) = x := by
  apply Nat.eq_of_testBit_eq; intro i; simp; intro h; exact .inl h

/-- The endpoint after a reset of its function, with the exchange area as it was. -/
theorem EpOk.fresh {e : EpState} (m : EpState) (h : EpOk e) (a : m.exchange = e.exchange) (b : m.shadow = List.replicate 128 {})
    (c : m.active = List.replicate 128 {}) (d : m.msix = List.replicate 64 {}) : EpOk m := by
  simp [EpOk, a, b, c, d, h.1]

/-- A fold that carries a state and something else beside it. -/
theorem Keeps.foldl3 {α β γ : Type} {s : State} {p : β × State × γ} {f : β × State × γ → α → β × State × γ} {l : List α}
    (hf : ∀ u x, Keeps s u.2.1 → Keeps s (f u x).2.1) (h : Keeps s p.2.1) : Keeps s (l.foldl f p).2.1 := by
  induction l generalizing p with
  | nil => exact h
  | cons x l ih => exact ih (hf p x h)

/-- The state that a triple names. -/
theorem Keeps.named3 {α γ : Type} {s t : State} {x : α} {z : γ} {p : α × State × γ} (e : p = (x, t, z)) (h : Keeps s p.2.1) :
    Keeps s t := by
  rw [e] at h; exact h

/-- A record joins the event ring, and the oldest leaves a full one. -/
theorem MbxOk.push {m : MbxState} {e : EventRec} (he : e.seq = m.evtHead + 1) (h : MbxOk m) : MbxOk (m.push e) := by
  obtain ⟨hb, hc, hl, hle, hs⟩ := h
  unfold MbxState.push
  generalize hk : 8192 = k at *
  refine ⟨hb, hc, ?_, ?_, ?_⟩
  · simp only [List.length_drop, List.length_append, List.length_cons, List.length_nil]; omega
  · simp only [he, List.length_drop, List.length_append, List.length_cons, List.length_nil]; omega
  · intro i hi
    simp only [List.length_drop, List.length_append, List.length_cons, List.length_nil] at hi
    simp only [he, nth, List.length_drop, List.length_append, List.length_cons, List.length_nil,
      List.getD_eq_getElem?_getD, List.getElem?_drop, List.getElem?_append]
    split
    · rename_i h'
      have := hs (m.events.length + 1 - k + i) (by omega)
      simp only [nth, List.getD_eq_getElem?_getD] at this
      simp only [Nat.zero_add] at *
      rw [this]; omega
    · rename_i h'
      simp only [Nat.zero_add] at *
      rw [show m.events.length + 1 - k + i - m.events.length = 0 by omega]
      simp [he]
      omega

/-- A memory filled by a fold of writes stays canonical. -/
theorem Memory.wf_foldl {α : Type} (f : Memory → α → Memory) (l : List α) (m : Memory)
    (hf : ∀ m x, Memory.wf m = true → Memory.wf (f m x) = true) (h : Memory.wf m = true) :
    Memory.wf (l.foldl f m) = true := by
  induction l generalizing m with
  | nil => exact h
  | cons x l ih => exact ih _ (hf m x h)

end Sys2Proof.Machine
end

