-- ==== Sys2Proof/Laws/Keeps1.lean ====
section
/-! SUPPORT. What the operations of Params, Ops, Layout, Keying, ScrimOps, Units, FlashOps, Stripes, Events, HostCore
keep (Laws/Keeps.lean): one lemma for each. -/

set_option linter.unusedVariables false

namespace Sys2Proof.Machine

/-! ### Params -/

theorem State.putParam_keeps {s t : State} (h : Keeps s t) (a1 a2 a3) : Keeps s (State.putParam t a1 a2 a3) := by
  unfold State.putParam
  try dsimp only
  repeat' first
    | with_reducible assumption | exact id | exact FuseLe.refl _
    | with_reducible refine Keeps.upd ?_ ?_ ?_ ?_ ?_ ?_ ?_ ?_ ?_

theorem State.changeParam_keeps {s t : State} (h : Keeps s t) (a1 a2) : Keeps s (State.changeParam t a1 a2) := by
  unfold State.changeParam
  try dsimp only
  with_reducible repeat' first | assumption | apply State.putParam_keeps

/-! ### Ops -/

theorem State.drew_keeps {s t : State} (h : Keeps s t) : Keeps s t.drew := h.draw 1

theorem State.emit_keeps {s t : State} (h : Keeps s t) (o) : Keeps s (t.emit o) := h.outs _

theorem irqRise_keeps {s t : State} (h : Keeps s t) (a0) : Keeps s (irqRise a0 t) := by
  unfold irqRise
  try dsimp only
  repeat' first
    | with_reducible assumption | with_reducible apply State.emit_keeps | exact id | exact FuseLe.refl _
    | with_reducible refine Keeps.ite ?_ ?_ | with_reducible refine Keeps.upd ?_ ?_ ?_ ?_ ?_ ?_ ?_ ?_ ?_
    | exact EpOk.same rfl (by simp) (by simp) (by simp)

theorem pmeRaise_keeps {s t : State} (h : Keeps s t) : Keeps s (pmeRaise t) := by
  unfold pmeRaise
  try dsimp only
  repeat' first
    | with_reducible assumption | with_reducible apply State.emit_keeps | exact id | exact FuseLe.refl _
    | with_reducible refine Keeps.ite ?_ ?_ | split | with_reducible refine Keeps.upd ?_ ?_ ?_ ?_ ?_ ?_ ?_ ?_ ?_

theorem State.modChan_keeps {s t : State} (h : Keeps s t) (c f) : Keeps s (t.modChan c f) := h.upd (MbxOk.same rfl (by simp) rfl rfl) id (FuseLe.refl _) id id id id id

theorem State.hostWrite_keeps {s t u : State} (h : Keeps s t) (hu : Keeps s u) : Keeps s (t.hostWrite u) := by
  unfold State.hostWrite
  split <;> assumption

theorem State.hostRead_keeps {s t u : State} (h : Keeps s t) (off : Nat) (hu : Keeps s u) :
    Keeps s (t.hostRead off u) := by
  unfold State.hostRead
  split
  · exact hu
  · exact State.emit_keeps h _
  · exact h

/-! ### Layout -/

theorem State.modBay_keeps {s t : State} (h : Keeps s t) (n f) : Keeps s (t.modBay n f) := h.upd id id (FuseLe.refl _) id id (fun e => by simpa using e) id id

theorem State.modGroup_keeps {s t : State} (h : Keeps s t) (g f) : Keeps s (t.modGroup g f) := h.upd id id (FuseLe.refl _) (fun e => by simpa using e) id id id id

/-! ### Keying -/

theorem State.modCiph_keeps {s t : State} (h : Keeps s t) (f) : Keeps s (t.modCiph f) := h.upd id id (FuseLe.refl _) id id id id id

theorem cipherWork_keeps {s t : State} (h : Keeps s t) (a0 a1) : Keeps s (cipherWork a0 a1 t) := by
  unfold cipherWork
  try dsimp only
  with_reducible repeat' first | apply State.modCiph_keeps | exact Keeps.draw (by assumption) _

theorem useKey_keeps {s t : State} (h : Keeps s t) (a0) : Keeps s (useKey a0 t) := by
  unfold useKey
  try dsimp only
  with_reducible repeat' first | assumption | apply State.modCiph_keeps | refine Keeps.ite ?_ ?_

theorem drawRandom_keeps {s t : State} (h : Keeps s t) : Keeps s (drawRandom t) := by
  unfold drawRandom
  try dsimp only
  with_reducible repeat' first | assumption | apply State.modCiph_keeps | apply State.drew_keeps

theorem setLabel_keeps {s t : State} (h : Keeps s t) (a0 a1) : Keeps s (setLabel a0 a1 t) := by
  unfold setLabel
  try dsimp only
  with_reducible repeat' first | assumption | apply State.modCiph_keeps

/-! ### ScrimOps -/

theorem frameCipher_keeps {s t : State} (h : Keeps s t) (a0) : Keeps s (frameCipher a0 t) := by
  unfold frameCipher
  try dsimp only
  with_reducible repeat' first | assumption | apply cipherWork_keeps

theorem State.modScrim_keeps {s t : State} (h : Keeps s t) (f) (hf : t.scrim.adjs.length = 4 → (f t.scrim).adjs.length = 4) : Keeps s (t.modScrim f) := h.upd id id (FuseLe.refl _) id id id id hf

theorem State.modAdj_keeps {s t : State} (h : Keeps s t) (p f) : Keeps s (t.modAdj p f) := State.modScrim_keeps h _ fun e => by simpa using e

theorem sealOn_keeps {s t : State} (h : Keeps s t) (a0) : Keeps s (sealOn a0 t) := by
  unfold sealOn
  try dsimp only
  with_reducible repeat' first | assumption | apply useKey_keeps | apply State.modAdj_keeps

theorem sendOn_keeps {s t : State} (h : Keeps s t) (a0 a1) : Keeps s (sendOn a0 a1 t) := by
  unfold sendOn
  try dsimp only
  with_reducible repeat' first
    | assumption | apply frameCipher_keeps | apply sealOn_keeps | apply State.emit_keeps | refine Keeps.ite ?_ ?_

theorem countScrim_keeps {s t : State} (h : Keeps s t) (a0) : Keeps s (countScrim a0 t) := by
  unfold countScrim
  try dsimp only
  repeat' first | with_reducible assumption | with_reducible apply State.modScrim_keeps | exact id

theorem scrimSend_keeps {s t : State} (h : Keeps s t) (a0 a1 a2 a3 a4) : Keeps s (scrimSend a0 a1 a2 a3 a4 t) := by
  unfold scrimSend
  try dsimp only
  with_reducible repeat' first
    | assumption | apply sendOn_keeps | apply countScrim_keeps | refine Keeps.ite ?_ ?_ | split

theorem setScrimEvt_keeps {s t : State} (h : Keeps s t) (a0) : Keeps s (setScrimEvt a0 t) := by
  unfold setScrimEvt
  try dsimp only
  repeat' first | with_reducible assumption | with_reducible apply State.modScrim_keeps | exact id

theorem sendDev_keeps {s t : State} (h : Keeps s t) (a0 a1 a2 a3) : Keeps s (sendDev a0 a1 a2 a3 t) := by
  unfold sendDev
  try dsimp only
  with_reducible repeat' first | assumption | apply scrimSend_keeps | apply countScrim_keeps | split

theorem toPartner_keeps {s t : State} (h : Keeps s t) (a0 a1 a2) : Keeps s (toPartner a0 a1 a2 t) := by
  unfold toPartner
  try dsimp only
  with_reducible repeat' first | assumption | apply sendDev_keeps

theorem flood_keeps {s t : State} (h : Keeps s t) (a0 a1 a2) : Keeps s (flood a0 a1 a2 t) := by
  unfold flood
  try dsimp only
  with_reducible repeat' first
    | assumption | apply sendOn_keeps | refine Keeps.ite ?_ ?_ | (refine Keeps.foldl (fun u x hu => ?_) ?_)

theorem sendPlain_keeps {s t : State} (h : Keeps s t) (a0 a1 a2) : Keeps s (sendPlain a0 a1 a2 t) := by
  unfold sendPlain
  try dsimp only
  with_reducible repeat' first | assumption | apply State.emit_keeps

/-! ### Units -/

theorem State.modNs_keeps {s t : State} (h : Keeps s t) (n f) : Keeps s (t.modNs n f) := h.upd id id (FuseLe.refl _) id id id id id

theorem useNsKeys_keeps {s t : State} (h : Keeps s t) (a0 a1 a2) : Keeps s (useNsKeys a0 a1 a2 t) := by
  unfold useNsKeys
  try dsimp only
  with_reducible repeat' first | assumption | apply cipherWork_keeps | apply useKey_keeps | refine Keeps.ite ?_ ?_

/-! ### FlashOps -/

theorem State.modFlash_keeps {s t : State} (h : Keeps s t) (f) (hf : t.flash.bays.length = 24 → (f t.flash).bays.length = 24) : Keeps s (t.modFlash f) := h.upd id id (FuseLe.refl _) id id hf id id

theorem State.modDie_keeps {s t : State} (h : Keeps s t) (b d f) : Keeps s (t.modDie b d f) := h.upd id id (FuseLe.refl _) id id id id id

theorem enqueue_keeps {s t : State} (h : Keeps s t) (a0) : Keeps s (enqueue a0 t) := by
  unfold enqueue
  try dsimp only
  repeat' first
    | with_reducible assumption | with_reducible apply State.modFlash_keeps | with_reducible apply State.drew_keeps
    | exact id | split

theorem State.modOp_keeps {s t : State} (h : Keeps s t) (n f) : Keeps s (t.modOp n f) := h.upd id id (FuseLe.refl _) id id id id id

theorem markBegun_keeps {s t : State} (h : Keeps s t) (a0) : Keeps s (markBegun a0 t) := by
  unfold markBegun
  try dsimp only
  repeat' first
    | with_reducible assumption | exact id | exact FuseLe.refl _ | split
    | with_reducible refine Keeps.upd ?_ ?_ ?_ ?_ ?_ ?_ ?_ ?_ ?_

theorem submit_keeps {s t : State} (h : Keeps s t) (a0) : Keeps s (submit a0 t) := by
  unfold submit
  try dsimp only
  with_reducible repeat' first
    | assumption | apply State.modBay_keeps | apply State.modOp_keeps | apply markBegun_keeps
    | apply State.emit_keeps | split

theorem submitNow_keeps {s t : State} (h : Keeps s t) (a0) : Keeps s (submitNow a0 t) := by
  unfold submitNow
  try dsimp only
  with_reducible repeat' first | assumption | apply enqueue_keeps | apply submit_keeps | refine Keeps.ite ?_ ?_

theorem quarantine_keeps {s t : State} (h : Keeps s t) (a0) : Keeps s (quarantine a0 t) := by
  unfold quarantine
  try dsimp only
  with_reducible repeat' first | assumption | apply State.modOp_keeps

theorem State.freeOp_keeps {s t : State} (h : Keeps s t) (a1) : Keeps s (State.freeOp t a1) := by
  unfold State.freeOp
  try dsimp only
  repeat' first | with_reducible assumption | with_reducible apply State.modFlash_keeps | exact id

theorem suspendDie_keeps {s t : State} (h : Keeps s t) (a0 a1 a2) : Keeps s (suspendDie a0 a1 a2 t) := by
  unfold suspendDie
  try dsimp only
  with_reducible repeat' first
    | assumption | apply submitNow_keeps | apply State.modDie_keeps | apply State.modGroup_keeps

theorem revokePeer_keeps {s t : State} (h : Keeps s t) (a0) : Keeps s (revokePeer a0 t) := by
  unfold revokePeer
  try dsimp only
  repeat' first
    | with_reducible assumption | with_reducible apply State.modFlash_keeps | exact id
    | with_reducible refine Keeps.ite ?_ ?_

theorem startOn_keeps {s t : State} (h : Keeps s t) (a0) : Keeps s (startOn a0 t) := by
  unfold startOn
  try dsimp only
  with_reducible repeat' first
    | assumption | apply revokePeer_keeps | apply submit_keeps | apply State.modDie_keeps | refine Keeps.ite ?_ ?_
    | split

theorem chargeRebuild_keeps {s t : State} (h : Keeps s t) (a0 a1) : Keeps s (chargeRebuild a0 a1 t) := by
  unfold chargeRebuild
  try dsimp only
  with_reducible repeat' first | assumption | apply State.modGroup_keeps | refine Keeps.ite ?_ ?_ | split

theorem startCharged_keeps {s t : State} (h : Keeps s t) (a0 a1) : Keeps s (startCharged a0 a1 t) := by
  unfold startCharged
  try dsimp only
  with_reducible repeat' first | assumption | apply startOn_keeps | apply chargeRebuild_keeps

theorem resumeDie_keeps {s t : State} (h : Keeps s t) (a0 a1) : Keeps s (resumeDie a0 a1 t) := by
  unfold resumeDie
  try dsimp only
  with_reducible repeat' first
    | assumption | apply submitNow_keeps | apply State.modDie_keeps | apply State.modOp_keeps | split

theorem suspendedDispatch_keeps {s t : State} (h : Keeps s t) (a0 a1 a2 a3 a4 a5) : Keeps s (suspendedDispatch a0 a1 a2 a3 a4 a5 t) := by
  unfold suspendedDispatch
  try dsimp only
  with_reducible repeat' first
    | assumption | apply startCharged_keeps | apply resumeDie_keeps | apply State.modDie_keeps
    | refine Keeps.ite ?_ ?_ | split

theorem dieDispatch_keeps {s t : State} (h : Keeps s t) (a0 a1) : Keeps s (dieDispatch a0 a1 t) := by
  unfold dieDispatch
  try dsimp only
  with_reducible repeat' first
    | assumption | apply submit_keeps | apply suspendedDispatch_keeps | apply startCharged_keeps
    | apply resumeDie_keeps | apply State.modDie_keeps | refine Keeps.ite ?_ ?_ | split

/-! ### Stripes -/

theorem putSlot_keeps {s t : State} (h : Keeps s t) (a0) : Keeps s (putSlot a0 t).2 := by
  unfold putSlot
  try dsimp only
  repeat' first
    | with_reducible assumption | with_reducible apply State.modFlash_keeps | with_reducible apply State.drew_keeps
    | exact id

theorem chunkSources_keeps {s t : State} (h : Keeps s t) (a0 a1 a2) : Keeps s (chunkSources a0 a1 a2 t).2 := by
  unfold chunkSources
  try dsimp only
  with_reducible repeat' first
    | assumption | apply putSlot_keeps | (refine Keeps.foldlPair (fun u x hu => ?_) ?_) | split

theorem foldDieParity_keeps {s t : State} (h : Keeps s t) (a0 a1 a2 a3 a4) : Keeps s (foldDieParity a0 a1 a2 a3 a4 t) := by
  unfold foldDieParity
  try dsimp only
  with_reducible repeat' first
    | assumption | apply State.modGroup_keeps | apply putSlot_keeps | apply enqueue_keeps | refine Keeps.ite ?_ ?_
    | (refine Keeps.foldlPair (fun u x hu => ?_) ?_) | split

theorem queueErase_keeps {s t : State} (h : Keeps s t) (a0 a1 a2 a3 a4 a5) : Keeps s (queueErase a0 a1 a2 a3 a4 a5 t) := by
  unfold queueErase
  try dsimp only
  with_reducible repeat' first | assumption | apply enqueue_keeps

theorem queueProgram_keeps {s t : State} (h : Keeps s t) (a0 a1 a2 a3 a4 a5) : Keeps s (queueProgram a0 a1 a2 a3 a4 a5 t) := by
  unfold queueProgram
  try dsimp only
  with_reducible repeat' first
    | assumption | apply queueErase_keeps | apply State.modGroup_keeps | apply enqueue_keeps
    | refine Keeps.ite ?_ ?_

theorem formChunk_keeps {s t : State} (h : Keeps s t) (a0 a1 a2 a4) : Keeps s (formChunk a0 a1 a2 t a4) := by
  unfold formChunk
  try dsimp only
  with_reducible repeat' first
    | assumption | apply State.modGroup_keeps | apply chunkSources_keeps | apply foldDieParity_keeps
    | apply queueProgram_keeps | refine Keeps.ite ?_ ?_ | refine Keeps.ite2 ?_ ?_

theorem formStripe_keeps {s t : State} (h : Keeps s t) (a0 a1 a2) : Keeps s (formStripe a0 a1 a2 t) := by
  unfold formStripe
  try dsimp only
  with_reducible repeat' first
    | assumption | apply putSlot_keeps | apply State.modGroup_keeps | apply formChunk_keeps | refine Keeps.ite ?_ ?_
    | refine Keeps.ite2 ?_ ?_ | (refine Keeps.foldl (fun u x hu => ?_) ?_)
    | (refine Keeps.foldlPair (fun u x hu => ?_) ?_) | split

theorem dropPlaces_keeps {s t : State} (h : Keeps s t) (a0 a1) : Keeps s (dropPlaces a0 a1 t) := by
  unfold dropPlaces
  try dsimp only
  with_reducible repeat' first
    | assumption | apply formStripe_keeps | apply State.modGroup_keeps | (refine Keeps.foldl (fun u x hu => ?_) ?_)

theorem addValid_keeps {s t : State} (h : Keeps s t) (a0 a1 a2) : Keeps s (addValid a0 a1 a2 t) := by
  unfold addValid
  try dsimp only
  with_reducible repeat' first | assumption | apply State.modGroup_keeps

theorem State.freeSlot_keeps {s t : State} (h : Keeps s t) (a1) : Keeps s (State.freeSlot t a1) := by
  unfold State.freeSlot
  try dsimp only
  repeat' first | with_reducible assumption | with_reducible apply State.modFlash_keeps | exact id

theorem placeAt_keeps {s t : State} (h : Keeps s t) (a0 a1 a2 a3 a4 a5 a6) : Keeps s (placeAt a0 a1 a2 a3 a4 a5 a6 t) := by
  unfold placeAt
  try dsimp only
  with_reducible repeat' first | assumption | apply State.modGroup_keeps

theorem closeStripe_keeps {s t : State} (h : Keeps s t) (a0 a1 a2) : Keeps s (closeStripe a0 a1 a2 t) := by
  unfold closeStripe
  try dsimp only
  with_reducible repeat' first | assumption | apply State.modGroup_keeps | apply formStripe_keeps

theorem closeFor_keeps {s t : State} (h : Keeps s t) (a0 a1) : Keeps s (closeFor a0 a1 t) := by
  unfold closeFor
  try dsimp only
  with_reducible repeat' first
    | assumption | apply closeStripe_keeps | refine Keeps.ite ?_ ?_ | (refine Keeps.foldl (fun u x hu => ?_) ?_)
    | split

theorem landCopy_keeps {s t : State} (h : Keeps s t) (a0 a1 a2) : Keeps s (landCopy a0 a1 a2 t) := by
  unfold landCopy
  try dsimp only
  with_reducible repeat' first | assumption | apply formStripe_keeps | apply State.modGroup_keeps

theorem State.modSlot_keeps {s t : State} (h : Keeps s t) (n f) : Keeps s (t.modSlot n f) := h.upd id id (FuseLe.refl _) id id id id id

/-! ### Events -/

theorem evtIrq_keeps {s t : State} (h : Keeps s t) : Keeps s (evtIrq t) := by
  unfold evtIrq
  try dsimp only
  repeat' first
    | with_reducible assumption | with_reducible apply irqRise_keeps | exact id | exact FuseLe.refl _
    | with_reducible refine Keeps.ite ?_ ?_ | with_reducible refine Keeps.upd ?_ ?_ ?_ ?_ ?_ ?_ ?_ ?_ ?_

theorem State.unqueue_keeps {s t : State} (h : Keeps s t) (a1) : Keeps s (State.unqueue t a1) := by
  unfold State.unqueue
  try dsimp only
  repeat' first
    | with_reducible assumption | exact id | exact FuseLe.refl _
    | with_reducible refine Keeps.upd ?_ ?_ ?_ ?_ ?_ ?_ ?_ ?_ ?_

theorem deliver_keeps {s t : State} (h : Keeps s t) (a0 a1) : Keeps s (deliver a0 a1 t) := by
  unfold deliver
  try dsimp only
  repeat' first
    | with_reducible assumption | with_reducible apply State.unqueue_keeps
    | with_reducible apply State.modChan_keeps | with_reducible apply pmeRaise_keeps
    | with_reducible apply irqRise_keeps | with_reducible apply State.emit_keeps
    | with_reducible apply scrimSend_keeps | exact fun e => ⟨wf_writeArea _ _ _ e.1, e.2⟩ | exact id
    | exact FuseLe.refl _ | with_reducible refine Keeps.ite ?_ ?_
    | with_reducible refine Keeps.upd ?_ ?_ ?_ ?_ ?_ ?_ ?_ ?_ ?_

theorem answer_keeps {s t : State} (h : Keeps s t) (a0 a1 a2 a3) : Keeps s (answer a0 a1 a2 a3 t) := by
  unfold answer
  try dsimp only
  with_reducible repeat' first | assumption | apply deliver_keeps

theorem serveWait_keeps {s t : State} (h : Keeps s t) (a0) : Keeps s (serveWait a0 t) := by
  unfold serveWait
  try dsimp only
  with_reducible repeat' first | assumption | apply answer_keeps | refine Keeps.ite ?_ ?_

theorem serveWaits_keeps {s t : State} (h : Keeps s t) : Keeps s (serveWaits t) := by
  unfold serveWaits
  try dsimp only
  with_reducible repeat' first | assumption | apply serveWait_keeps | (refine Keeps.foldl (fun u x hu => ?_) ?_)

theorem raiseOnly_keeps {s t : State} (h : Keeps s t) (a0 a1 a2 a3) : Keeps s (raiseOnly a0 a1 a2 a3 t) := by
  unfold raiseOnly
  try dsimp only
  repeat' first
    | with_reducible assumption | with_reducible apply evtIrq_keeps | with_reducible apply pmeRaise_keeps
    | with_reducible apply serveWaits_keeps | exact fun e => MbxOk.push rfl e | exact id | exact FuseLe.refl _
    | with_reducible refine Keeps.ite ?_ ?_ | with_reducible refine Keeps.upd ?_ ?_ ?_ ?_ ?_ ?_ ?_ ?_ ?_

theorem bbxAccept_keeps {s t : State} (h : Keeps s t) (a0) : Keeps s (bbxAccept a0 t) := by
  unfold bbxAccept
  try dsimp only
  repeat' first
    | with_reducible assumption | exact id | exact FuseLe.refl _
    | with_reducible refine Keeps.upd ?_ ?_ ?_ ?_ ?_ ?_ ?_ ?_ ?_

theorem bbx_keeps {s t : State} (h : Keeps s t) (a0 a1 a2 a3 a4) : Keeps s (bbx a0 a1 a2 a3 a4 t) := by
  unfold bbx
  try dsimp only
  repeat' first
    | with_reducible assumption | with_reducible apply raiseOnly_keeps | with_reducible apply bbxAccept_keeps
    | exact id | exact FuseLe.refl _ | with_reducible refine Keeps.ite ?_ ?_ | split
    | with_reducible refine Keeps.upd ?_ ?_ ?_ ?_ ?_ ?_ ?_ ?_ ?_

theorem raise_keeps {s t : State} (h : Keeps s t) (a0 a1 a2 a3) : Keeps s (raise a0 a1 a2 a3 t) := by
  unfold raise
  try dsimp only
  with_reducible repeat' first | assumption | apply raiseOnly_keeps | apply bbx_keeps | refine Keeps.ite ?_ ?_

/-! ### HostCore -/

theorem State.modHost_keeps {s t : State} (h : Keeps s t) (f) : Keeps s (t.modHost f) := h.upd id id (FuseLe.refl _) id id id id id

theorem freeCmd_keeps {s t : State} (h : Keeps s t) (a0) : Keeps s (freeCmd a0 t) := by
  unfold freeCmd
  try dsimp only
  with_reducible repeat' first | assumption | apply State.modHost_keeps

theorem dropFlash_keeps {s t : State} (h : Keeps s t) (a0) : Keeps s (dropFlash a0 t) := by
  unfold dropFlash
  try dsimp only
  repeat' first | with_reducible assumption | with_reducible apply State.modFlash_keeps | exact id

theorem dropRun_keeps {s t : State} (h : Keeps s t) (a0) : Keeps s (dropRun a0 t) := by
  unfold dropRun
  try dsimp only
  with_reducible repeat' first | assumption | apply dropPlaces_keeps | refine Keeps.ite ?_ ?_ | split

theorem toHost_keeps {s t : State} (h : Keeps s t) (a0 a1 a2 a3) : Keeps s (toHost a0 a1 a2 a3 t) := by
  unfold toHost
  try dsimp only
  with_reducible repeat' first
    | assumption | apply State.emit_keeps | apply State.modCiph_keeps | apply cipherWork_keeps | apply useKey_keeps
    | split

theorem postCpl_keeps {s t : State} (h : Keeps s t) (a0 a1 a2 a3 a4 a5 a6 a7) : Keeps s (postCpl a0 a1 a2 a3 a4 a5 a6 a7 t) := by
  unfold postCpl
  try dsimp only
  with_reducible repeat' first | assumption | apply toHost_keeps

theorem complete_keeps {s t : State} (h : Keeps s t) (a0 a1 a2 a3 a4) : Keeps s (complete a0 a1 a2 a3 a4 t) := by
  unfold complete
  try dsimp only
  with_reducible repeat' first
    | assumption | apply freeCmd_keeps | apply dropFlash_keeps | apply dropRun_keeps | apply postCpl_keeps
    | refine Keeps.ite ?_ ?_ | split

theorem zoneBack_keeps {s t : State} (h : Keeps s t) (a0) : Keeps s (zoneBack a0 t) := by
  unfold zoneBack
  try dsimp only
  with_reducible repeat' first
    | assumption | apply addValid_keeps | apply State.modNs_keeps | refine Keeps.ite ?_ ?_
    | (refine Keeps.foldl (fun u x hu => ?_) ?_) | split

theorem endGroupCmds_keeps {s t : State} (h : Keeps s t) (a0 a1) : Keeps s (endGroupCmds a0 a1 t) := by
  unfold endGroupCmds
  try dsimp only
  with_reducible repeat' first
    | assumption | apply complete_keeps | apply zoneBack_keeps | (refine Keeps.foldl (fun u x hu => ?_) ?_)

theorem answerAdmin_keeps {s t : State} (h : Keeps s t) (a0 a1 a2 a3 a4 a5) : Keeps s (answerAdmin a0 a1 a2 a3 a4 a5 t) := by
  unfold answerAdmin
  try dsimp only
  with_reducible repeat' first | assumption | apply postCpl_keeps | refine Keeps.ite ?_ ?_

theorem State.modAssoc_keeps {s t : State} (h : Keeps s t) (n f) : Keeps s (t.modAssoc n f) := h.upd id id (FuseLe.refl _) id id id id id

theorem notice_keeps {s t : State} (h : Keeps s t) (a0 a1 a2 a3) : Keeps s (notice a0 a1 a2 a3 t) := by
  unfold notice
  try dsimp only
  with_reducible repeat' first
    | assumption | apply answerAdmin_keeps | apply State.modAssoc_keeps | refine Keeps.ite ?_ ?_ | split

theorem noticeAll_keeps {s t : State} (h : Keeps s t) (a0 a1 a2 a3) : Keeps s (noticeAll a0 a1 a2 a3 t) := by
  unfold noticeAll
  try dsimp only
  with_reducible repeat' first | assumption | apply notice_keeps | (refine Keeps.foldl (fun u x hu => ?_) ?_)

theorem anaRefresh_keeps {s t : State} (h : Keeps s t) : Keeps s (anaRefresh t) := by
  unfold anaRefresh
  try dsimp only
  with_reducible repeat' first
    | assumption | apply State.modHost_keeps | apply noticeAll_keeps | apply endGroupCmds_keeps
    | refine Keeps.ite ?_ ?_ | (refine Keeps.foldl (fun u x hu => ?_) ?_)

theorem purgeHawk_keeps {s t : State} (h : Keeps s t) (a0) : Keeps s (purgeHawk a0 t) := by
  unfold purgeHawk
  try dsimp only
  repeat' first
    | with_reducible assumption | with_reducible apply State.modFlash_keeps
    | with_reducible apply State.modHost_keeps | exact id

theorem smartSpent_keeps {s t : State} (h : Keeps s t) : Keeps s (smartSpent t) := by
  unfold smartSpent
  try dsimp only
  with_reducible repeat' first
    | assumption | apply State.modHost_keeps | apply noticeAll_keeps | refine Keeps.ite ?_ ?_

theorem nsChangedFor_keeps {s t : State} (h : Keeps s t) (a0 a1) : Keeps s (nsChangedFor a0 a1 t) := by
  unfold nsChangedFor
  try dsimp only
  with_reducible repeat' first | assumption | apply State.modHost_keeps | apply noticeAll_keeps

theorem nsChanged_keeps {s t : State} (h : Keeps s t) (a0) : Keeps s (nsChanged a0 t) := by
  unfold nsChanged
  try dsimp only
  with_reducible repeat' first | assumption | apply nsChangedFor_keeps

theorem zoneFilled_keeps {s t : State} (h : Keeps s t) (a0) : Keeps s (zoneFilled a0 t) := by
  unfold zoneFilled
  try dsimp only
  with_reducible repeat' first | assumption | apply State.modNs_keeps | refine Keeps.ite ?_ ?_ | split

theorem postOne_keeps {s t : State} (h : Keeps s t) (a1) : Keeps s (postOne t a1) := by
  unfold postOne
  try dsimp only
  with_reducible repeat' first
    | assumption | apply complete_keeps | apply zoneFilled_keeps | refine Keeps.ite ?_ ?_ | split

theorem postWrites_keeps {s t : State} (h : Keeps s t) : Keeps s (postWrites t) := by
  unfold postWrites
  try dsimp only
  with_reducible repeat' first | assumption | apply postOne_keeps | (refine Keeps.foldl (fun u x hu => ?_) ?_)

theorem State.modCmd_keeps {s t : State} (h : Keeps s t) (n f) : Keeps s (t.modCmd n f) := h.upd id id (FuseLe.refl _) id id id id id

theorem markFailed_keeps {s t : State} (h : Keeps s t) (a0 a1 a2 a4) : Keeps s (markFailed a0 a1 a2 t a4) := by
  unfold markFailed
  try dsimp only
  with_reducible repeat' first | assumption | apply dropFlash_keeps | apply dropRun_keeps | apply State.modCmd_keeps

theorem zoneFailed_keeps {s t : State} (h : Keeps s t) (a0) : Keeps s (zoneFailed a0 t) := by
  unfold zoneFailed
  try dsimp only
  with_reducible repeat' first
    | assumption | apply zoneBack_keeps | apply markFailed_keeps | refine Keeps.ite ?_ ?_
    | (refine Keeps.foldl (fun u x hu => ?_) ?_) | split

theorem failCmd_keeps {s t : State} (h : Keeps s t) (a0 a1 a2 a3) : Keeps s (failCmd a0 a1 a2 a3 t) := by
  unfold failCmd
  try dsimp only
  with_reducible repeat' first
    | assumption | apply postWrites_keeps | apply zoneFailed_keeps | apply markFailed_keeps | apply complete_keeps
    | refine Keeps.ite ?_ ?_ | split

theorem keyFail_keeps {s t : State} (h : Keeps s t) (a0 a1 a2) : Keeps s (keyFail a0 a1 a2 t) := by
  unfold keyFail
  try dsimp only
  with_reducible repeat' first
    | assumption | apply failCmd_keeps | apply State.modCiph_keeps | apply bbx_keeps | apply State.drew_keeps
    | refine Keeps.ite ?_ ?_

theorem State.modSess_keeps {s t : State} (h : Keeps s t) (n f) : Keeps s (t.modSess n f) := h.upd id id (FuseLe.refl _) id id id id id

theorem sendData_keeps {s t : State} (h : Keeps s t) (a0 a1 a2 a3 a4) : Keeps s (sendData a0 a1 a2 a3 a4 t) := by
  unfold sendData
  try dsimp only
  with_reducible repeat' first | assumption | apply toHost_keeps

theorem turnChanged_keeps {s t : State} (h : Keeps s t) : Keeps s (turnChanged t) := by
  unfold turnChanged
  try dsimp only
  repeat' first
    | with_reducible assumption | with_reducible apply anaRefresh_keeps | exact id | exact FuseLe.refl _
    | with_reducible refine Keeps.upd ?_ ?_ ?_ ?_ ?_ ?_ ?_ ?_ ?_ | exact fun e => by simpa using e

theorem discoveryChanged_keeps {s t : State} (h : Keeps s t) : Keeps s (discoveryChanged t) := by
  unfold discoveryChanged
  try dsimp only
  with_reducible repeat' first | assumption | apply noticeAll_keeps | apply State.modHost_keeps

theorem noticeGroup_keeps {s t : State} (h : Keeps s t) (a0 a1 a2 a3) : Keeps s (noticeGroup a0 a1 a2 a3 t) := by
  unfold noticeGroup
  try dsimp only
  with_reducible repeat' first | assumption | apply noticeAll_keeps

end Sys2Proof.Machine
end

