-- ==== Sys2Proof/Laws/Keeps2.lean ====
section
/-! SUPPORT. What the operations of Journal, Faults, WitnessOps, Roles, Placement, ReadPath, Writes keep
(Laws/Keeps.lean): one lemma for each. -/

set_option linter.unusedVariables false

namespace Sys2Proof.Machine

/-! ### Journal -/

theorem journal_keeps {s t : State} (h : Keeps s t) (a0 a1 a2) : Keeps s (journal a0 a1 a2 t) := by
  unfold journal
  try dsimp only
  with_reducible repeat' first
    | assumption | apply State.modGroup_keeps | apply toPartner_keeps | refine Keeps.ite ?_ ?_

theorem tellLost_keeps {s t : State} (h : Keeps s t) (a0) : Keeps s (tellLost a0 t) := by
  unfold tellLost
  try dsimp only
  with_reducible repeat' first | assumption | apply raise_keeps | apply State.modGroup_keeps | refine Keeps.ite ?_ ?_

theorem setHealth_keeps {s t : State} (h : Keeps s t) (a0 a1 a2) : Keeps s (setHealth a0 a1 a2 t) := by
  unfold setHealth
  try dsimp only
  with_reducible repeat' first
    | assumption | apply anaRefresh_keeps | apply raise_keeps | apply State.modGroup_keeps | refine Keeps.ite ?_ ?_

theorem lostChanged_keeps {s t : State} (h : Keeps s t) (a0) : Keeps s (lostChanged a0 t) := by
  unfold lostChanged
  try dsimp only
  with_reducible repeat' first | assumption | apply State.modGroup_keeps

theorem addLost_keeps {s t : State} (h : Keeps s t) (a0 a1) : Keeps s (addLost a0 a1 t) := by
  unfold addLost
  try dsimp only
  with_reducible repeat' first
    | assumption | apply setHealth_keeps | apply purgeHawk_keeps | apply State.modGroup_keeps
    | apply State.modHost_keeps | apply journal_keeps | apply lostChanged_keeps | apply noticeAll_keeps
    | apply raise_keeps | refine Keeps.ite ?_ ?_

theorem chooseImageBays_keeps {s t : State} (h : Keeps s t) : Keeps s (chooseImageBays t) := by
  unfold chooseImageBays
  try dsimp only
  with_reducible repeat' first | assumption | apply raise_keeps | refine Keeps.ite ?_ ?_ | split

theorem journalMember_keeps {s t : State} (h : Keeps s t) (a0 a1) : Keeps s (journalMember a0 a1 t) := by
  unfold journalMember
  try dsimp only
  with_reducible repeat' first | assumption | apply chooseImageBays_keeps | apply journal_keeps

theorem unlose_keeps {s t : State} (h : Keeps s t) (a0 a1) : Keeps s (unlose a0 a1 t) := by
  unfold unlose
  try dsimp only
  with_reducible repeat' first
    | assumption | apply State.modGroup_keeps | apply journal_keeps | apply lostChanged_keeps
    | (refine Keeps.foldl (fun u x hu => ?_) ?_) | split

theorem mirrorNs_keeps {s t : State} (h : Keeps s t) (a0 a1) : Keeps s (mirrorNs a0 a1 t) := by
  unfold mirrorNs
  try dsimp only
  with_reducible repeat' first | assumption | apply toPartner_keeps | refine Keeps.ite ?_ ?_ | split

theorem loseUnit_keeps {s t : State} (h : Keeps s t) (a0 a1 a2) : Keeps s (loseUnit a0 a1 a2 t) := by
  unfold loseUnit
  try dsimp only
  with_reducible repeat' first | assumption | apply addLost_keeps | refine Keeps.ite ?_ ?_

/-! ### Faults -/

theorem closeFault_keeps {s t : State} (h : Keeps s t) (a0) : Keeps s (closeFault a0 t) := by
  unfold closeFault
  try dsimp only
  repeat' first
    | with_reducible assumption | with_reducible apply raise_keeps | with_reducible apply State.modScrim_keeps
    | exact id

theorem evictFault_keeps {s t : State} (h : Keeps s t) : Keeps s (evictFault t) := by
  unfold evictFault
  try dsimp only
  with_reducible repeat' first
    | assumption | apply countScrim_keeps | apply closeFault_keeps | refine Keeps.ite ?_ ?_ | split

theorem faultSeen_keeps {s t : State} (h : Keeps s t) (a0 a1 a2) : Keeps s (faultSeen a0 a1 a2 t) := by
  unfold faultSeen
  try dsimp only
  repeat' first
    | with_reducible assumption | with_reducible apply State.modScrim_keeps | with_reducible apply evictFault_keeps
    | with_reducible apply flood_keeps | exact id | split

theorem originate_keeps {s t : State} (h : Keeps s t) (a0 a1 a2) : Keeps s (originate a0 a1 a2 t) := by
  unfold originate
  try dsimp only
  with_reducible repeat' first | assumption | apply faultSeen_keeps

theorem reportFault_keeps {s t : State} (h : Keeps s t) (a0 a1) : Keeps s (reportFault a0 a1 t) := by
  unfold reportFault
  try dsimp only
  repeat' first
    | with_reducible assumption | with_reducible apply originate_keeps | with_reducible apply State.modScrim_keeps
    | exact id | with_reducible refine Keeps.ite ?_ ?_

theorem reportDev_keeps {s t : State} (h : Keeps s t) (a0 a1) : Keeps s (reportDev a0 a1 t) := by
  unfold reportDev
  try dsimp only
  with_reducible repeat' first | assumption | apply reportFault_keeps | split

theorem faultReportRx_keeps {s t : State} (h : Keeps s t) (a0 a1) : Keeps s (faultReportRx a0 a1 t) := by
  unfold faultReportRx
  try dsimp only
  with_reducible repeat' first | assumption | apply faultSeen_keeps | refine Keeps.ite ?_ ?_

theorem clearFault_keeps {s t : State} (h : Keeps s t) (a0 a1) : Keeps s (clearFault a0 a1 t) := by
  unfold clearFault
  try dsimp only
  repeat' first | with_reducible assumption | with_reducible apply State.modScrim_keeps | exact id

theorem clearDev_keeps {s t : State} (h : Keeps s t) (a0 a1) : Keeps s (clearDev a0 a1 t) := by
  unfold clearDev
  try dsimp only
  with_reducible repeat' first | assumption | apply clearFault_keeps | split

theorem faultWindowExpiry_keeps {s t : State} (h : Keeps s t) (a0 a1) : Keeps s (faultWindowExpiry a0 a1 t) := by
  unfold faultWindowExpiry
  try dsimp only
  with_reducible repeat' first | assumption | apply closeFault_keeps | split

theorem faultRepeat_keeps {s t : State} (h : Keeps s t) (a0 a1) : Keeps s (faultRepeat a0 a1 t) := by
  unfold faultRepeat
  try dsimp only
  with_reducible repeat' first | assumption | apply originate_keeps | refine Keeps.ite ?_ ?_

/-! ### WitnessOps -/

theorem nextTag_keeps {s t : State} (h : Keeps s t) : Keeps s (nextTag t) := by
  unfold nextTag
  try dsimp only
  repeat' first | with_reducible assumption | with_reducible apply State.modScrim_keeps | exact id

theorem sendMp_keeps {s t : State} (h : Keeps s t) (a0 a1 a2 a3) : Keeps s (sendMp a0 a1 a2 a3 t) := by
  unfold sendMp
  try dsimp only
  repeat' first
    | with_reducible assumption | with_reducible apply State.emit_keeps | exact id | exact FuseLe.refl _ | split
    | with_reducible refine Keeps.upd ?_ ?_ ?_ ?_ ?_ ?_ ?_ ?_ ?_

theorem toWitnesses_keeps {s t : State} (h : Keeps s t) (a0 a1 a2) : Keeps s (toWitnesses a0 a1 a2 t) := by
  unfold toWitnesses
  try dsimp only
  with_reducible repeat' first
    | assumption | apply sendMp_keeps | apply sendDev_keeps | (refine Keeps.foldl (fun u x hu => ?_) ?_)

theorem renewLease_keeps {s t : State} (h : Keeps s t) (a0) : Keeps s (renewLease a0 t) := by
  unfold renewLease
  try dsimp only
  with_reducible repeat' first
    | assumption | apply nextTag_keeps | apply State.modGroup_keeps | apply toPartner_keeps
    | apply toWitnesses_keeps

theorem sendHand_keeps {s t : State} (h : Keeps s t) (a0 a1 a2 a3 a4) : Keeps s (sendHand a0 a1 a2 a3 a4 t) := by
  unfold sendHand
  try dsimp only
  with_reducible repeat' first | assumption | apply toPartner_keeps

theorem sendOffer_keeps {s t : State} (h : Keeps s t) (a0) : Keeps s (sendOffer a0 t) := by
  unfold sendOffer
  try dsimp only
  with_reducible repeat' first
    | assumption | apply nextTag_keeps | apply State.modGroup_keeps | apply sendHand_keeps | refine Keeps.ite ?_ ?_
    | split

/-! ### Roles -/

theorem actOnWake_keeps {s t : State} (h : Keeps s t) (a0) : Keeps s (actOnWake a0 t) := by
  unfold actOnWake
  try dsimp only
  repeat' first
    | with_reducible assumption | with_reducible apply raise_keeps | exact id | exact FuseLe.refl _
    | with_reducible refine Keeps.ite ?_ ?_ | split | with_reducible refine Keeps.upd ?_ ?_ ?_ ?_ ?_ ?_ ?_ ?_ ?_

theorem modeEntered_keeps {s t : State} (h : Keeps s t) (a0 a1) : Keeps s (modeEntered a0 a1 t) := by
  unfold modeEntered
  try dsimp only
  repeat' first
    | with_reducible assumption | with_reducible apply purgeHawk_keeps | with_reducible apply actOnWake_keeps
    | with_reducible apply raise_keeps | exact id | exact FuseLe.refl _ | split
    | with_reducible refine Keeps.upd ?_ ?_ ?_ ?_ ?_ ?_ ?_ ?_ ?_

theorem modeFollow_keeps {s t : State} (h : Keeps s t) : Keeps s (modeFollow t) := by
  unfold modeFollow
  try dsimp only
  with_reducible repeat' first | assumption | apply modeEntered_keeps | refine Keeps.ite ?_ ?_

theorem setRole_keeps {s t : State} (h : Keeps s t) (a0 a1) : Keeps s (setRole a0 a1 t) := by
  unfold setRole
  try dsimp only
  with_reducible repeat' first
    | assumption | apply anaRefresh_keeps | apply State.modGroup_keeps | apply purgeHawk_keeps
    | apply modeFollow_keeps | apply smartSpent_keeps | refine Keeps.ite ?_ ?_

/-! ### Placement -/

theorem releaseAreas_keeps {s t : State} (h : Keeps s t) (a0 a1) : Keeps s (releaseAreas a0 a1 t) := by
  unfold releaseAreas
  try dsimp only
  repeat' first
    | with_reducible assumption | with_reducible apply State.freeSlot_keeps
    | with_reducible apply State.modFlash_keeps | with_reducible apply State.modGroup_keeps
    | with_reducible apply queueErase_keeps | exact id | (with_reducible refine Keeps.foldl (fun u x hu => ?_) ?_)

theorem spendGroup_keeps {s t : State} (h : Keeps s t) (a0) : Keeps s (spendGroup a0 t) := by
  unfold spendGroup
  try dsimp only
  with_reducible repeat' first
    | assumption | apply raise_keeps | apply State.modGroup_keeps | apply smartSpent_keeps | apply nsChanged_keeps
    | apply failCmd_keeps | refine Keeps.ite ?_ ?_ | (refine Keeps.foldl (fun u x hu => ?_) ?_)

theorem spaceMove_keeps {s t : State} (h : Keeps s t) (a0) : Keeps s (spaceMove a0 t) := by
  unfold spaceMove
  try dsimp only
  with_reducible repeat' first
    | assumption | apply spendGroup_keeps | apply raise_keeps | apply State.modGroup_keeps | apply smartSpent_keeps
    | apply nsChanged_keeps | refine Keeps.ite ?_ ?_ | split

theorem sealBand_keeps {s t : State} (h : Keeps s t) (a0 a1) : Keeps s (sealBand a0 a1 t) := by
  unfold sealBand
  try dsimp only
  with_reducible repeat' first | assumption | apply spaceMove_keeps | apply State.modGroup_keeps

theorem sweepDone_keeps {s t : State} (h : Keeps s t) (a0 a1) : Keeps s (sweepDone a0 a1 t) := by
  unfold sweepDone
  try dsimp only
  with_reducible repeat' first | assumption | apply releaseAreas_keeps | apply sealBand_keeps | refine Keeps.ite ?_ ?_

theorem bandFilled_keeps {s t : State} (h : Keeps s t) (a0 a1) : Keeps s (bandFilled a0 a1 t) := by
  unfold bandFilled
  try dsimp only
  with_reducible repeat' first | assumption | apply State.modGroup_keeps | refine Keeps.ite ?_ ?_

theorem takeSpare_keeps {s t : State} (h : Keeps s t) (a0 a1 a2 a3 a4 a5) : Keeps s (takeSpare a0 a1 a2 a3 a4 a5 t).2 := by
  unfold takeSpare
  try dsimp only
  with_reducible repeat' first | assumption | apply State.modGroup_keeps | apply journal_keeps | split

theorem takeParityArea_keeps {s t : State} (h : Keeps s t) (a0 a1 a3) : Keeps s (takeParityArea a0 a1 t a3) := by
  unfold takeParityArea
  try dsimp only
  with_reducible repeat' first
    | assumption | apply takeSpare_keeps | apply queueErase_keeps | (refine Keeps.named (by assumption) ?_) | split

theorem openBand_keeps {s t : State} (h : Keeps s t) (a0 a1) : Keeps s (openBand a0 a1 t) := by
  unfold openBand
  try dsimp only
  repeat' first
    | with_reducible assumption | with_reducible apply State.modFlash_keeps
    | with_reducible apply State.modGroup_keeps | with_reducible apply takeParityArea_keeps
    | with_reducible apply spaceMove_keeps | with_reducible apply journal_keeps | exact id
    | (with_reducible refine Keeps.foldl (fun u x hu => ?_) ?_) | split

theorem streamBand_keeps {s t : State} (h : Keeps s t) (a0 a1) : Keeps s (streamBand a0 a1 t).2 := by
  unfold streamBand
  try dsimp only
  with_reducible repeat' first | assumption | apply bandFilled_keeps | apply openBand_keeps | split

theorem afterPlace_keeps {s t : State} (h : Keeps s t) (a0 a1 a2) : Keeps s (afterPlace a0 a1 a2 t) := by
  unfold afterPlace
  try dsimp only
  with_reducible repeat' first | assumption | apply bandFilled_keeps | apply formStripe_keeps

theorem putUnit_keeps {s t : State} (h : Keeps s t) (a0 a1 a2 a3 a4 a5) : Keeps s (putUnit a0 a1 a2 a3 a4 a5 t).2 := by
  unfold putUnit
  try dsimp only
  with_reducible repeat' first
    | assumption | apply streamBand_keeps | apply afterPlace_keeps | apply placeAt_keeps
    | (refine Keeps.named (by assumption) ?_) | split

theorem needPage_keeps {s t : State} (h : Keeps s t) (a0 a1 a2) : Keeps s (needPage a0 a1 a2 t) := by
  unfold needPage
  try dsimp only
  with_reducible repeat' first | assumption | apply addValid_keeps | apply State.modGroup_keeps

theorem putPage_keeps {s t : State} (h : Keeps s t) (a0 a1 a2) : Keeps s (putPage a0 a1 a2 t).2 := by
  unfold putPage
  try dsimp only
  with_reducible repeat' first
    | assumption | apply putSlot_keeps | apply State.modGroup_keeps | apply putUnit_keeps
    | apply State.freeSlot_keeps | apply needPage_keeps | (refine Keeps.named (by assumption) ?_) | split

theorem placePages_keeps {s t : State} (h : Keeps s t) (a0 a1) : Keeps s (placePages a0 a1 t).2 := by
  unfold placePages
  try dsimp only
  with_reducible repeat' first
    | assumption | apply putPage_keeps | apply closeFor_keeps | (refine Keeps.named (by assumption) ?_)
    | (refine Keeps.foldlPair (fun u x hu => ?_) ?_) | split

theorem summarize_keeps {s t : State} (h : Keeps s t) (gi band n) : Keeps s (summarize gi band n t) := by
  induction n generalizing t with
  | zero => exact h
  | succ n ih =>
    unfold summarize
    extract_lets g b last recs
    split
    · exact h
    · have h1 := placePages_keeps h gi [(.summary band, recs.flatten)]
      split
      · rename_i e; rw [e] at h1; exact h1
      · rename_i e; rw [e] at h1; exact ih (State.modGroup_keeps h1 _ _)

theorem placeUnit_keeps {s t : State} (h : Keeps s t) (a0 a1 a2 a3 a4 a5) : Keeps s (placeUnit a0 a1 a2 a3 a4 a5 t).2 := by
  unfold placeUnit
  try dsimp only
  with_reducible repeat' first
    | assumption | apply putUnit_keeps | apply summarize_keeps | (refine Keeps.named (by assumption) ?_) | split

theorem dropPages_keeps {s t : State} (h : Keeps s t) (a0 a1) : Keeps s (dropPages a0 a1 t) := by
  unfold dropPages
  try dsimp only
  with_reducible repeat' first
    | assumption | apply addValid_keeps | apply State.modGroup_keeps | (refine Keeps.foldl (fun u x hu => ?_) ?_)

theorem startSweep_keeps {s t : State} (h : Keeps s t) (a0 a1) : Keeps s (startSweep a0 a1 t) := by
  unfold startSweep
  try dsimp only
  with_reducible repeat' first
    | assumption | apply State.modGroup_keeps | apply enqueue_keeps | (refine Keeps.foldl (fun u x hu => ?_) ?_)

theorem maybeSweep_keeps {s t : State} (h : Keeps s t) (a0 a1) : Keeps s (maybeSweep a0 a1 t) := by
  unfold maybeSweep
  try dsimp only
  with_reducible repeat' first
    | assumption | apply bandFilled_keeps | apply sweepDone_keeps | apply startSweep_keeps | refine Keeps.ite ?_ ?_

theorem cleanSlots_keeps {s t : State} (h : Keeps s t) (a0) : Keeps s (cleanSlots a0 t) := by
  unfold cleanSlots
  try dsimp only
  with_reducible repeat' first
    | assumption | apply State.modSlot_keeps | apply State.freeSlot_keeps | refine Keeps.ite ?_ ?_
    | (refine Keeps.foldl (fun u x hu => ?_) ?_) | split

theorem commitUnit_keeps {s t : State} (h : Keeps s t) (a0 a1 a2 a3 a4 a5) : Keeps s (commitUnit a0 a1 a2 a3 a4 a5 t) := by
  unfold commitUnit
  try dsimp only
  with_reducible repeat' first
    | assumption | apply addValid_keeps | apply State.modNs_keeps | apply State.freeSlot_keeps
    | refine Keeps.ite ?_ ?_ | split

theorem retireRec_keeps {s t : State} (h : Keeps s t) (a0 a2) : Keeps s (retireRec a0 t a2) := by
  unfold retireRec
  try dsimp only
  with_reducible repeat' first
    | assumption | apply commitUnit_keeps | apply State.modGroup_keeps | refine Keeps.ite ?_ ?_
    | (refine Keeps.foldl (fun u x hu => ?_) ?_)

theorem retireAll_keeps {s t : State} (h : Keeps s t) (a0) : Keeps s (retireAll a0 t) := by
  unfold retireAll
  try dsimp only
  with_reducible repeat' first
    | assumption | apply retireRec_keeps | apply State.modGroup_keeps | apply postWrites_keeps
    | (refine Keeps.foldl (fun u x hu => ?_) ?_)

theorem markReloc_keeps {s t : State} (h : Keeps s t) (a0 a1 a2) : Keeps s (markReloc a0 a1 a2 t) := by
  unfold markReloc
  try dsimp only
  with_reducible repeat' first | assumption | apply State.modGroup_keeps

theorem stripeDone_keeps {s t : State} (h : Keeps s t) (a0 a1 a2) : Keeps s (stripeDone a0 a1 a2 t) := by
  unfold stripeDone
  try dsimp only
  with_reducible repeat' first
    | assumption | apply journal_keeps | apply State.modGroup_keeps | apply maybeSweep_keeps | apply retireAll_keeps
    | apply markReloc_keeps | refine Keeps.ite ?_ ?_ | split

theorem joinSpare_keeps {s t : State} (h : Keeps s t) (a0 a1 a2 a3 a4) : Keeps s (joinSpare a0 a1 a2 a3 a4 t) := by
  unfold joinSpare
  try dsimp only
  with_reducible repeat' first | assumption | apply State.modGroup_keeps

theorem retireBlock_keeps {s t : State} (h : Keeps s t) (a0 a1 a2 a3) : Keeps s (retireBlock a0 a1 a2 a3 t) := by
  unfold retireBlock
  try dsimp only
  with_reducible repeat' first | assumption | apply State.modGroup_keeps | apply raise_keeps | apply journal_keeps

theorem anchorsDone_keeps {s t : State} (h : Keeps s t) (a0) : Keeps s (anchorsDone a0 t) := by
  unfold anchorsDone
  try dsimp only
  with_reducible repeat' first
    | assumption | apply setHealth_keeps | apply sendOffer_keeps | apply dropPages_keeps | refine Keeps.ite ?_ ?_

theorem queueAnchors_keeps {s t : State} (h : Keeps s t) (a0) : Keeps s (queueAnchors a0 t) := by
  unfold queueAnchors
  try dsimp only
  with_reducible repeat' first
    | assumption | apply putSlot_keeps | apply enqueue_keeps | apply queueErase_keeps | apply State.modGroup_keeps
    | (refine Keeps.foldl (fun u x hu => ?_) ?_)

theorem logVerified_keeps {s t : State} (h : Keeps s t) (a0) : Keeps s (logVerified a0 t) := by
  unfold logVerified
  try dsimp only
  with_reducible repeat' first | assumption | apply retireAll_keeps | apply State.modGroup_keeps | split

theorem chunkVerified_keeps {s t : State} (h : Keeps s t) (a0 a1 a2 a3 a4) : Keeps s (chunkVerified a0 a1 a2 a3 a4 t) := by
  unfold chunkVerified
  try dsimp only
  with_reducible repeat' first
    | assumption | apply State.modGroup_keeps | apply cleanSlots_keeps | apply queueAnchors_keeps
    | apply stripeDone_keeps | apply logVerified_keeps | refine Keeps.ite ?_ ?_

theorem substitute_keeps {s t : State} (h : Keeps s t) (a0 a1 a2 a3 a4) : Keeps s (substitute a0 a1 a2 a3 a4 t).2 := by
  unfold substitute
  try dsimp only
  with_reducible repeat' first | assumption | apply takeSpare_keeps

/-! ### ReadPath -/

theorem evictHawk_keeps {s t : State} (h : Keeps s t) : Keeps s (evictHawk t).2 := by
  unfold evictHawk
  try dsimp only
  repeat' first | with_reducible assumption | with_reducible apply State.modFlash_keeps | exact id | split

theorem takeBlock_keeps {s t : State} (h : Keeps s t) : Keeps s (takeBlock t).2 := by
  unfold takeBlock
  try dsimp only
  with_reducible repeat' first | assumption | apply State.drew_keeps | apply evictHawk_keeps | split

theorem State.modBuf_keeps {s t : State} (h : Keeps s t) (n f) : Keeps s (t.modBuf n f) := h.upd id id (FuseLe.refl _) id id id id id

theorem State.modCtrs_keeps {s t : State} (h : Keeps s t) (g f) : Keeps s (t.modCtrs g f) := State.modGroup_keeps h _ _

theorem serveBusy_keeps {s t : State} (h : Keeps s t) (a0 a1 a2 a3) : Keeps s (serveBusy a0 a1 a2 a3 t) := by
  unfold serveBusy
  try dsimp only
  with_reducible repeat' first
    | assumption | apply suspendDie_keeps | apply State.modCtrs_keeps | refine Keeps.ite ?_ ?_

theorem queueRead_keeps {s t : State} (h : Keeps s t) (a0 a1 a2 a3 a4 a5) : Keeps s (queueRead a0 a1 a2 a3 a4 a5 t) := by
  unfold queueRead
  try dsimp only
  with_reducible repeat' first | assumption | apply enqueue_keeps

theorem reconstruct_keeps {s t : State} (h : Keeps s t) (a0) : Keeps s (reconstruct a0 t) := by
  unfold reconstruct
  try dsimp only
  with_reducible repeat' first
    | assumption | apply State.modBuf_keeps | apply serveBusy_keeps | apply queueRead_keeps | refine Keeps.ite ?_ ?_
    | (refine Keeps.foldl (fun u x hu => ?_) ?_) | split

theorem readDirect_keeps {s t : State} (h : Keeps s t) (a0) : Keeps s (readDirect a0 t) := by
  unfold readDirect
  try dsimp only
  with_reducible repeat' first | assumption | apply State.modBuf_keeps | apply queueRead_keeps | split

theorem takeCredits_keeps {s t : State} (h : Keeps s t) (a0) : Keeps s (takeCredits a0 t) := by
  unfold takeCredits
  try dsimp only
  with_reducible repeat' first | assumption | apply State.modBay_keeps | (refine Keeps.foldl (fun u x hu => ?_) ?_)

theorem readOwn_keeps {s t : State} (h : Keeps s t) (a0) : Keeps s (readOwn a0 t) := by
  unfold readOwn
  try dsimp only
  with_reducible repeat' first
    | assumption | apply readDirect_keeps | apply serveBusy_keeps | refine Keeps.ite ?_ ?_ | split

theorem decideRead_keeps {s t : State} (h : Keeps s t) (a0) : Keeps s (decideRead a0 t) := by
  unfold decideRead
  try dsimp only
  with_reducible repeat' first
    | assumption | apply reconstruct_keeps | apply readDirect_keeps | apply State.modCtrs_keeps
    | apply takeCredits_keeps | apply readOwn_keeps | refine Keeps.ite ?_ ?_ | split

theorem peerSlot_keeps {s t : State} (h : Keeps s t) (a0) : Keeps s (peerSlot a0 t) := by
  unfold peerSlot
  try dsimp only
  with_reducible repeat' first | assumption | apply enqueue_keeps | apply State.modOp_keeps

theorem startPeer_keeps {s t : State} (h : Keeps s t) (a0 a1 a2) : Keeps s (startPeer a0 a1 a2 t) := by
  unfold startPeer
  try dsimp only
  repeat' first
    | with_reducible assumption | with_reducible apply decideRead_keeps | with_reducible apply peerSlot_keeps
    | with_reducible apply State.modFlash_keeps | with_reducible apply State.modBuf_keeps
    | with_reducible apply scrimSend_keeps | exact id | split

theorem reconstructDie_keeps {s t : State} (h : Keeps s t) (a0) : Keeps s (reconstructDie a0 t) := by
  unfold reconstructDie
  try dsimp only
  with_reducible repeat' first
    | assumption | apply reconstruct_keeps | apply State.modBuf_keeps | apply queueRead_keeps | apply enqueue_keeps
    | (refine Keeps.foldl (fun u x hu => ?_) ?_) | split

theorem bindReq_keeps {s t : State} (h : Keeps s t) (a0 a1) : Keeps s (bindReq a0 a1 t) := by
  unfold bindReq
  try dsimp only
  repeat' first
    | with_reducible assumption | with_reducible apply State.modFlash_keeps | with_reducible apply startPeer_keeps
    | with_reducible apply reconstruct_keeps | with_reducible apply reconstructDie_keeps
    | with_reducible apply decideRead_keeps | exact id | split

theorem grantOne_keeps {s t : State} (h : Keeps s t) : Keeps s (grantOne t) := by
  unfold grantOne
  try dsimp only
  repeat' first
    | with_reducible assumption | with_reducible apply takeBlock_keeps | with_reducible apply bindReq_keeps
    | with_reducible apply State.modFlash_keeps | exact id | (with_reducible refine Keeps.named (by assumption) ?_)
    | split

theorem requestBuf_keeps {s t : State} (h : Keeps s t) (a0) : Keeps s (requestBuf a0 t) := by
  unfold requestBuf
  try dsimp only
  repeat' first
    | with_reducible assumption | with_reducible apply State.modFlash_keeps | with_reducible apply grantOne_keeps
    | exact id | with_reducible refine Keeps.ite ?_ ?_

theorem slotsRevoked_keeps {s t : State} (h : Keeps s t) (a0) : Keeps s (slotsRevoked a0 t) := by
  unfold slotsRevoked
  try dsimp only
  repeat' first
    | with_reducible assumption | with_reducible apply State.modBuf_keeps
    | with_reducible apply State.modFlash_keeps | exact id

theorem State.setAdmit_keeps {s t : State} (h : Keeps s t) (a1 a2) : Keeps s (State.setAdmit t a1 a2) := by
  unfold State.setAdmit
  try dsimp only
  repeat' first | with_reducible assumption | with_reducible apply State.modFlash_keeps | exact id

theorem countAdmit_keeps {s t : State} (h : Keeps s t) (a0 a1 a2 a3) : Keeps s (countAdmit a0 a1 a2 a3 t) := by
  unfold countAdmit
  try dsimp only
  with_reducible repeat' first | assumption | apply State.setAdmit_keeps | refine Keeps.ite ?_ ?_

theorem failLost_keeps {s t : State} (h : Keeps s t) (a0 a1) : Keeps s (failLost a0 a1 t) := by
  unfold failLost
  try dsimp only
  with_reducible repeat' first
    | assumption | apply State.modHost_keeps | apply failCmd_keeps | apply raise_keeps | apply State.modNs_keeps
    | refine Keeps.ite ?_ ?_ | split

theorem lookupUnit_keeps {s t : State} (h : Keeps s t) (a0 a1) : Keeps s (lookupUnit a0 a1 t) := by
  unfold lookupUnit
  try dsimp only
  repeat' first
    | with_reducible assumption | with_reducible apply State.modFlash_keeps
    | with_reducible apply State.modCmd_keeps | with_reducible apply countAdmit_keeps
    | with_reducible apply keyFail_keeps | with_reducible apply useNsKeys_keeps
    | with_reducible apply failLost_keeps | with_reducible apply requestBuf_keeps | exact id
    | with_reducible refine Keeps.ite ?_ ?_ | split

theorem installHawk_keeps {s t : State} (h : Keeps s t) (a0 a1 a2 a3) : Keeps s (installHawk a0 a1 a2 a3 t) := by
  unfold installHawk
  try dsimp only
  repeat' first
    | with_reducible assumption | with_reducible apply State.modFlash_keeps | with_reducible apply State.drew_keeps
    | with_reducible apply evictHawk_keeps | exact id | (with_reducible refine Keeps.named (by assumption) ?_)
    | with_reducible refine Keeps.ite ?_ ?_ | split

theorem dropHostBuf_keeps {s t : State} (h : Keeps s t) (a0 a1) : Keeps s (dropHostBuf a0 a1 t) := by
  unfold dropHostBuf
  try dsimp only
  repeat' first | with_reducible assumption | with_reducible apply State.modFlash_keeps | exact id

theorem sendUnit_keeps {s t : State} (h : Keeps s t) (a0 a1) : Keeps s (sendUnit a0 a1 t) := by
  unfold sendUnit
  split
  · exact h
  · extract_lets u s1 s2
    have h1 : Keeps s s1 := by
      simp only [s1]
      split
      · exact h
      · exact State.modHost_keeps (sendData_keeps h _ _ _ _ _) _
    have h2 : Keeps s s2 := by
      simp only [s2]
      split
      · exact h1
      · exact installHawk_keeps h1 _ _ _ _
    exact State.modCmd_keeps (dropHostBuf_keeps h2 _ _) _ _

theorem sendReady_keeps {s t : State} (h : Keeps s t) (a0) : Keeps s (sendReady a0 t) := by
  unfold sendReady
  try dsimp only
  with_reducible repeat' first
    | assumption | apply failCmd_keeps | apply sendUnit_keeps | apply complete_keeps | refine Keeps.ite ?_ ?_
    | (refine Keeps.foldl (fun u x hu => ?_) ?_) | split

theorem runRead_keeps {s t : State} (h : Keeps s t) (a0) : Keeps s (runRead a0 t) := by
  unfold runRead
  try dsimp only
  with_reducible repeat' first
    | assumption | apply lookupUnit_keeps | apply sendReady_keeps | refine Keeps.ite ?_ ?_
    | (refine Keeps.foldl (fun u x hu => ?_) ?_) | split

theorem State.freeBuf_keeps {s t : State} (h : Keeps s t) (a1) : Keeps s (State.freeBuf t a1) := by
  unfold State.freeBuf
  try dsimp only
  repeat' first | with_reducible assumption | with_reducible apply State.modFlash_keeps | exact id

theorem hostUnitReady_keeps {s t : State} (h : Keeps s t) (a0 a1 a2 a3) : Keeps s (hostUnitReady a0 a1 a2 a3 t) := by
  unfold hostUnitReady
  try dsimp only
  with_reducible repeat' first
    | assumption | apply State.freeBuf_keeps | apply State.modCmd_keeps | apply State.modBuf_keeps
    | apply runRead_keeps | apply sendReady_keeps | split

/-! ### Writes -/

theorem appendLog_keeps {s t : State} (h : Keeps s t) (a0) : Keeps s (appendLog a0 t) := by
  unfold appendLog
  try dsimp only
  with_reducible repeat' first
    | assumption | apply placePages_keeps | apply State.modGroup_keeps | (refine Keeps.named (by assumption) ?_)
    | refine Keeps.ite2 ?_ ?_ | (refine Keeps.foldlPair (fun u x hu => ?_) ?_) | split

theorem soloLog_keeps {s t : State} (h : Keeps s t) (a0) : Keeps s (soloLog a0 t) := by
  unfold soloLog
  try dsimp only
  with_reducible repeat' first | assumption | apply appendLog_keeps | refine Keeps.ite ?_ ?_

theorem rewriteLost_keeps {s t : State} (h : Keeps s t) (a0 a1) : Keeps s (rewriteLost a0 a1 t) := by
  unfold rewriteLost
  try dsimp only
  with_reducible repeat' first | assumption | apply unlose_keeps | refine Keeps.ite ?_ ?_ | split

theorem dropOld_keeps {s t : State} (h : Keeps s t) (a0 a1) : Keeps s (dropOld a0 a1 t) := by
  unfold dropOld
  try dsimp only
  with_reducible repeat' first | assumption | apply addValid_keeps | split

theorem invalidate_keeps {s t : State} (h : Keeps s t) (a0 a1) : Keeps s (invalidate a0 a1 t) := by
  unfold invalidate
  try dsimp only
  with_reducible repeat' first | assumption | apply purgeHawk_keeps

theorem stageUnit_keeps {s t : State} (h : Keeps s t) (a0 a1 a2 a3 a4 a5 a6) : Keeps s (stageUnit a0 a1 a2 a3 a4 a5 a6 t).2 := by
  unfold stageUnit
  try dsimp only
  repeat' first
    | with_reducible assumption | with_reducible apply State.modFlash_keeps
    | with_reducible apply State.modGroup_keeps | with_reducible apply useNsKeys_keeps
    | with_reducible apply landCopy_keeps | with_reducible apply placeUnit_keeps
    | with_reducible apply State.freeSlot_keeps | with_reducible apply State.modSlot_keeps
    | with_reducible apply addValid_keeps | with_reducible apply State.modNs_keeps
    | with_reducible apply rewriteLost_keeps | with_reducible apply dropOld_keeps
    | with_reducible apply invalidate_keeps | exact id | (with_reducible refine Keeps.named (by assumption) ?_)
    | with_reducible refine Keeps.ite ?_ ?_ | split

theorem poolCheck_keeps {s t : State} (h : Keeps s t) : Keeps s (poolCheck t) := by
  unfold poolCheck
  try dsimp only
  with_reducible repeat' first | assumption | apply State.modHost_keeps | apply raise_keeps | refine Keeps.ite ?_ ?_

theorem stageUnits_keeps {s t : State} (h : Keeps s t) (c nsx units cls place fua) :
    Keeps s (stageUnits c nsx units cls place fua t) := by
  unfold stageUnits
  split
  · exact h
  · extract_lets gi start
    have h1 := Keeps.foldl3 (s := s) (l := units) (p := (([] : List Placed), t.drew, 0))
      (f := fun (a : List Placed × State × Nat) u =>
        let (ps, s, i) := a
        let slot := (start + i) % 131072
        let w := (s.group gi).wseq
        match stageUnit c nsx u.1 (cls u.1) u.2 slot (place u.1) s with
        | (some gua, s1) => (ps ++ [{ unit := u.1, gua, slot, wseq := w }], s1, i + 1)
        | (none, s1) => (ps, s1, i + 1)) (by
          intro u x hu
          obtain ⟨ps, w, i⟩ := u
          dsimp only
          have hk := stageUnit_keeps hu c nsx x.1 (cls x.1) x.2 ((start + i) % 131072) (place x.1)
          split
          · rename_i e; rw [e] at hk; exact hk
          · rename_i e; rw [e] at hk; exact hk) (State.drew_keeps h)
    split
    rename_i s1 _ e
    replace h1 : Keeps s s1 := Keeps.named3 e h1
    extract_lets first s2 recs s3 s4
    have h2 : Keeps s s2 := Keeps.foldl (fun u x hu => journal_keeps hu _ _ _) h1
    have h3 : Keeps s s3 := State.modCmd_keeps h2 _ _
    have h4 : Keeps s s4 := by
      simp only [s4]
      split
      · exact closeFor_keeps h3 _ _
      · exact h3
    refine postWrites_keeps (soloLog_keeps ?_ _)
    split
    · exact poolCheck_keeps h4
    · exact h4

theorem finishMerge_keeps {s t : State} (h : Keeps s t) (a0) : Keeps s (finishMerge a0 t) := by
  unfold finishMerge
  try dsimp only
  with_reducible repeat' first
    | assumption | apply keyFail_keeps | apply failCmd_keeps | apply State.modCmd_keeps | apply stageUnits_keeps
    | refine Keeps.ite ?_ ?_ | split

theorem giveRun_keeps {s t : State} (h : Keeps s t) (a0) : Keeps s (giveRun a0 t) := by
  unfold giveRun
  try dsimp only
  with_reducible repeat' first
    | assumption | apply placeUnit_keeps | apply State.modCmd_keeps | (refine Keeps.named (by assumption) ?_)
    | refine Keeps.ite ?_ ?_ | (refine Keeps.foldlPair (fun u x hu => ?_) ?_) | split

theorem unmapUnits_keeps {s t : State} (h : Keeps s t) (a0 a1 a2) : Keeps s (unmapUnits a0 a1 a2 t) := by
  unfold unmapUnits
  try dsimp only
  with_reducible repeat' first
    | assumption | apply invalidate_keeps | apply State.modNs_keeps | apply dropOld_keeps | apply rewriteLost_keeps
    | apply journal_keeps | (refine Keeps.foldl (fun u x hu => ?_) ?_) | split

theorem readHalf_keeps {s t : State} (h : Keeps s t) (a0 a1) : Keeps s (readHalf a0 a1 t) := by
  unfold readHalf
  try dsimp only
  with_reducible repeat' first
    | assumption | apply State.modCmd_keeps | apply keyFail_keeps | apply useNsKeys_keeps | apply failCmd_keeps
    | apply requestBuf_keeps | refine Keeps.ite ?_ ?_ | split

theorem startWrite_keeps {s t : State} (h : Keeps s t) (a0 a1) : Keeps s (startWrite a0 a1 t) := by
  unfold startWrite
  try dsimp only
  with_reducible repeat' first
    | assumption | apply State.modCmd_keeps | apply unmapUnits_keeps | apply finishMerge_keeps
    | apply readHalf_keeps | (refine Keeps.foldl (fun u x hu => ?_) ?_)

theorem tryFetch_keeps {s t : State} (h : Keeps s t) (a0) : Keeps s (tryFetch a0 t) := by
  unfold tryFetch
  try dsimp only
  with_reducible repeat' first
    | assumption | apply finishMerge_keeps | apply giveRun_keeps | apply State.modCmd_keeps | apply dropRun_keeps
    | apply failCmd_keeps | apply startWrite_keeps | refine Keeps.ite ?_ ?_ | split

theorem spaceCheck_keeps {s t : State} (h : Keeps s t) (a0) : Keeps s (spaceCheck a0 t) := by
  unfold spaceCheck
  try dsimp only
  with_reducible repeat' first
    | assumption | apply spaceMove_keeps | apply tryFetch_keeps | refine Keeps.ite ?_ ?_
    | (refine Keeps.foldl (fun u x hu => ?_) ?_)

theorem rmwReady_keeps {s t : State} (h : Keeps s t) (a0 a1 a2 a3) : Keeps s (rmwReady a0 a1 a2 a3 t) := by
  unfold rmwReady
  try dsimp only
  with_reducible repeat' first
    | assumption | apply finishMerge_keeps | apply State.modCmd_keeps | apply State.freeBuf_keeps

end Sys2Proof.Machine
end

