-- ==== Sys2Proof/Laws/Keeps3.lean ====
section
/-! SUPPORT. What the operations of Copies, Failed, Members, Replay, MountEnd, Landing keep (Laws/Keeps.lean): one
lemma for each. -/

set_option linter.unusedVariables false

namespace Sys2Proof.Machine

/-! ### Copies -/

theorem startCopy_keeps {s t : State} (h : Keeps s t) (a0 a1 a2) : Keeps s (startCopy a0 a1 a2 t).2 := by
  unfold startCopy
  try dsimp only
  with_reducible repeat' first
    | assumption | apply placeUnit_keeps | apply requestBuf_keeps | apply State.modCtrs_keeps
    | (refine Keeps.named (by assumption) ?_) | split

theorem startBatch_keeps {s t : State} (h : Keeps s t) (a0 a1 a2) : Keeps s (startBatch a0 a1 a2 t).2 := by
  unfold startBatch
  try dsimp only
  with_reducible repeat' first
    | assumption | apply startCopy_keeps | (refine Keeps.named (by assumption) ?_)
    | (refine Keeps.foldlPair (fun u x hu => ?_) ?_) | split

theorem nextTodo_keeps {s t : State} (h : Keeps s t) (a0 a1) : Keeps s (nextTodo a0 a1 t) := by
  unfold nextTodo
  try dsimp only
  with_reducible repeat' first
    | assumption | apply State.modGroup_keeps | apply sweepDone_keeps | apply startBatch_keeps
    | refine Keeps.ite ?_ ?_

theorem relocateWith_keeps {s t : State} (h : Keeps s t) (a0 a1 a2 a3 a4) : Keeps s (relocateWith a0 a1 a2 a3 a4 t) := by
  unfold relocateWith
  try dsimp only
  with_reducible repeat' first
    | assumption | apply nextTodo_keeps | apply State.modGroup_keeps | refine Keeps.ite ?_ ?_

theorem relocate_keeps {s t : State} (h : Keeps s t) (a0 a1 a2) : Keeps s (relocate a0 a1 a2 t) := by
  unfold relocate
  try dsimp only
  with_reducible repeat' first | assumption | apply relocateWith_keeps

/-! ### Failed -/

theorem giveUp_keeps {s t : State} (h : Keeps s t) (a0 a1 a2) : Keeps s (giveUp a0 a1 a2 t) := by
  unfold giveUp
  try dsimp only
  with_reducible repeat' first | assumption | apply relocate_keeps | apply State.modGroup_keeps

theorem renameUnit_keeps {s t : State} (h : Keeps s t) (a0 a1 a2) : Keeps s (renameUnit a0 a1 a2 t) := by
  unfold renameUnit
  try dsimp only
  repeat' first
    | with_reducible assumption | with_reducible apply State.modFlash_keeps
    | with_reducible apply State.modGroup_keeps | with_reducible apply State.modHost_keeps
    | with_reducible apply addValid_keeps | with_reducible apply State.modNs_keeps | exact id
    | with_reducible refine Keeps.ite ?_ ?_

theorem moveUnit_keeps {s : State} (gi x) {a : List (Nat × Nat × Placed) × State} (p) (h : Keeps s a.2) :
    Keeps s (moveUnit gi x a p).2 := by
  unfold moveUnit
  extract_lets s0 g old o waits
  have h0 : Keeps s s0 := h
  split
  · exact giveUp_keeps h0 _ _ _
  · have h1 := placeUnit_keeps h0 gi x.stream p.2 o.nsx o.unit (!waits)
    split
    · rename_i e; rw [e] at h1; exact h1
    · rename_i e; rw [e] at h1
      have h2 := renameUnit_keeps h1 gi old
      dsimp only
      repeat' first | exact h2 _ | split

theorem freePad_keeps {s t : State} (h : Keeps s t) (a0) : Keeps s (freePad a0 t) := by
  unfold freePad
  try dsimp only
  with_reducible repeat' first
    | assumption | apply State.freeSlot_keeps | refine Keeps.ite ?_ ?_ | (refine Keeps.foldl (fun u x hu => ?_) ?_)
    | split

theorem abandonStripe_keeps {s t : State} (h : Keeps s t) (a0 a1) : Keeps s (abandonStripe a0 a1 t) := by
  unfold abandonStripe
  try dsimp only
  repeat' first
    | with_reducible assumption | with_reducible apply State.modFlash_keeps | with_reducible apply freePad_keeps
    | with_reducible apply State.modGroup_keeps | exact id

theorem renewRecs_keeps {s t : State} (h : Keeps s t) (a0 a1 a2) : Keeps s (renewRecs a0 a1 a2 t) := by
  unfold renewRecs
  try dsimp only
  with_reducible repeat' first | assumption | apply State.modHost_keeps

theorem journalMoves_keeps {s t : State} (h : Keeps s t) (a0 a1) : Keeps s (journalMoves a0 a1 t) := by
  unfold journalMoves
  try dsimp only
  with_reducible repeat' first
    | assumption | apply renewRecs_keeps | apply journal_keeps | apply closeFor_keeps | apply soloLog_keeps
    | refine Keeps.ite ?_ ?_ | (refine Keeps.foldl (fun u x hu => ?_) ?_)

theorem moveStripe_keeps {s t : State} (h : Keeps s t) (gi x) : Keeps s (moveStripe gi t x) := by
  unfold moveStripe
  split
  · exact h
  · have h1 := Keeps.foldlPair (l := x.units) (f := moveUnit gi x) (p := ([], abandonStripe gi x t))
      (fun u y hu => moveUnit_keeps gi x y hu) (abandonStripe_keeps h _ _)
    split
    rename_i e
    rw [e] at h1
    exact journalMoves_keeps h1 _ _

theorem moveStripes_keeps {s t : State} (h : Keeps s t) (a0 a2) : Keeps s (moveStripes a0 t a2) := by
  unfold moveStripes
  try dsimp only
  with_reducible repeat' first
    | assumption | apply moveStripe_keeps | apply maybeSweep_keeps | apply State.modGroup_keeps
    | refine Keeps.ite ?_ ?_ | (refine Keeps.foldl (fun u x hu => ?_) ?_)

theorem moveAgain_keeps {s t : State} (h : Keeps s t) (a0) : Keeps s (moveAgain a0 t) := by
  unfold moveAgain
  try dsimp only
  with_reducible repeat' first | assumption | apply moveStripes_keeps | (refine Keeps.foldl (fun u x hu => ?_) ?_)

theorem replanPrograms_keeps {s t : State} (h : Keeps s t) (a0 a1 a2) : Keeps s (replanPrograms a0 a1 a2 t) := by
  unfold replanPrograms
  try dsimp only
  repeat' first | with_reducible assumption | with_reducible apply State.modFlash_keeps | exact id

theorem swapBlock_keeps {s t : State} (h : Keeps s t) (a0 a1 a2 a3 a4) : Keeps s (swapBlock a0 a1 a2 a3 a4 t).2 := by
  unfold swapBlock
  try dsimp only
  with_reducible repeat' first
    | assumption | apply State.modGroup_keeps | apply takeSpare_keeps | apply replanPrograms_keeps
    | (refine Keeps.named (by assumption) ?_) | split

theorem retireBand_keeps {s t : State} (h : Keeps s t) (a0 a1 a2 a3) : Keeps s (retireBand a0 a1 a2 a3 t) := by
  unfold retireBand
  try dsimp only
  with_reducible repeat' first
    | assumption | apply State.modGroup_keeps | apply joinSpare_keeps | apply spaceCheck_keeps | apply raise_keeps
    | (refine Keeps.foldl (fun u x hu => ?_) ?_)

theorem closeEarly_keeps {s t : State} (h : Keeps s t) (a0 a1 a2) : Keeps s (closeEarly a0 a1 a2 t) := by
  unfold closeEarly
  try dsimp only
  with_reducible repeat' first
    | assumption | apply moveStripes_keeps | apply freePad_keeps | apply State.modGroup_keeps

theorem leaveDie_keeps {s t : State} (h : Keeps s t) (a0 a1 a2) : Keeps s (leaveDie a0 a1 a2 t) := by
  unfold leaveDie
  try dsimp only
  with_reducible repeat' first | assumption | apply relocateWith_keeps

theorem eraseBad_keeps {s t : State} (h : Keeps s t) (a0 a1 a2 a3 a4 a5 a6) : Keeps s (eraseBad a0 a1 a2 a3 a4 a5 a6 t) := by
  unfold eraseBad
  try dsimp only
  with_reducible repeat' first
    | assumption | apply retireBlock_keeps | apply swapBlock_keeps | apply queueErase_keeps | apply retireBand_keeps
    | apply closeEarly_keeps | apply leaveDie_keeps | (refine Keeps.named (by assumption) ?_)
    | refine Keeps.ite ?_ ?_ | split

theorem dropArea_keeps {s t : State} (h : Keeps s t) (a0 a1 a2) : Keeps s (dropArea a0 a1 a2 t) := by
  unfold dropArea
  try dsimp only
  repeat' first
    | with_reducible assumption | with_reducible apply State.modGroup_keeps
    | with_reducible apply State.freeSlot_keeps | with_reducible apply State.modFlash_keeps | exact id
    | (with_reducible refine Keeps.foldl (fun u x hu => ?_) ?_)

theorem areaEraseBad_keeps {s t : State} (h : Keeps s t) (a0 a1 a2 a3 a4) : Keeps s (areaEraseBad a0 a1 a2 a3 a4 t) := by
  unfold areaEraseBad
  try dsimp only
  repeat' first
    | with_reducible assumption | with_reducible apply takeParityArea_keeps
    | with_reducible apply State.modGroup_keeps | with_reducible apply retireBlock_keeps
    | with_reducible apply dropArea_keeps | with_reducible apply State.modFlash_keeps | exact id | split

theorem rebuildEraseBad_keeps {s t : State} (h : Keeps s t) (a0 a1 a2 a3 a4) : Keeps s (rebuildEraseBad a0 a1 a2 a3 a4 t) := by
  unfold rebuildEraseBad
  try dsimp only
  with_reducible repeat' first
    | assumption | apply swapBlock_keeps | apply retireBlock_keeps | apply queueErase_keeps | apply leaveDie_keeps
    | (refine Keeps.named (by assumption) ?_) | split

theorem chunkFailed_keeps {s t : State} (h : Keeps s t) (a0 a1 a2 a3 a4) : Keeps s (chunkFailed a0 a1 a2 a3 a4 t) := by
  unfold chunkFailed
  try dsimp only
  with_reducible repeat' first
    | assumption | apply takeSpare_keeps | apply closeEarly_keeps | apply State.modGroup_keeps
    | apply queueErase_keeps | apply replanPrograms_keeps | apply raise_keeps | apply enqueue_keeps
    | apply moveStripe_keeps | apply freePad_keeps | apply chunkSources_keeps
    | (refine Keeps.named (by assumption) ?_) | refine Keeps.ite ?_ ?_ | split

theorem areaFailed_keeps {s t : State} (h : Keeps s t) (a0 a1 a2 a3 a4 a5) : Keeps s (areaFailed a0 a1 a2 a3 a4 a5 t) := by
  unfold areaFailed
  try dsimp only
  with_reducible repeat' first
    | assumption | apply State.modGroup_keeps | apply dropArea_keeps | apply raise_keeps | apply cleanSlots_keeps

/-! ### Members -/

theorem dropWork_keeps {s t : State} (h : Keeps s t) (a0) : Keeps s (dropWork a0 t) := by
  unfold dropWork
  try dsimp only
  repeat' first | with_reducible assumption | with_reducible apply State.modFlash_keeps | exact id

theorem revokeBays_keeps {s t : State} (h : Keeps s t) (a0) : Keeps s (revokeBays a0 t) := by
  unfold revokeBays
  try dsimp only
  repeat' first | with_reducible assumption | with_reducible apply State.modFlash_keeps | exact id

theorem fence_keeps {s t : State} (h : Keeps s t) (a0) : Keeps s (fence a0 t) := by
  unfold fence
  try dsimp only
  with_reducible repeat' first
    | assumption | apply State.modBay_keeps | apply dropWork_keeps | apply revokeBays_keeps
    | apply endGroupCmds_keeps | apply raise_keeps | apply setRole_keeps | apply setScrimEvt_keeps
    | apply State.modGroup_keeps | refine Keeps.ite ?_ ?_ | (refine Keeps.foldl (fun u x hu => ?_) ?_)

theorem expireBay_keeps {s t : State} (h : Keeps s t) (a0) : Keeps s (expireBay a0 t) := by
  unfold expireBay
  try dsimp only
  repeat' first
    | with_reducible assumption | with_reducible apply slotsRevoked_keeps
    | with_reducible apply State.modFlash_keeps | exact id
    | (with_reducible refine Keeps.foldl (fun u x hu => ?_) ?_)

theorem countTimeouts_keeps {s t : State} (h : Keeps s t) (a0 a1) : Keeps s (countTimeouts a0 a1 t) := by
  unfold countTimeouts
  try dsimp only
  with_reducible repeat' first | assumption | apply State.modBay_keeps | apply raise_keeps | refine Keeps.ite ?_ ?_

theorem sweepVerified_keeps {s t : State} (h : Keeps s t) (a0 a1 a2 a3 a4) : Keeps s (sweepVerified a0 a1 a2 a3 a4 t) := by
  unfold sweepVerified
  try dsimp only
  with_reducible repeat' first
    | assumption | apply State.modGroup_keeps | apply raise_keeps | apply relocateWith_keeps | apply sweepDone_keeps
    | refine Keeps.ite ?_ ?_

theorem loseChunks_keeps {s t : State} (h : Keeps s t) (a0 a1 a2 a3 a4) : Keeps s (loseChunks a0 a1 a2 a3 a4 t) := by
  unfold loseChunks
  try dsimp only
  with_reducible repeat' first
    | assumption | apply addLost_keeps | refine Keeps.ite ?_ ?_ | (refine Keeps.foldl (fun u x hu => ?_) ?_) | split

theorem secondFailure_keeps {s t : State} (h : Keeps s t) (a0 a1 a2) : Keeps s (secondFailure a0 a1 a2 t) := by
  unfold secondFailure
  try dsimp only
  with_reducible repeat' first
    | assumption | apply loseChunks_keeps | apply relocate_keeps | (refine Keeps.foldl (fun u x hu => ?_) ?_)

theorem sweepsWithout_keeps {s t : State} (h : Keeps s t) (a0 a1) : Keeps s (sweepsWithout a0 a1 t) := by
  unfold sweepsWithout
  try dsimp only
  with_reducible repeat' first
    | assumption | apply sweepDone_keeps | apply State.modGroup_keeps | (refine Keeps.foldl (fun u x hu => ?_) ?_)

theorem bandErased_keeps {s t : State} (h : Keeps s t) (a0 a1) : Keeps s (bandErased a0 a1 t) := by
  unfold bandErased
  try dsimp only
  with_reducible repeat' first
    | assumption | apply State.modGroup_keeps | apply dropPages_keeps | apply moveAgain_keeps
    | apply spaceCheck_keeps | apply journal_keeps | refine Keeps.ite ?_ ?_

theorem eraseWithout_keeps {s t : State} (h : Keeps s t) (a0 a1) : Keeps s (eraseWithout a0 a1 t) := by
  unfold eraseWithout
  try dsimp only
  with_reducible repeat' first
    | assumption | apply bandErased_keeps | apply State.modGroup_keeps | (refine Keeps.foldl (fun u x hu => ?_) ?_)

theorem dropSource_keeps {s t : State} (h : Keeps s t) (a0 a1 a2 a4) : Keeps s (dropSource a0 a1 a2 t a4) := by
  unfold dropSource
  try dsimp only
  repeat' first
    | with_reducible assumption | with_reducible apply cleanSlots_keeps | with_reducible apply State.modFlash_keeps
    | exact id | with_reducible refine Keeps.ite ?_ ?_

theorem skipChunks_keeps {s t : State} (h : Keeps s t) (a0 a1) : Keeps s (skipChunks a0 a1 t) := by
  unfold skipChunks
  try dsimp only
  repeat' first
    | with_reducible assumption | with_reducible apply State.modGroup_keeps | with_reducible apply dropSource_keeps
    | with_reducible apply State.modFlash_keeps | with_reducible apply stripeDone_keeps | exact id
    | (with_reducible refine Keeps.foldl (fun u x hu => ?_) ?_) | split

theorem refreshHealth_keeps {s t : State} (h : Keeps s t) (a0) : Keeps s (refreshHealth a0 t) := by
  unfold refreshHealth
  try dsimp only
  with_reducible repeat' first | assumption | apply setHealth_keeps | refine Keeps.ite ?_ ?_

theorem startCheckpoint_keeps {s t : State} (h : Keeps s t) (a0) : Keeps s (startCheckpoint a0 t) := by
  unfold startCheckpoint
  try dsimp only
  with_reducible repeat' first
    | assumption | apply appendLog_keeps | apply placePages_keeps | apply State.modGroup_keeps
    | refine Keeps.ite ?_ ?_ | (refine Keeps.foldlPair (fun u x hu => ?_) ?_)

theorem memberGone_keeps {s t : State} (h : Keeps s t) (a0 a1) : Keeps s (memberGone a0 a1 t) := by
  unfold memberGone
  try dsimp only
  with_reducible repeat' first
    | assumption | apply State.modGroup_keeps | apply tellLost_keeps | apply secondFailure_keeps
    | apply journalMember_keeps | apply sweepsWithout_keeps | apply eraseWithout_keeps | apply skipChunks_keeps
    | apply refreshHealth_keeps | apply startCheckpoint_keeps | refine Keeps.ite ?_ ?_
    | (refine Keeps.foldl (fun u x hu => ?_) ?_) | split

theorem redirectReads_keeps {s t : State} (h : Keeps s t) (a0 a1 a2) : Keeps s (redirectReads a0 a1 a2 t) := by
  unfold redirectReads
  try dsimp only
  repeat' first
    | with_reducible assumption | with_reducible apply State.modFlash_keeps | with_reducible apply reconstruct_keeps
    | with_reducible apply slotsRevoked_keeps | exact id | with_reducible refine Keeps.ite ?_ ?_
    | (with_reducible refine Keeps.foldl (fun u x hu => ?_) ?_) | split

theorem departBay_keeps {s t : State} (h : Keeps s t) (a0) : Keeps s (departBay a0 t) := by
  unfold departBay
  try dsimp only
  with_reducible repeat' first
    | assumption | apply expireBay_keeps | apply countTimeouts_keeps | apply State.modBay_keeps | apply raise_keeps
    | apply sweepVerified_keeps | apply memberGone_keeps | apply redirectReads_keeps | refine Keeps.ite ?_ ?_
    | (refine Keeps.foldl (fun u x hu => ?_) ?_) | split

theorem moduleFailed_keeps {s t : State} (h : Keeps s t) (a0) : Keeps s (moduleFailed a0 t) := by
  unfold moduleFailed
  try dsimp only
  with_reducible repeat' first | assumption | apply raise_keeps | apply departBay_keeps

theorem dieDead_keeps {s t : State} (h : Keeps s t) (a0 a1 a2) : Keeps s (dieDead a0 a1 a2 t) := by
  unfold dieDead
  try dsimp only
  with_reducible repeat' first
    | assumption | apply State.modGroup_keeps | apply relocateWith_keeps | apply raise_keeps
    | apply moduleFailed_keeps | refine Keeps.ite ?_ ?_ | (refine Keeps.foldl (fun u x hu => ?_) ?_)

theorem rebuildBand_keeps {s t : State} (h : Keeps s t) (a0 a1 a2) : Keeps s (rebuildBand a0 a1 a2 t) := by
  unfold rebuildBand
  try dsimp only
  with_reducible repeat' first
    | assumption | apply queueErase_keeps | refine Keeps.ite ?_ ?_ | (refine Keeps.foldl (fun u x hu => ?_) ?_)

theorem nextBands_keeps {s t : State} (h : Keeps s t) (a0 a1) : Keeps s (nextBands a0 a1 t) := by
  unfold nextBands
  try dsimp only
  with_reducible repeat' first
    | assumption | apply rebuildBand_keeps | apply State.modGroup_keeps | (refine Keeps.foldl (fun u x hu => ?_) ?_)

theorem leaveRebuild_keeps {s t : State} (h : Keeps s t) (a0 a1) : Keeps s (leaveRebuild a0 a1 t) := by
  unfold leaveRebuild
  try dsimp only
  repeat' first
    | with_reducible assumption | with_reducible apply State.modGroup_keeps
    | with_reducible apply State.modFlash_keeps | with_reducible apply nextBands_keeps | exact id
    | (with_reducible refine Keeps.foldl (fun u x hu => ?_) ?_)

theorem eraseSet_keeps {s t : State} (h : Keeps s t) (a0 a1 a2) : Keeps s (eraseSet a0 a1 a2 t) := by
  unfold eraseSet
  try dsimp only
  with_reducible repeat' first | assumption | apply queueErase_keeps | (refine Keeps.foldl (fun u x hu => ?_) ?_)

theorem setEpoch_keeps {s t : State} (h : Keeps s t) (a0 a1) : Keeps s (setEpoch a0 a1 t) := by
  unfold setEpoch
  try dsimp only
  with_reducible repeat' first | assumption | apply submitNow_keeps

theorem unspare_keeps {s t : State} (h : Keeps s t) (a0) : Keeps s (unspare a0 t) := by
  unfold unspare
  try dsimp only
  repeat' first
    | with_reducible assumption | with_reducible apply State.modBay_keeps | exact id | exact FuseLe.refl _
    | with_reducible refine Keeps.upd ?_ ?_ ?_ ?_ ?_ ?_ ?_ ?_ ?_ | exact fun e => by simpa using e

theorem startRebuild_keeps {s t : State} (h : Keeps s t) (a0 a1) : Keeps s (startRebuild a0 a1 t) := by
  unfold startRebuild
  try dsimp only
  with_reducible repeat' first
    | assumption | apply setEpoch_keeps | apply nextBands_keeps | apply eraseSet_keeps | apply raise_keeps
    | apply noticeGroup_keeps | apply refreshHealth_keeps | apply journalMember_keeps | refine Keeps.ite ?_ ?_

theorem cancelQueued_keeps {s t : State} (h : Keeps s t) (a0) : Keeps s (cancelQueued a0 t) := by
  unfold cancelQueued
  try dsimp only
  repeat' first | with_reducible assumption | with_reducible apply State.modFlash_keeps | exact id

theorem makeTarget_keeps {s t : State} (h : Keeps s t) (a0 a1 a2) : Keeps s (makeTarget a0 a1 a2 t) := by
  unfold makeTarget
  try dsimp only
  with_reducible repeat' first
    | assumption | apply State.modGroup_keeps | apply startRebuild_keeps | apply cancelQueued_keeps

theorem takeSpares_keeps {s t : State} (h : Keeps s t) : Keeps s (takeSpares t) := by
  unfold takeSpares
  try dsimp only
  with_reducible repeat' first
    | assumption | apply makeTarget_keeps | apply unspare_keeps | (refine Keeps.foldl (fun u x hu => ?_) ?_) | split

theorem returnMember_keeps {s t : State} (h : Keeps s t) (a0 a1 a2) : Keeps s (returnMember a0 a1 a2 t) := by
  unfold returnMember
  try dsimp only
  with_reducible repeat' first
    | assumption | apply State.modGroup_keeps | apply startRebuild_keeps | apply cancelQueued_keeps

theorem unassigned_keeps {s t : State} (h : Keeps s t) (a0) : Keeps s (unassigned a0 t) := by
  unfold unassigned
  try dsimp only
  with_reducible repeat' first | assumption | apply raise_keeps

theorem assignModule_keeps {s t : State} (h : Keeps s t) (a0) : Keeps s (assignModule a0 t) := by
  unfold assignModule
  try dsimp only
  with_reducible repeat' first
    | assumption | apply returnMember_keeps | apply unassigned_keeps | apply makeTarget_keeps
    | refine Keeps.ite ?_ ?_ | split

/-! ### Replay -/

theorem ownUnit_keeps {s t : State} (h : Keeps s t) (a0 a1 a2 a3) : Keeps s (ownUnit a0 a1 a2 a3 t) := by
  unfold ownUnit
  try dsimp only
  with_reducible repeat' first | assumption | apply State.modGroup_keeps

theorem mapUnit_keeps {s t : State} (h : Keeps s t) (a0 a1 a2 a3) : Keeps s (mapUnit a0 a1 a2 a3 t) := by
  unfold mapUnit
  try dsimp only
  with_reducible repeat' first
    | assumption | apply addValid_keeps | apply State.modNs_keeps | apply dropOld_keeps | refine Keeps.ite ?_ ?_
    | split

theorem applyUnit_keeps {s t : State} (h : Keeps s t) (a0 a1 a2 a3 a4) : Keeps s (applyUnit a0 a1 a2 a3 a4 t) := by
  unfold applyUnit
  try dsimp only
  with_reducible repeat' first
    | assumption | apply ownUnit_keeps | apply mapUnit_keeps | refine Keeps.ite ?_ ?_ | split

theorem applyDone_keeps {s t : State} (h : Keeps s t) (a0 a1 a2 a3) : Keeps s (applyDone a0 a1 a2 a3 t) := by
  unfold applyDone
  try dsimp only
  with_reducible repeat' first | assumption | apply State.modGroup_keeps

theorem applyBandOpen_keeps {s t : State} (h : Keeps s t) (a0 a1 a2) : Keeps s (applyBandOpen a0 a1 a2 t) := by
  unfold applyBandOpen
  try dsimp only
  with_reducible repeat' first | assumption | apply State.modGroup_keeps

theorem applyMove_keeps {s t : State} (h : Keeps s t) (a0 a1 a2 a3) : Keeps s (applyMove a0 a1 a2 a3 t) := by
  unfold applyMove
  try dsimp only
  with_reducible repeat' first | assumption | apply applyUnit_keeps | refine Keeps.ite ?_ ?_ | split

theorem applyErased_keeps {s t : State} (h : Keeps s t) (a0 a1) : Keeps s (applyErased a0 a1 t) := by
  unfold applyErased
  try dsimp only
  with_reducible repeat' first | assumption | apply State.modGroup_keeps | refine Keeps.ite ?_ ?_

theorem applyRetire_keeps {s t : State} (h : Keeps s t) (a0 a1 a2 a3) : Keeps s (applyRetire a0 a1 a2 a3 t) := by
  unfold applyRetire
  try dsimp only
  with_reducible repeat' first | assumption | apply State.modGroup_keeps

theorem clearUnits_keeps {s t : State} (h : Keeps s t) (a0 a1 a2 a3) : Keeps s (clearUnits a0 a1 a2 a3 t) := by
  unfold clearUnits
  try dsimp only
  with_reducible repeat' first
    | assumption | apply dropOld_keeps | apply State.modNs_keeps | (refine Keeps.foldl (fun u x hu => ?_) ?_)
    | split

theorem clearZone_keeps {s t : State} (h : Keeps s t) (a0 a1) : Keeps s (clearZone a0 a1 t) := by
  unfold clearZone
  try dsimp only
  with_reducible repeat' first
    | assumption | apply addValid_keeps | apply State.modNs_keeps | (refine Keeps.foldl (fun u x hu => ?_) ?_)
    | split

theorem applyMember_keeps {s t : State} (h : Keeps s t) (a0 a1) : Keeps s (applyMember a0 a1 t) := by
  unfold applyMember
  try dsimp only
  with_reducible repeat' first | assumption | apply State.modGroup_keeps

theorem applyRec_keeps {s t : State} (h : Keeps s t) (a0 a2) : Keeps s (applyRec a0 t a2) := by
  unfold applyRec
  try dsimp only
  with_reducible repeat' first
    | assumption | apply State.modGroup_keeps | apply applyUnit_keeps | apply applyDone_keeps
    | apply applyBandOpen_keeps | apply applyMove_keeps | apply applyErased_keeps | apply applyRetire_keeps
    | apply clearUnits_keeps | apply clearZone_keeps | apply State.modNs_keeps | apply applyMember_keeps
    | refine Keeps.ite ?_ ?_ | (refine Keeps.foldl (fun u x hu => ?_) ?_) | split

/-! ### MountEnd -/

theorem askDie_keeps {s t : State} (h : Keeps s t) (a0 a1) : Keeps s (askDie a0 a1 t) := by
  unfold askDie
  try dsimp only
  with_reducible repeat' first | assumption | apply State.modDie_keeps | apply submitNow_keeps

theorem askDies_keeps {s t : State} (h : Keeps s t) (a0) : Keeps s (askDies a0 t) := by
  unfold askDies
  try dsimp only
  with_reducible repeat' first | assumption | apply askDie_keeps | (refine Keeps.foldl (fun u x hu => ?_) ?_)

theorem recount_keeps {s t : State} (h : Keeps s t) (a0) : Keeps s (recount a0 t) := by
  unfold recount
  try dsimp only
  with_reducible repeat' first | assumption | apply State.modGroup_keeps

theorem eraseBand_keeps {s t : State} (h : Keeps s t) (a0 a1) : Keeps s (eraseBand a0 a1 t) := by
  unfold eraseBand
  try dsimp only
  with_reducible repeat' first
    | assumption | apply leaveRebuild_keeps | apply journal_keeps | apply State.modGroup_keeps
    | apply swapBlock_keeps | apply queueErase_keeps | apply retireBand_keeps
    | (refine Keeps.named (by assumption) ?_) | refine Keeps.ite ?_ ?_ | (refine Keeps.foldl (fun u x hu => ?_) ?_)
    | split

theorem scanDone_keeps {s t : State} (h : Keeps s t) (a0 a1) : Keeps s (scanDone a0 a1 t) := by
  unfold scanDone
  try dsimp only
  with_reducible repeat' first | assumption | apply sweepDone_keeps | apply startSweep_keeps | refine Keeps.ite ?_ ?_

theorem scanFrom_keeps {s t : State} (h : Keeps s t) (a0 a1 a2 a3 a4) : Keeps s (scanFrom a0 a1 a2 a3 a4 t) := by
  unfold scanFrom
  try dsimp only
  with_reducible repeat' first
    | assumption | apply State.modGroup_keeps | apply enqueue_keeps | refine Keeps.ite ?_ ?_

theorem startScan_keeps {s t : State} (h : Keeps s t) (a0 a1) : Keeps s (startScan a0 a1 t) := by
  unfold startScan
  try dsimp only
  with_reducible repeat' first
    | assumption | apply State.modGroup_keeps | apply scanDone_keeps | apply scanFrom_keeps
    | (refine Keeps.foldl (fun u x hu => ?_) ?_)

theorem settleBand_keeps {s t : State} (h : Keeps s t) (a0 a2) : Keeps s (settleBand a0 t a2) := by
  unfold settleBand
  try dsimp only
  with_reducible repeat' first
    | assumption | apply State.modGroup_keeps | apply eraseBand_keeps | apply startScan_keeps | split

theorem resumeRebuild_keeps {s t : State} (h : Keeps s t) (a0) : Keeps s (resumeRebuild a0 t) := by
  unfold resumeRebuild
  try dsimp only
  with_reducible repeat' first | assumption | apply nextBands_keeps | (refine Keeps.foldl (fun u x hu => ?_) ?_)

theorem eraseSets_keeps {s t : State} (h : Keeps s t) (a0) : Keeps s (eraseSets a0 t) := by
  unfold eraseSets
  try dsimp only
  with_reducible repeat' first
    | assumption | apply eraseSet_keeps | refine Keeps.ite ?_ ?_ | (refine Keeps.foldl (fun u x hu => ?_) ?_)

theorem takeRole_keeps {s t : State} (h : Keeps s t) (a0) : Keeps s (takeRole a0 t) := by
  unfold takeRole
  try dsimp only
  with_reducible repeat' first
    | assumption | apply renewLease_keeps | apply setRole_keeps | apply State.modGroup_keeps
    | apply State.drew_keeps | apply raise_keeps | apply setScrimEvt_keeps | apply countScrim_keeps
    | refine Keeps.ite ?_ ?_ | split

theorem mountEnd_keeps {s t : State} (h : Keeps s t) (a0) : Keeps s (mountEnd a0 t) := by
  unfold mountEnd
  try dsimp only
  with_reducible repeat' first
    | assumption | apply setHealth_keeps | apply resumeRebuild_keeps | apply eraseSets_keeps | apply raise_keeps
    | apply takeRole_keeps | apply startCheckpoint_keeps | apply spaceCheck_keeps | refine Keeps.ite ?_ ?_

theorem mountDone_keeps {s t : State} (h : Keeps s t) (a0) : Keeps s (mountDone a0 t) := by
  unfold mountDone
  try dsimp only
  with_reducible repeat' first
    | assumption | apply recount_keeps | apply State.modGroup_keeps | apply settleBand_keeps | apply mountEnd_keeps
    | refine Keeps.ite ?_ ?_ | (refine Keeps.foldl (fun u x hu => ?_) ?_)

theorem mountsGoOn_keeps {s t : State} (h : Keeps s t) : Keeps s (mountsGoOn t) := by
  unfold mountsGoOn
  try dsimp only
  with_reducible repeat' first
    | assumption | apply mountDone_keeps | apply scanDone_keeps | (refine Keeps.foldl (fun u x hu => ?_) ?_)

theorem notFit_keeps {s t : State} (h : Keeps s t) (a0) : Keeps s (notFit a0 t) := by
  unfold notFit
  try dsimp only
  with_reducible repeat' first
    | assumption | apply anaRefresh_keeps | apply setRole_keeps | apply raise_keeps | apply State.modGroup_keeps

/-! ### Landing -/

theorem peerReadReq_keeps {s t : State} (h : Keeps s t) (a0 a1) : Keeps s (peerReadReq a0 a1 t) := by
  unfold peerReadReq
  try dsimp only
  repeat' first
    | with_reducible assumption | with_reducible apply scrimSend_keeps | with_reducible apply State.modFlash_keeps
    | exact id | with_reducible refine Keeps.ite ?_ ?_ | split

theorem lateData_keeps {s t : State} (h : Keeps s t) (a0) : Keeps s (lateData a0 t) := by
  unfold lateData
  try dsimp only
  repeat' first
    | with_reducible assumption | with_reducible apply State.modFlash_keeps
    | with_reducible apply State.modBay_keeps | with_reducible apply raise_keeps | exact id
    | with_reducible refine Keeps.ite ?_ ?_

theorem peerBad_keeps {s t : State} (h : Keeps s t) (a0 a1) : Keeps s (peerBad a0 a1 t) := by
  unfold peerBad
  try dsimp only
  repeat' first
    | with_reducible assumption | with_reducible apply State.modFlash_keeps | with_reducible apply reportFault_keeps
    | with_reducible apply raise_keeps | exact id | with_reducible refine Keeps.ite ?_ ?_

theorem malformed_keeps {s t : State} (h : Keeps s t) (a0) : Keeps s (malformed a0 t) := by
  unfold malformed
  try dsimp only
  repeat' first
    | with_reducible assumption | with_reducible apply State.modOp_keeps | with_reducible apply State.modFlash_keeps
    | exact id

theorem landWrite_keeps {s t : State} (h : Keeps s t) (a0 a1 a2 a3 a4 a5) : Keeps s (landWrite a0 a1 a2 a3 a4 a5 t) := by
  unfold landWrite
  try dsimp only
  with_reducible repeat' first
    | assumption | apply lateData_keeps | apply malformed_keeps | apply State.modOp_keeps | apply State.modBuf_keeps
    | refine Keeps.ite ?_ ?_ | split

theorem peerReadRsp_keeps {s t : State} (h : Keeps s t) (a0 a1) : Keeps s (peerReadRsp a0 a1 t) := by
  unfold peerReadRsp
  try dsimp only
  repeat' first
    | with_reducible assumption | with_reducible apply lateData_keeps | with_reducible apply peerBad_keeps
    | with_reducible apply revokePeer_keeps | with_reducible apply landWrite_keeps
    | with_reducible apply State.modBuf_keeps | with_reducible apply State.modFlash_keeps
    | with_reducible apply State.freeOp_keeps | exact id | with_reducible refine Keeps.ite ?_ ?_ | split

theorem peerHeard_keeps {s t : State} (h : Keeps s t) (a0) : Keeps s (peerHeard a0 t) := by
  unfold peerHeard
  try dsimp only
  repeat' first
    | with_reducible assumption | with_reducible apply State.modFlash_keeps | with_reducible apply clearFault_keeps
    | exact id | with_reducible refine Keeps.ite ?_ ?_

theorem stageStarveTimeout_keeps {s t : State} (h : Keeps s t) : Keeps s (stageStarveTimeout t) := by
  unfold stageStarveTimeout
  try dsimp only
  repeat' first
    | with_reducible assumption | with_reducible apply State.modFlash_keeps | with_reducible apply raise_keeps
    | exact id | with_reducible refine Keeps.ite ?_ ?_

theorem bayWriteTlp_keeps {s t : State} (h : Keeps s t) (a0 a1 a2) : Keeps s (bayWriteTlp a0 a1 a2 t) := by
  unfold bayWriteTlp
  try dsimp only
  with_reducible repeat' first
    | assumption | apply landWrite_keeps | apply State.modBay_keeps | refine Keeps.ite ?_ ?_

theorem skimResult_keeps {s t : State} (h : Keeps s t) (a0 a1 a2 a3) : Keeps s (skimResult a0 a1 a2 a3 t) := by
  unfold skimResult
  try dsimp only
  with_reducible repeat' first | assumption | apply State.modGroup_keeps

theorem replayDone_keeps {s t : State} (h : Keeps s t) (a0 a1 a2) : Keeps s (replayDone a0 a1 a2 t) := by
  unfold replayDone
  try dsimp only
  with_reducible repeat' first
    | assumption | apply State.modGroup_keeps | apply tellLost_keeps | apply loseUnit_keeps | apply mountDone_keeps
    | refine Keeps.ite ?_ ?_

theorem losePlace_keeps {s t : State} (h : Keeps s t) (a0 a1) : Keeps s (losePlace a0 a1 t) := by
  unfold losePlace
  try dsimp only
  with_reducible repeat' first
    | assumption | apply loseUnit_keeps | apply tellLost_keeps | refine Keeps.ite ?_ ?_
    | (refine Keeps.foldl (fun u x hu => ?_) ?_) | split

theorem abandonCopy_keeps {s t : State} (h : Keeps s t) (a0 a1 a2) : Keeps s (abandonCopy a0 a1 a2 t) := by
  unfold abandonCopy
  try dsimp only
  with_reducible repeat' first
    | assumption | apply dropPlaces_keeps | apply State.modGroup_keeps | apply refreshHealth_keeps
    | apply nextTodo_keeps | refine Keeps.ite ?_ ?_ | (refine Keeps.foldl (fun u x hu => ?_) ?_)

theorem rebuiltUnit_keeps {s t : State} (h : Keeps s t) (a0 a1 a2) : Keeps s (rebuiltUnit a0 a1 a2 t) := by
  unfold rebuiltUnit
  try dsimp only
  with_reducible repeat' first | assumption | apply enqueue_keeps | refine Keeps.ite ?_ ?_ | split

theorem unitFailed_keeps {s t : State} (h : Keeps s t) (a0) : Keeps s (unitFailed a0 t) := by
  unfold unitFailed
  try dsimp only
  repeat' first
    | with_reducible assumption | with_reducible apply State.freeBuf_keeps | with_reducible apply failLost_keeps
    | with_reducible apply losePlace_keeps | with_reducible apply failCmd_keeps
    | with_reducible apply abandonCopy_keeps | with_reducible apply loseUnit_keeps
    | with_reducible apply State.modFlash_keeps | with_reducible apply rebuiltUnit_keeps
    | with_reducible apply relocate_keeps | with_reducible apply tellLost_keeps
    | with_reducible apply skimResult_keeps | with_reducible apply replayDone_keeps | exact id
    | with_reducible refine Keeps.ite ?_ ?_ | (with_reducible refine Keeps.foldl (fun u x hu => ?_) ?_) | split

theorem rescue_keeps {s t : State} (h : Keeps s t) (a0) : Keeps s (rescue a0 t) := by
  unfold rescue
  try dsimp only
  repeat' first
    | with_reducible assumption | with_reducible apply unitFailed_keeps | with_reducible apply reconstruct_keeps
    | with_reducible apply State.modBuf_keeps | with_reducible apply readOwn_keeps
    | with_reducible apply State.modFlash_keeps | exact id | with_reducible refine Keeps.ite ?_ ?_ | split

theorem tagCheckDone_keeps {s t : State} (h : Keeps s t) (a0) : Keeps s (tagCheckDone a0 t) := by
  unfold tagCheckDone
  try dsimp only
  repeat' first
    | with_reducible assumption | with_reducible apply keyFail_keeps | with_reducible apply State.freeBuf_keeps
    | with_reducible apply State.modBuf_keeps | with_reducible apply useNsKeys_keeps
    | with_reducible apply hostUnitReady_keeps | with_reducible apply rmwReady_keeps
    | with_reducible apply skimResult_keeps | with_reducible apply replayDone_keeps
    | with_reducible apply State.modCiph_keeps | with_reducible apply State.modFlash_keeps
    | with_reducible apply rescue_keeps | exact id | with_reducible refine Keeps.ite ?_ ?_ | split

theorem slotRevokeDrain_keeps {s t : State} (h : Keeps s t) (a0) : Keeps s (slotRevokeDrain a0 t) := by
  unfold slotRevokeDrain
  try dsimp only
  with_reducible repeat' first
    | assumption | apply State.freeBuf_keeps | apply rescue_keeps | apply State.modBuf_keeps
    | refine Keeps.ite ?_ ?_ | split

theorem tagQuarantineExpiry_keeps {s t : State} (h : Keeps s t) (a0) : Keeps s (tagQuarantineExpiry a0 t) := by
  unfold tagQuarantineExpiry
  try dsimp only
  with_reducible repeat' first | assumption | apply State.freeOp_keeps | refine Keeps.ite ?_ ?_ | split

theorem hawkDecay_keeps {s t : State} (h : Keeps s t) : Keeps s (hawkDecay t) := by
  unfold hawkDecay
  try dsimp only
  repeat' first
    | with_reducible assumption | with_reducible apply State.modFlash_keeps | exact id
    | with_reducible refine Keeps.ite ?_ ?_

theorem hawkPinRelease_keeps {s t : State} (h : Keeps s t) (a0 a1) : Keeps s (hawkPinRelease a0 a1 t) := by
  unfold hawkPinRelease
  try dsimp only
  repeat' first | with_reducible assumption | with_reducible apply State.modFlash_keeps | exact id

theorem peerSilent_keeps {s t : State} (h : Keeps s t) (a0) : Keeps s (peerSilent a0 t) := by
  unfold peerSilent
  try dsimp only
  repeat' first
    | with_reducible assumption | with_reducible apply State.modFlash_keeps | with_reducible apply reportFault_keeps
    | exact id | with_reducible refine Keeps.ite ?_ ?_

theorem peerHoldExpiry_keeps {s t : State} (h : Keeps s t) (a0) : Keeps s (peerHoldExpiry a0 t) := by
  unfold peerHoldExpiry
  try dsimp only
  with_reducible repeat' first
    | assumption | apply State.modBuf_keeps | apply peerSilent_keeps | refine Keeps.ite ?_ ?_ | split

theorem landedUnchecked_keeps {s t : State} (h : Keeps s t) (a0) : Keeps s (landedUnchecked a0 t) := by
  unfold landedUnchecked
  try dsimp only
  with_reducible repeat' first
    | assumption | apply landCopy_keeps | apply State.modBuf_keeps | apply rebuiltUnit_keeps
    | apply State.freeBuf_keeps | apply skimResult_keeps | split

theorem landed_keeps {s t : State} (h : Keeps s t) (a0) : Keeps s (landed a0 t) := by
  unfold landed
  try dsimp only
  with_reducible repeat' first
    | assumption | apply State.freeBuf_keeps | apply State.modBuf_keeps | apply landedUnchecked_keeps
    | refine Keeps.ite ?_ ?_ | split

end Sys2Proof.Machine
end

