-- ==== Sys2Proof/Laws/Keeps4.lean ====
section
/-! SUPPORT. What the operations of FlashCpl, Bays, Collect, Flush, BayPower keep (Laws/Keeps.lean): one lemma for
each. -/

set_option linter.unusedVariables false

namespace Sys2Proof.Machine

/-! ### FlashCpl -/

theorem consumeEntry_keeps {s t : State} (h : Keeps s t) (a0) : Keeps s (consumeEntry a0 t) := by
  unfold consumeEntry
  try dsimp only
  with_reducible repeat' first
    | assumption | apply State.modBay_keeps | apply State.emit_keeps | refine Keeps.ite ?_ ?_

theorem lateCpl_keeps {s t : State} (h : Keeps s t) (a0) : Keeps s (lateCpl a0 t) := by
  unfold lateCpl
  try dsimp only
  with_reducible repeat' first | assumption | apply State.modBay_keeps

theorem countInvalid_keeps {s t : State} (h : Keeps s t) (a0) : Keeps s (countInvalid a0 t) := by
  unfold countInvalid
  try dsimp only
  with_reducible repeat' first
    | assumption | apply State.modBay_keeps | apply moduleFailed_keeps | refine Keeps.ite ?_ ?_

theorem takeCpl_keeps {s t : State} (h : Keeps s t) (b o e f) (hf : ∀ c g u, Keeps s u → Keeps s (f c g u)) :
    Keeps s (takeCpl b o e f t) := by
  unfold takeCpl
  extract_lets c s0
  have h0 : Keeps s s0 := consumeEntry_keeps h _
  split
  · exact h
  · split
    · exact lateCpl_keeps h0 _
    · extract_lets s1 s2 gone s3
      have h1 : Keeps s s1 := by
        refine State.modBay_keeps ?_ _ _
        split
        · exact quarantine_keeps h0 _
        · exact State.freeOp_keeps h0 _
      have h2 : Keeps s s2 := by
        simp only [s2]
        repeat' first
          | exact h1
          | exact fence_keeps (State.modBay_keeps h1 _ _) _
          | exact dieDead_keeps h1 _ _ _
          | split
      have h3 : Keeps s s3 := by
        simp only [s3]
        split
        · exact h2
        · exact hf _ _ _ h2
      split
      · exact countInvalid_keeps h3 _
      · exact h3

theorem dieFree_keeps {s t : State} (h : Keeps s t) (a0) : Keeps s (dieFree a0 t) := by
  unfold dieFree
  try dsimp only
  with_reducible repeat' first | assumption | apply State.modDie_keeps

theorem cleaned_keeps {s t : State} (h : Keeps s t) (a0 a1 a2 a3) : Keeps s (cleaned a0 a1 a2 a3 t) := by
  unfold cleaned
  try dsimp only
  with_reducible repeat' first | assumption | apply State.modGroup_keeps

theorem passed_keeps {s t : State} (h : Keeps s t) (a0 a1 a2 a3) : Keeps s (passed a0 a1 a2 a3 t) := by
  unfold passed
  try dsimp only
  with_reducible repeat' first | assumption | apply State.modGroup_keeps

theorem areaGone_keeps {s t : State} (h : Keeps s t) (a0 a1 a2) : Keeps s (areaGone a0 a1 a2 t) := by
  unfold areaGone
  try dsimp only
  with_reducible repeat' first | assumption | apply State.modGroup_keeps

theorem setErased_keeps {s t : State} (h : Keeps s t) (a0 a1 a2) : Keeps s (setErased a0 a1 a2 t) := by
  unfold setErased
  try dsimp only
  with_reducible repeat' first | assumption | apply State.modGroup_keeps | refine Keeps.ite ?_ ?_

theorem rebuildStripe_keeps {s t : State} (h : Keeps s t) (a0 a1 a2 a3) : Keeps s (rebuildStripe a0 a1 a2 a3 t) := by
  unfold rebuildStripe
  try dsimp only
  with_reducible repeat' first
    | assumption | apply chunkSources_keeps | apply enqueue_keeps | apply requestBuf_keeps | refine Keeps.ite ?_ ?_
    | (refine Keeps.foldl (fun u x hu => ?_) ?_)

theorem rowRebuilt_keeps {s t : State} (h : Keeps s t) (a0 a1 a2 a3 a4) : Keeps s (rowRebuilt a0 a1 a2 a3 a4 t) := by
  unfold rowRebuilt
  try dsimp only
  with_reducible repeat' first
    | assumption | apply State.modGroup_keeps | apply rebuildStripe_keeps | refine Keeps.ite ?_ ?_

theorem blockErased_keeps {s t : State} (h : Keeps s t) (a0 a1 a2 a3 a4) : Keeps s (blockErased a0 a1 a2 a3 a4 t) := by
  unfold blockErased
  try dsimp only
  with_reducible repeat' first
    | assumption | apply cleaned_keeps | apply passed_keeps | apply joinSpare_keeps | apply bandErased_keeps
    | apply State.modGroup_keeps | apply mountDone_keeps | apply sweepDone_keeps | apply areaGone_keeps
    | apply setErased_keeps | apply rowRebuilt_keeps | apply journal_keeps | refine Keeps.ite ?_ ?_ | split

theorem clearExposure_keeps {s t : State} (h : Keeps s t) (a0 a1 a2 a3) : Keeps s (clearExposure a0 a1 a2 a3 t) := by
  unfold clearExposure
  try dsimp only
  with_reducible repeat' first | assumption | apply State.modGroup_keeps

theorem blockBad_keeps {s t : State} (h : Keeps s t) (a0 a1 a2 a3 a4 a5) : Keeps s (blockBad a0 a1 a2 a3 a4 a5 t) := by
  unfold blockBad
  try dsimp only
  repeat' first
    | with_reducible assumption | with_reducible apply bandErased_keeps | with_reducible apply passed_keeps
    | with_reducible apply eraseBad_keeps | with_reducible apply areaEraseBad_keeps
    | with_reducible apply mountDone_keeps | with_reducible apply sweepDone_keeps
    | with_reducible apply areaGone_keeps | with_reducible apply retireBlock_keeps
    | with_reducible apply rebuildEraseBad_keeps | with_reducible apply anchorsDone_keeps
    | with_reducible apply State.freeSlot_keeps | with_reducible apply State.modFlash_keeps | exact id
    | with_reducible refine Keeps.ite ?_ ?_ | (with_reducible refine Keeps.foldl (fun u x hu => ?_) ?_) | split

theorem eraseEnds_keeps {s t : State} (h : Keeps s t) (a0 a1) : Keeps s (eraseEnds a0 a1 t) := by
  unfold eraseEnds
  try dsimp only
  repeat' first
    | with_reducible assumption | with_reducible apply dieFree_keeps | with_reducible apply blockErased_keeps
    | with_reducible apply clearExposure_keeps | with_reducible apply State.modFlash_keeps
    | with_reducible apply blockBad_keeps | exact id | with_reducible refine Keeps.ite ?_ ?_ | split

theorem eraseCpl_keeps {s t : State} (h : Keeps s t) (a0 a1) : Keeps s (eraseCpl a0 a1 t) := by
  unfold eraseCpl
  try dsimp only
  with_reducible repeat' first | assumption | apply takeCpl_keeps | apply eraseEnds_keeps | intro _

theorem eraseTurnSuspend_keeps {s t : State} (h : Keeps s t) : Keeps s (eraseTurnSuspend t) := by
  unfold eraseTurnSuspend
  try dsimp only
  with_reducible repeat' first
    | assumption | apply State.modDie_keeps | apply State.modOp_keeps | apply submitNow_keeps
    | refine Keeps.ite ?_ ?_ | (refine Keeps.foldl (fun u x hu => ?_) ?_) | split

theorem readExposed_keeps {s t : State} (h : Keeps s t) (a0 a1 a2 a3) : Keeps s (readExposed a0 a1 a2 a3 t) := by
  unfold readExposed
  try dsimp only
  with_reducible repeat' first | assumption | apply requestBuf_keeps | (refine Keeps.foldl (fun u x hu => ?_) ?_)

theorem exposeBlock_keeps {s t : State} (h : Keeps s t) (a0 a1 a2 a3) : Keeps s (exposeBlock a0 a1 a2 a3 t) := by
  unfold exposeBlock
  try dsimp only
  with_reducible repeat' first
    | assumption | apply State.drew_keeps | apply State.modGroup_keeps | apply readExposed_keeps
    | refine Keeps.ite ?_ ?_

theorem exposeChunk_keeps {s t : State} (h : Keeps s t) (a0) : Keeps s (exposeChunk a0 t) := by
  unfold exposeChunk
  try dsimp only
  with_reducible repeat' first
    | assumption | apply exposeBlock_keeps | (refine Keeps.foldl (fun u x hu => ?_) ?_) | split

theorem refreshBlock_keeps {s t : State} (h : Keeps s t) (a0) : Keeps s (refreshBlock a0 t) := by
  unfold refreshBlock
  try dsimp only
  with_reducible repeat' first
    | assumption | apply State.modCtrs_keeps | apply relocate_keeps | apply raise_keeps | apply State.modGroup_keeps
    | refine Keeps.ite ?_ ?_

theorem rebuiltFailed_keeps {s t : State} (h : Keeps s t) (a0 a1 a2 a3) : Keeps s (rebuiltFailed a0 a1 a2 a3 t) := by
  unfold rebuiltFailed
  try dsimp only
  with_reducible repeat' first
    | assumption | apply takeSpare_keeps | apply State.modGroup_keeps | apply rebuildStripe_keeps
    | apply queueErase_keeps | apply raise_keeps | apply leaveDie_keeps | (refine Keeps.named (by assumption) ?_)
    | split

theorem verifyEnds_keeps {s t : State} (h : Keeps s t) (a0 a1) : Keeps s (verifyEnds a0 a1 t) := by
  unfold verifyEnds
  try dsimp only
  with_reducible repeat' first
    | assumption | apply exposeChunk_keeps | apply State.modDie_keeps | apply refreshBlock_keeps
    | apply chunkVerified_keeps | apply chunkFailed_keeps | apply mountDone_keeps | apply sweepVerified_keeps
    | apply scanDone_keeps | apply State.modGroup_keeps | apply scanFrom_keeps | apply cleanSlots_keeps
    | apply areaFailed_keeps | apply rowRebuilt_keeps | apply rebuiltFailed_keeps | refine Keeps.ite ?_ ?_ | split

theorem programBad_keeps {s t : State} (h : Keeps s t) (a0) : Keeps s (programBad a0 t) := by
  unfold programBad
  try dsimp only
  with_reducible repeat' first
    | assumption | apply chunkFailed_keeps | apply areaFailed_keeps | apply rebuiltFailed_keeps
    | apply cleanSlots_keeps | apply anchorsDone_keeps | apply retireBlock_keeps | split

theorem opGone_keeps {s t : State} (h : Keeps s t) (a0) : Keeps s (opGone a0 t) := by
  unfold opGone
  try dsimp only
  with_reducible repeat' first
    | assumption | apply quarantine_keeps | apply State.modDie_keeps | apply slotsRevoked_keeps
    | apply State.modBuf_keeps | apply verifyEnds_keeps | apply programBad_keeps | apply eraseEnds_keeps
    | refine Keeps.ite ?_ ?_ | split

theorem abortEnds_keeps {s t : State} (h : Keeps s t) (a0 a1) : Keeps s (abortEnds a0 a1 t) := by
  unfold abortEnds
  try dsimp only
  repeat' first
    | with_reducible assumption | with_reducible apply State.modFlash_keeps | with_reducible apply opGone_keeps
    | with_reducible apply dieFree_keeps | exact id | with_reducible refine Keeps.ite ?_ ?_ | split

theorem programOverrun_keeps {s t : State} (h : Keeps s t) (a0 a1) : Keeps s (programOverrun a0 a1 t) := by
  unfold programOverrun
  try dsimp only
  with_reducible repeat' first
    | assumption | apply State.modBay_keeps | apply State.modDie_keeps | apply raise_keeps | refine Keeps.ite ?_ ?_

theorem dieStatusPoll_keeps {s t : State} (h : Keeps s t) (a0 a1) : Keeps s (dieStatusPoll a0 a1 t) := by
  unfold dieStatusPoll
  try dsimp only
  with_reducible repeat' first | assumption | apply askDie_keeps | refine Keeps.ite ?_ ?_

theorem readEnds_keeps {s t : State} (h : Keeps s t) (a0 a1) : Keeps s (readEnds a0 a1 t) := by
  unfold readEnds
  try dsimp only
  with_reducible repeat' first
    | assumption | apply State.modDie_keeps | apply exposeBlock_keeps | apply State.freeBuf_keeps
    | apply refreshBlock_keeps | apply landed_keeps | apply State.modBuf_keeps | apply rescue_keeps
    | apply slotsRevoked_keeps | refine Keeps.ite ?_ ?_ | split

theorem readCpl_keeps {s t : State} (h : Keeps s t) (a0 a1) : Keeps s (readCpl a0 a1 t) := by
  unfold readCpl
  try dsimp only
  with_reducible repeat' first | assumption | apply takeCpl_keeps | apply readEnds_keeps | intro _

theorem verifyCpl_keeps {s t : State} (h : Keeps s t) (a0 a1) : Keeps s (verifyCpl a0 a1 t) := by
  unfold verifyCpl
  try dsimp only
  with_reducible repeat' first | assumption | apply takeCpl_keeps | apply verifyEnds_keeps | intro _

theorem countProgrammed_keeps {s t : State} (h : Keeps s t) (a0) : Keeps s (countProgrammed a0 t) := by
  unfold countProgrammed
  try dsimp only
  with_reducible repeat' first | assumption | apply State.modCtrs_keeps | split

theorem programEnds_keeps {s t : State} (h : Keeps s t) (a0 a1) : Keeps s (programEnds a0 a1 t) := by
  unfold programEnds
  try dsimp only
  with_reducible repeat' first
    | assumption | apply dieFree_keeps | apply countProgrammed_keeps | apply anchorsDone_keeps
    | apply cleanSlots_keeps | apply enqueue_keeps | apply programBad_keeps | refine Keeps.ite ?_ ?_ | split

theorem programCpl_keeps {s t : State} (h : Keeps s t) (a0 a1) : Keeps s (programCpl a0 a1 t) := by
  unfold programCpl
  try dsimp only
  with_reducible repeat' first | assumption | apply takeCpl_keeps | apply programEnds_keeps | intro _

theorem dieIdle_keeps {s t : State} (h : Keeps s t) (a0 a1) : Keeps s (dieIdle a0 a1 t) := by
  unfold dieIdle
  try dsimp only
  with_reducible repeat' first | assumption | apply State.modDie_keeps

theorem dieUnknown_keeps {s t : State} (h : Keeps s t) (a0 a1) : Keeps s (dieUnknown a0 a1 t) := by
  unfold dieUnknown
  try dsimp only
  with_reducible repeat' first | assumption | apply State.modDie_keeps

theorem suspendEnds_keeps {s t : State} (h : Keeps s t) (a0 a1) : Keeps s (suspendEnds a0 a1 t) := by
  unfold suspendEnds
  try dsimp only
  with_reducible repeat' first
    | assumption | apply dieIdle_keeps | apply dieUnknown_keeps | apply State.modDie_keeps | apply State.modOp_keeps
    | refine Keeps.ite ?_ ?_ | split

theorem suspendCpl_keeps {s t : State} (h : Keeps s t) (a0 a1) : Keeps s (suspendCpl a0 a1 t) := by
  unfold suspendCpl
  try dsimp only
  with_reducible repeat' first | assumption | apply takeCpl_keeps | apply suspendEnds_keeps | intro _

theorem resumeEnds_keeps {s t : State} (h : Keeps s t) (a0 a1) : Keeps s (resumeEnds a0 a1 t) := by
  unfold resumeEnds
  try dsimp only
  with_reducible repeat' first | assumption | apply dieIdle_keeps | apply dieUnknown_keeps | refine Keeps.ite ?_ ?_

theorem resumeCpl_keeps {s t : State} (h : Keeps s t) (a0 a1) : Keeps s (resumeCpl a0 a1 t) := by
  unfold resumeCpl
  try dsimp only
  with_reducible repeat' first | assumption | apply takeCpl_keeps | apply resumeEnds_keeps | intro _

theorem abortCpl_keeps {s t : State} (h : Keeps s t) (a0 a1) : Keeps s (abortCpl a0 a1 t) := by
  unfold abortCpl
  try dsimp only
  with_reducible repeat' first | assumption | apply takeCpl_keeps | apply abortEnds_keeps | intro _

theorem dieReport_keeps {s t : State} (h : Keeps s t) (a0 a1 a2) : Keeps s (dieReport a0 a1 a2 t) := by
  unfold dieReport
  try dsimp only
  with_reducible repeat' first
    | assumption | apply dieIdle_keeps | apply State.modDie_keeps | apply resumeDie_keeps | apply dieDead_keeps
    | refine Keeps.ite ?_ ?_ | split

theorem dieStatusEnds_keeps {s t : State} (h : Keeps s t) (a0 a1) : Keeps s (dieStatusEnds a0 a1 t) := by
  unfold dieStatusEnds
  try dsimp only
  with_reducible repeat' first
    | assumption | apply State.modDie_keeps | apply dieReport_keeps | apply dieIdle_keeps | apply dieUnknown_keeps
    | refine Keeps.ite ?_ ?_

theorem dieStatusCpl_keeps {s t : State} (h : Keeps s t) (a0 a1) : Keeps s (dieStatusCpl a0 a1 t) := by
  unfold dieStatusCpl
  try dsimp only
  with_reducible repeat' first | assumption | apply takeCpl_keeps | apply dieStatusEnds_keeps | intro _

theorem opAbortTimer_keeps {s t : State} (h : Keeps s t) (a0) : Keeps s (opAbortTimer a0 t) := by
  unfold opAbortTimer
  try dsimp only
  with_reducible repeat' first
    | assumption | apply State.modBay_keeps | apply State.modOp_keeps | apply submitNow_keeps
    | refine Keeps.ite ?_ ?_ | split

theorem opTimeout_keeps {s t : State} (h : Keeps s t) (a0) : Keeps s (opTimeout a0 t) := by
  unfold opTimeout
  try dsimp only
  with_reducible repeat' first
    | assumption | apply opGone_keeps | apply countTimeouts_keeps | apply State.modDie_keeps
    | apply dieUnknown_keeps | apply moduleFailed_keeps | apply setEpoch_keeps | refine Keeps.ite ?_ ?_ | split

theorem moduleSourceRead_keeps {s t : State} (h : Keeps s t) (a0 a1 a2) : Keeps s (moduleSourceRead a0 a1 a2 t) := by
  unfold moduleSourceRead
  try dsimp only
  with_reducible repeat' first
    | assumption | apply State.emit_keeps | apply State.freeBuf_keeps | apply State.modBuf_keeps
    | apply State.modBay_keeps | refine Keeps.ite ?_ ?_ | split

/-! ### Bays -/

theorem holdBay_keeps {s t : State} (h : Keeps s t) (a0) : Keeps s (holdBay a0 t) := by
  unfold holdBay
  try dsimp only
  with_reducible repeat' first | assumption | apply State.modBay_keeps

theorem baylnkRetrain_keeps {s t : State} (h : Keeps s t) (a0) : Keeps s (baylnkRetrain a0 t) := by
  unfold baylnkRetrain
  try dsimp only
  with_reducible repeat' first
    | assumption | apply departBay_keeps | apply State.modBay_keeps | refine Keeps.ite ?_ ?_

theorem setHold_keeps {s t : State} (h : Keeps s t) (a0 a1) : Keeps s (setHold a0 a1 t) := by
  unfold setHold
  try dsimp only
  with_reducible repeat' first
    | assumption | apply State.modBay_keeps | apply departBay_keeps | refine Keeps.ite ?_ ?_

theorem baylnkHold_keeps {s t : State} (h : Keeps s t) (a0 a1) : Keeps s (baylnkHold a0 a1 t) := by
  unfold baylnkHold
  try dsimp only
  with_reducible repeat' first | assumption | apply setHold_keeps | refine Keeps.ite ?_ ?_

theorem bayPerstRelease_keeps {s t : State} (h : Keeps s t) (a0) : Keeps s (bayPerstRelease a0 t) := by
  unfold bayPerstRelease
  try dsimp only
  with_reducible repeat' first | assumption | apply State.modBay_keeps | refine Keeps.ite ?_ ?_

theorem bayLinkTrainTimeout_keeps {s t : State} (h : Keeps s t) (a0) : Keeps s (bayLinkTrainTimeout a0 t) := by
  unfold bayLinkTrainTimeout
  try dsimp only
  with_reducible repeat' first
    | assumption | apply raise_keeps | apply holdBay_keeps | apply State.modBay_keeps | refine Keeps.ite ?_ ?_

theorem enablePort_keeps {s t : State} (h : Keeps s t) (a0) : Keeps s (enablePort a0 t) := by
  unfold enablePort
  try dsimp only
  with_reducible repeat' first | assumption | apply State.emit_keeps

theorem configureBay_keeps {s t : State} (h : Keeps s t) (a0) : Keeps s (configureBay a0 t) := by
  unfold configureBay
  try dsimp only
  with_reducible repeat' first | assumption | apply State.emit_keeps

theorem bayEnumerate_keeps {s t : State} (h : Keeps s t) (a0 a1 a2) : Keeps s (bayEnumerate a0 a1 a2 t) := by
  unfold bayEnumerate
  try dsimp only
  with_reducible repeat' first
    | assumption | apply enablePort_keeps | apply State.modBay_keeps | apply configureBay_keeps
    | apply holdBay_keeps | apply raise_keeps | refine Keeps.ite ?_ ?_

theorem bayPortReady_keeps {s t : State} (h : Keeps s t) (a0 a1) : Keeps s (bayPortReady a0 a1 t) := by
  unfold bayPortReady
  try dsimp only
  with_reducible repeat' first
    | assumption | apply raise_keeps | apply holdBay_keeps | apply State.modBay_keeps | apply setEpoch_keeps
    | apply askDies_keeps | apply assignModule_keeps | refine Keeps.ite ?_ ?_ | split

theorem bayLinkTrained_keeps {s t : State} (h : Keeps s t) (a0 a1 a2) : Keeps s (bayLinkTrained a0 a1 a2 t) := by
  unfold bayLinkTrained
  try dsimp only
  with_reducible repeat' first
    | assumption | apply raise_keeps | apply State.modBay_keeps | apply holdBay_keeps | refine Keeps.ite ?_ ?_

/-! ### Collect -/

theorem wearCheck_keeps {s t : State} (h : Keeps s t) (a0) : Keeps s (wearCheck a0 t) := by
  unfold wearCheck
  try dsimp only
  with_reducible repeat' first | assumption | apply raise_keeps | apply State.modGroup_keeps | refine Keeps.ite ?_ ?_

theorem deltaLogAppend_keeps {s t : State} (h : Keeps s t) (a0) : Keeps s (deltaLogAppend a0 t) := by
  unfold deltaLogAppend
  try dsimp only
  with_reducible repeat' first | assumption | apply wearCheck_keeps | apply appendLog_keeps | refine Keeps.ite ?_ ?_

theorem checkpointTimer_keeps {s t : State} (h : Keeps s t) (a0) : Keeps s (checkpointTimer a0 t) := by
  unfold checkpointTimer
  try dsimp only
  with_reducible repeat' first | assumption | apply startCheckpoint_keeps | refine Keeps.ite ?_ ?_

theorem spareBandForm_keeps {s t : State} (h : Keeps s t) (a0) : Keeps s (spareBandForm a0 t) := by
  unfold spareBandForm
  try dsimp only
  with_reducible repeat' first
    | assumption | apply State.modGroup_keeps | apply eraseBand_keeps | apply substitute_keeps
    | refine Keeps.ite ?_ ?_ | (refine Keeps.foldl (fun u x hu => ?_) ?_) | split

theorem nextBatch_keeps {s t : State} (h : Keeps s t) (a0 a1) : Keeps s (nextBatch a0 a1 t) := by
  unfold nextBatch
  try dsimp only
  with_reducible repeat' first
    | assumption | apply journal_keeps | apply State.modGroup_keeps | apply startBatch_keeps
    | refine Keeps.ite ?_ ?_ | split

theorem startVictim_keeps {s t : State} (h : Keeps s t) (a0 a1) : Keeps s (startVictim a0 a1 t) := by
  unfold startVictim
  try dsimp only
  with_reducible repeat' first
    | assumption | apply nextBatch_keeps | apply leaveRebuild_keeps | apply State.modGroup_keeps

theorem gcVictimSelect_keeps {s t : State} (h : Keeps s t) (a0) : Keeps s (gcVictimSelect a0 t) := by
  unfold gcVictimSelect
  try dsimp only
  with_reducible repeat' first
    | assumption | apply spaceCheck_keeps | apply startVictim_keeps | apply State.modGroup_keeps
    | refine Keeps.ite ?_ ?_ | split

theorem commitCopy_keeps {s t : State} (h : Keeps s t) (a0 a1) : Keeps s (commitCopy a0 a1 t).2 := by
  unfold commitCopy
  try dsimp only
  with_reducible repeat' first
    | assumption | apply State.modGroup_keeps | apply State.modNs_keeps | apply addValid_keeps
    | refine Keeps.ite ?_ ?_ | refine Keeps.ite2 ?_ ?_ | split

theorem journalRun_keeps {s t : State} (h : Keeps s t) (a0 a2) : Keeps s (journalRun a0 t a2) := by
  unfold journalRun
  try dsimp only
  with_reducible repeat' first | assumption | apply journal_keeps

theorem gcBatchVerified_keeps {s t : State} (h : Keeps s t) (a0 a1) : Keeps s (gcBatchVerified a0 a1 t) := by
  unfold gcBatchVerified
  try dsimp only
  with_reducible repeat' first
    | assumption | apply State.modGroup_keeps | apply nextBatch_keeps | apply refreshHealth_keeps
    | apply nextTodo_keeps | apply commitCopy_keeps | apply poolCheck_keeps | apply journalRun_keeps
    | refine Keeps.ite ?_ ?_ | (refine Keeps.foldl (fun u x hu => ?_) ?_)
    | (refine Keeps.foldlPair (fun u x hu => ?_) ?_) | split

theorem gcVictimDurable_keeps {s t : State} (h : Keeps s t) (a0 a1) : Keeps s (gcVictimDurable a0 a1 t) := by
  unfold gcVictimDurable
  try dsimp only
  with_reducible repeat' first | assumption | apply State.modGroup_keeps | refine Keeps.ite ?_ ?_ | split

theorem gcReadersDrained_keeps {s t : State} (h : Keeps s t) (a0 a1) : Keeps s (gcReadersDrained a0 a1 t) := by
  unfold gcReadersDrained
  try dsimp only
  with_reducible repeat' first | assumption | apply eraseBand_keeps | refine Keeps.ite ?_ ?_

theorem zoneCompact_keeps {s t : State} (h : Keeps s t) (a0 a1) : Keeps s (zoneCompact a0 a1 t) := by
  unfold zoneCompact
  try dsimp only
  with_reducible repeat' first | assumption | apply relocate_keeps | refine Keeps.ite ?_ ?_ | split

theorem wearLevelStart_keeps {s t : State} (h : Keeps s t) (a0) : Keeps s (wearLevelStart a0 t) := by
  unfold wearLevelStart
  try dsimp only
  with_reducible repeat' first | assumption | apply startVictim_keeps | refine Keeps.ite ?_ ?_ | split

/-! ### Flush -/

theorem suspendForFlush_keeps {s t : State} (h : Keeps s t) (a0) : Keeps s (suspendForFlush a0 t) := by
  unfold suspendForFlush
  try dsimp only
  with_reducible repeat' first
    | assumption | apply suspendDie_keeps | (refine Keeps.foldl (fun u x hu => ?_) ?_) | split

theorem flushDispatch_keeps {s t : State} (h : Keeps s t) (a0 a1) : Keeps s (flushDispatch a0 a1 t) := by
  unfold flushDispatch
  try dsimp only
  with_reducible repeat' first
    | assumption | apply State.modDie_keeps | apply submit_keeps | apply resumeDie_keeps | refine Keeps.ite ?_ ?_
    | split

theorem closeOpen_keeps {s t : State} (h : Keeps s t) (a0) : Keeps s (closeOpen a0 t) := by
  unfold closeOpen
  try dsimp only
  with_reducible repeat' first
    | assumption | apply closeStripe_keeps | apply State.modGroup_keeps | (refine Keeps.foldl (fun u x hu => ?_) ?_)

theorem imageChunk_keeps {s t : State} (h : Keeps s t) (a0 a1 a2 a3 a4 a5 a6) : Keeps s (imageChunk a0 a1 a2 a3 a4 a5 a6 t) := by
  unfold imageChunk
  try dsimp only
  with_reducible repeat' first
    | assumption | apply putSlot_keeps | apply enqueue_keeps | (refine Keeps.foldlPair (fun u x hu => ?_) ?_)

theorem readySpare_keeps {s t : State} (h : Keeps s t) (a0 a1) : Keeps s (readySpare a0 a1 t) := by
  unfold readySpare
  try dsimp only
  with_reducible repeat' first
    | assumption | apply submitNow_keeps | apply enqueue_keeps | (refine Keeps.foldl (fun u x hu => ?_) ?_) | split

theorem writeImage_keeps {s t : State} (h : Keeps s t) (a0) : Keeps s (writeImage a0 t) := by
  unfold writeImage
  try dsimp only
  with_reducible repeat' first
    | assumption | apply imageChunk_keeps | apply readySpare_keeps | apply State.modGroup_keeps
    | (refine Keeps.foldl (fun u x hu => ?_) ?_) | split

theorem pfWarn_keeps {s t : State} (h : Keeps s t) : Keeps s (pfWarn t) := by
  unfold pfWarn
  try dsimp only
  repeat' first
    | with_reducible assumption | with_reducible apply suspendForFlush_keeps | with_reducible apply closeOpen_keeps
    | with_reducible apply writeImage_keeps | exact id | exact FuseLe.refl _ | with_reducible refine Keeps.ite ?_ ?_
    | (with_reducible refine Keeps.foldl (fun u x hu => ?_) ?_)
    | with_reducible refine Keeps.upd ?_ ?_ ?_ ?_ ?_ ?_ ?_ ?_ ?_

theorem flushProgressTick_keeps {s t : State} (h : Keeps s t) : Keeps s (flushProgressTick t) := by
  unfold flushProgressTick
  try dsimp only
  repeat' first
    | with_reducible assumption | exact id | exact FuseLe.refl _ | with_reducible refine Keeps.ite ?_ ?_
    | with_reducible refine Keeps.upd ?_ ?_ ?_ ?_ ?_ ?_ ?_ ?_ ?_

theorem pfailFlushDone_keeps {s t : State} (h : Keeps s t) : Keeps s (pfailFlushDone t) := by
  unfold pfailFlushDone
  try dsimp only
  repeat' first
    | with_reducible assumption | with_reducible apply flushProgressTick_keeps | with_reducible apply bbx_keeps
    | exact id | exact FuseLe.refl _ | with_reducible refine Keeps.ite ?_ ?_
    | with_reducible refine Keeps.upd ?_ ?_ ?_ ?_ ?_ ?_ ?_ ?_ ?_

/-! ### BayPower -/

theorem State.sawBus_keeps {s t : State} (h : Keeps s t) (a1) : Keeps s (State.sawBus t a1) := by
  unfold State.sawBus
  try dsimp only
  repeat' first
    | with_reducible assumption | exact id | exact FuseLe.refl _
    | with_reducible refine Keeps.upd ?_ ?_ ?_ ?_ ?_ ?_ ?_ ?_ ?_

theorem State.modPchan_keeps {s t : State} (h : Keeps s t) (b f) : Keeps s (t.modPchan b f) := h.upd id id (FuseLe.refl _) id (fun e => by simpa using e) id id id

theorem prslChange_keeps {s t : State} (h : Keeps s t) (a0 a1) : Keeps s (prslChange a0 a1 t) := by
  unfold prslChange
  try dsimp only
  with_reducible repeat' first | assumption | apply State.modPchan_keeps

theorem autostartAll_keeps {s t : State} (h : Keeps s t) : Keeps s (autostartAll t) := by
  unfold autostartAll
  try dsimp only
  repeat' first
    | with_reducible assumption | exact id | exact FuseLe.refl _ | with_reducible refine Keeps.ite ?_ ?_
    | with_reducible refine Keeps.upd ?_ ?_ ?_ ?_ ?_ ?_ ?_ ?_ ?_ | exact fun e => by simpa using e

theorem tellFault_keeps {s t : State} (h : Keeps s t) (a0 a1) : Keeps s (tellFault a0 a1 t) := by
  unfold tellFault
  try dsimp only
  with_reducible repeat' first | assumption | apply raise_keeps | apply State.modPchan_keeps | refine Keeps.ite ?_ ?_

theorem trip_keeps {s t : State} (h : Keeps s t) (a0 a1 a2) : Keeps s (trip a0 a1 a2 t) := by
  unfold trip
  try dsimp only
  with_reducible repeat' first
    | assumption | apply State.modPchan_keeps | apply tellFault_keeps | apply bbx_keeps | apply raise_keeps
    | refine Keeps.ite ?_ ?_

theorem fastTrip_keeps {s t : State} (h : Keeps s t) (a0) : Keeps s (fastTrip a0 t) := by
  unfold fastTrip
  try dsimp only
  with_reducible repeat' first | assumption | apply trip_keeps | refine Keeps.ite ?_ ?_

theorem breakerCrossing_keeps {s t : State} (h : Keeps s t) (a0 a1 a2) : Keeps s (breakerCrossing a0 a1 a2 t) := by
  unfold breakerCrossing
  try dsimp only
  with_reducible repeat' first | assumption | apply State.modPchan_keeps

theorem baypwrOff_keeps {s t : State} (h : Keeps s t) (a0) : Keeps s (baypwrOff a0 t) := by
  unfold baypwrOff
  try dsimp only
  with_reducible repeat' first | assumption | apply State.modPchan_keeps

theorem baypwrCycle_keeps {s t : State} (h : Keeps s t) (a0) : Keeps s (baypwrCycle a0 t) := by
  unfold baypwrCycle
  try dsimp only
  with_reducible repeat' first | assumption | apply State.modPchan_keeps

theorem baypwrClear_keeps {s t : State} (h : Keeps s t) (a0) : Keeps s (baypwrClear a0 t) := by
  unfold baypwrClear
  try dsimp only
  with_reducible repeat' first | assumption | apply State.modPchan_keeps

theorem baypwrOn_keeps {s t : State} (h : Keeps s t) (a0) : Keeps s (baypwrOn a0 t) := by
  unfold baypwrOn
  try dsimp only
  with_reducible repeat' first | assumption | apply State.modPchan_keeps

theorem baypwrCtrl_keeps {s t : State} (h : Keeps s t) (a0 a1) : Keeps s (baypwrCtrl a0 a1 t) := by
  unfold baypwrCtrl
  try dsimp only
  with_reducible repeat' first
    | assumption | apply baypwrOff_keeps | apply baypwrCycle_keeps | apply baypwrClear_keeps | apply baypwrOn_keeps
    | refine Keeps.ite ?_ ?_

theorem prssChange_keeps {s t : State} (h : Keeps s t) (a0 a1) : Keeps s (prssChange a0 a1 t) := by
  unfold prssChange
  try dsimp only
  with_reducible repeat' first
    | assumption | apply State.modPchan_keeps | apply State.modBay_keeps | apply departBay_keeps
    | refine Keeps.ite ?_ ?_

theorem seatTimer_keeps {s t : State} (h : Keeps s t) (a0) : Keeps s (seatTimer a0 t) := by
  unfold seatTimer
  try dsimp only
  with_reducible repeat' first | assumption | apply State.modPchan_keeps

theorem unseatTimer_keeps {s t : State} (h : Keeps s t) (a0) : Keeps s (unseatTimer a0 t) := by
  unfold unseatTimer
  try dsimp only
  with_reducible repeat' first | assumption | apply State.modPchan_keeps

theorem rampComplete_keeps {s t : State} (h : Keeps s t) (a0 a1) : Keeps s (rampComplete a0 a1 t) := by
  unfold rampComplete
  try dsimp only
  with_reducible repeat' first | assumption | apply State.modPchan_keeps

theorem gateEnhanced_keeps {s t : State} (h : Keeps s t) (a0) : Keeps s (gateEnhanced a0 t) := by
  unfold gateEnhanced
  try dsimp only
  with_reducible repeat' first | assumption | apply State.modPchan_keeps

theorem rampTimeout_keeps {s t : State} (h : Keeps s t) (a0) : Keeps s (rampTimeout a0 t) := by
  unfold rampTimeout
  try dsimp only
  with_reducible repeat' first | assumption | apply trip_keeps | refine Keeps.ite ?_ ?_

theorem faultTimerExpiry_keeps {s t : State} (h : Keeps s t) (a0 a1) : Keeps s (faultTimerExpiry a0 a1 t) := by
  unfold faultTimerExpiry
  try dsimp only
  with_reducible repeat' first | assumption | apply State.modPchan_keeps | apply trip_keeps | refine Keeps.ite ?_ ?_

theorem powerGoodAssert_keeps {s t : State} (h : Keeps s t) (a0 a1) : Keeps s (powerGoodAssert a0 a1 t) := by
  unfold powerGoodAssert
  try dsimp only
  with_reducible repeat' first | assumption | apply State.modPchan_keeps

theorem pgUndervolt_keeps {s t : State} (h : Keeps s t) (a0) : Keeps s (pgUndervolt a0 t) := by
  unfold pgUndervolt
  try dsimp only
  with_reducible repeat' first | assumption | apply State.modPchan_keeps

theorem feedSample_keeps {s t : State} (h : Keeps s t) (a0) : Keeps s (feedSample a0 t) := by
  unfold feedSample
  try dsimp only
  repeat' first
    | with_reducible assumption | with_reducible apply State.sawBus_keeps | exact id | exact FuseLe.refl _ | split
    | with_reducible refine Keeps.upd ?_ ?_ ?_ ?_ ?_ ?_ ?_ ?_ ?_

theorem thermalSample_keeps {s t : State} (h : Keeps s t) (a0 a1) : Keeps s (thermalSample a0 a1 t) := by
  unfold thermalSample
  try dsimp only
  with_reducible repeat' first
    | assumption | apply feedSample_keeps | apply State.modPchan_keeps | apply bbx_keeps | apply trip_keeps
    | refine Keeps.ite ?_ ?_

theorem fetDamageDetect_keeps {s t : State} (h : Keeps s t) (a0 a1) : Keeps s (fetDamageDetect a0 a1 t) := by
  unfold fetDamageDetect
  try dsimp only
  with_reducible repeat' first
    | assumption | apply raise_keeps | apply bbx_keeps | apply State.modPchan_keeps | refine Keeps.ite ?_ ?_

theorem retryOfftimeExpiry_keeps {s t : State} (h : Keeps s t) (a0) : Keeps s (retryOfftimeExpiry a0 t) := by
  unfold retryOfftimeExpiry
  try dsimp only
  with_reducible repeat' first | assumption | apply State.modPchan_keeps

theorem retryCountReset_keeps {s t : State} (h : Keeps s t) (a0) : Keeps s (retryCountReset a0 t) := by
  unfold retryCountReset
  try dsimp only
  with_reducible repeat' first | assumption | apply State.modPchan_keeps

theorem cycleReturn_keeps {s t : State} (h : Keeps s t) (a0) : Keeps s (cycleReturn a0 t) := by
  unfold cycleReturn
  try dsimp only
  with_reducible repeat' first | assumption | apply State.modPchan_keeps

theorem bayOrReverse_keeps {s t : State} (h : Keeps s t) (a0) : Keeps s (bayOrReverse a0 t) := by
  unfold bayOrReverse
  try dsimp only
  with_reducible repeat' first | assumption | apply State.modPchan_keeps

theorem disableAllBays_keeps {s t : State} (h : Keeps s t) : Keeps s (disableAllBays t) := by
  unfold disableAllBays
  try dsimp only
  repeat' first
    | with_reducible assumption | exact id | exact FuseLe.refl _
    | with_reducible refine Keeps.upd ?_ ?_ ?_ ?_ ?_ ?_ ?_ ?_ ?_ | exact fun e => by simpa using e

theorem releaseAllBays_keeps {s t : State} (h : Keeps s t) : Keeps s (releaseAllBays t) := by
  unfold releaseAllBays
  try dsimp only
  repeat' first
    | with_reducible assumption | exact id | exact FuseLe.refl _
    | with_reducible refine Keeps.upd ?_ ?_ ?_ ?_ ?_ ?_ ?_ ?_ ?_ | exact fun e => by simpa using e

end Sys2Proof.Machine
end

