-- ==== Sys2Proof/Laws/Keeps5.lean ====
section
/-! SUPPORT. What the operations of MbxOps, BlackBox, NetOps, Resets, ModeOps, Fuses, Endpoint, Time keep
(Laws/Keeps.lean): one lemma for each. -/

set_option linter.unusedVariables false

namespace Sys2Proof.Machine

/-! ### MbxOps -/

theorem enqueueReq_keeps {s t : State} (h : Keeps s t) (a0) : Keeps s (enqueueReq a0 t) := by
  unfold enqueueReq
  try dsimp only
  repeat' first
    | with_reducible assumption | exact id | exact FuseLe.refl _
    | with_reducible refine Keeps.upd ?_ ?_ ?_ ?_ ?_ ?_ ?_ ?_ ?_

theorem takeRequest_keeps {s t : State} (h : Keeps s t) (a0 a1) : Keeps s (takeRequest a0 a1 t) := by
  unfold takeRequest
  try dsimp only
  repeat' first
    | with_reducible assumption | with_reducible apply State.modChan_keeps | with_reducible apply enqueueReq_keeps
    | exact id | exact FuseLe.refl _ | with_reducible refine Keeps.upd ?_ ?_ ?_ ?_ ?_ ?_ ?_ ?_ ?_

theorem rejectBad_keeps {s t : State} (h : Keeps s t) (a0) : Keeps s (rejectBad a0 t) := by
  unfold rejectBad
  try dsimp only
  with_reducible repeat' first | assumption | apply answer_keeps | split

theorem authFailed_keeps {s t : State} (h : Keeps s t) (a0) : Keeps s (authFailed a0 t) := by
  unfold authFailed
  try dsimp only
  repeat' first
    | with_reducible assumption | with_reducible apply raise_keeps | with_reducible apply State.modChan_keeps
    | exact id | exact FuseLe.refl _ | with_reducible refine Keeps.ite ?_ ?_
    | with_reducible refine Keeps.upd ?_ ?_ ?_ ?_ ?_ ?_ ?_ ?_ ?_

theorem acceptSeq_keeps {s t : State} (h : Keeps s t) (a0 a1 a2 a3 a4) : Keeps s (acceptSeq a0 a1 a2 a3 a4 t) := by
  unfold acceptSeq
  try dsimp only
  with_reducible repeat' first
    | assumption | apply State.modChan_keeps | apply takeRequest_keeps | apply State.unqueue_keeps
    | apply rejectBad_keeps | apply deliver_keeps | apply authFailed_keeps | refine Keeps.ite ?_ ?_

theorem mbxScrimRequest_keeps {s t : State} (h : Keeps s t) (a0 a1 a2) : Keeps s (mbxScrimRequest a0 a1 a2 t) := by
  unfold mbxScrimRequest
  try dsimp only
  with_reducible repeat' first | assumption | apply acceptSeq_keeps | refine Keeps.ite ?_ ?_

theorem serveThen_keeps {s t : State} (h : Keeps s t) (c op run after)
    (hr : ∀ b u, Keeps s u → Keeps s (run b u).2) (ha : ∀ u, Keeps s u → Keeps s (after u)) :
    Keeps s (serveThen c op run after t) := by
  unfold serveThen
  split
  · split
    · exact answer_keeps h _ _ _ _
    · have hk := hr (reqBody (t.chan c).req) t h
      split
      · rename_i e; rw [e] at hk; exact ha _ (answer_keeps hk _ _ _ _)
      · rename_i e; rw [e] at hk; exact hk
  · exact h

theorem serve_keeps {s t : State} (h : Keeps s t) (c op run) (hr : ∀ b u, Keeps s u → Keeps s (run b u).2) :
    Keeps s (serve c op run t) :=
  serveThen_keeps h _ _ _ _ (fun b u hu => hr b u hu) (fun _ hu => hu)

theorem serveRead_keeps {s t : State} (h : Keeps s t) (c op f) : Keeps s (serveRead c op f t) :=
  serve_keeps h _ _ _ fun _ _ hu => hu

theorem bar2AreaWrite_keeps {s t : State} (h : Keeps s t) (a0 a1) : Keeps s (bar2AreaWrite a0 a1 t) := by
  unfold bar2AreaWrite
  try dsimp only
  repeat' first
    | with_reducible assumption | exact fun e => ⟨Memory.wf_writeN _ _ _ e.1, e.2⟩ | exact id | exact FuseLe.refl _
    | with_reducible refine Keeps.ite ?_ ?_ | with_reducible refine Keeps.upd ?_ ?_ ?_ ?_ ?_ ?_ ?_ ?_ ?_

theorem mbxDoorbell_keeps {s t : State} (h : Keeps s t) (a0) : Keeps s (mbxDoorbell a0 t) := by
  unfold mbxDoorbell
  try dsimp only
  with_reducible repeat' first
    | assumption | apply rejectBad_keeps | apply takeRequest_keeps | apply State.modChan_keeps
    | refine Keeps.ite ?_ ?_

theorem mbxAck_keeps {s t : State} (h : Keeps s t) (a0) : Keeps s (mbxAck a0 t) := by
  unfold mbxAck
  try dsimp only
  with_reducible repeat' first | assumption | apply State.modChan_keeps | refine Keeps.ite ?_ ?_

theorem mbxMpRequest_keeps {s t : State} (h : Keeps s t) (a0 a1 a2) : Keeps s (mbxMpRequest a0 a1 a2 t) := by
  unfold mbxMpRequest
  try dsimp only
  with_reducible repeat' first | assumption | apply authFailed_keeps | apply acceptSeq_keeps | refine Keeps.ite ?_ ?_

theorem mbxSmbusRequest_keeps {s t : State} (h : Keeps s t) (a0 a1 a2) : Keeps s (mbxSmbusRequest a0 a1 a2 t) := by
  unfold mbxSmbusRequest
  try dsimp only
  with_reducible repeat' first | assumption | apply acceptSeq_keeps | refine Keeps.ite ?_ ?_

theorem mbxDataDieTake_keeps {s t : State} (h : Keeps s t) (a0) : Keeps s (mbxDataDieTake a0 t) := by
  unfold mbxDataDieTake
  try dsimp only
  with_reducible repeat' first
    | assumption | apply rejectBad_keeps | apply enqueueReq_keeps | apply State.modChan_keeps
    | refine Keeps.ite ?_ ?_

theorem jobFinish_keeps {s t : State} (h : Keeps s t) (a0) : Keeps s (jobFinish a0 t) := by
  unfold jobFinish
  try dsimp only
  repeat' first
    | with_reducible assumption | with_reducible apply raise_keeps | exact id | exact FuseLe.refl _ | split
    | with_reducible refine Keeps.upd ?_ ?_ ?_ ?_ ?_ ?_ ?_ ?_ ?_

theorem startJob_keeps {s t : State} (h : Keeps s t) (a0 a1 a2 a3 start a5) (hs : ∀ n u, Keeps s u → Keeps s (start n u)) :
    Keeps s (startJob a0 a1 a2 a3 start a5 t).2 := by
  unfold startJob
  split
  · exact h
  · exact hs _ _ (h.upd (MbxOk.same rfl rfl rfl rfl) id (FuseLe.refl _) id id id id id)

/-! ### BlackBox -/

theorem bbxEraseDone_keeps {s t : State} (h : Keeps s t) : Keeps s (bbxEraseDone t) := by
  unfold bbxEraseDone
  try dsimp only
  repeat' first
    | with_reducible assumption | exact id | exact FuseLe.refl _
    | with_reducible refine Keeps.upd ?_ ?_ ?_ ?_ ?_ ?_ ?_ ?_ ?_

theorem bbxClear_keeps {s t : State} (h : Keeps s t) (a0) : Keeps s (bbxClear a0 t) := by
  unfold bbxClear
  try dsimp only
  repeat' first
    | with_reducible assumption | with_reducible apply bbx_keeps | exact id | exact FuseLe.refl _
    | with_reducible refine Keeps.upd ?_ ?_ ?_ ?_ ?_ ?_ ?_ ?_ ?_

theorem lastGasp_keeps {s t : State} (h : Keeps s t) : Keeps s (lastGasp t) := by
  unfold lastGasp
  try dsimp only
  repeat' first
    | with_reducible assumption | exact id | exact FuseLe.refl _ | with_reducible refine Keeps.ite ?_ ?_
    | with_reducible refine Keeps.upd ?_ ?_ ?_ ?_ ?_ ?_ ?_ ?_ ?_

theorem bbxCommit_keeps {s t : State} (h : Keeps s t) (a0) : Keeps s (bbxCommit a0 t) := by
  unfold bbxCommit
  try dsimp only
  repeat' first
    | with_reducible assumption | exact id | exact FuseLe.refl _ | with_reducible refine Keeps.ite ?_ ?_ | split
    | with_reducible refine Keeps.upd ?_ ?_ ?_ ?_ ?_ ?_ ?_ ?_ ?_

/-! ### NetOps -/

theorem State.modNet_keeps {s t : State} (h : Keeps s t) (f) (hf : t.net.ports.length = 12 → (f t.net).ports.length = 12) : Keeps s (t.modNet f) := h.upd id id (FuseLe.refl _) id id id hf id

theorem State.modPort_keeps {s t : State} (h : Keeps s t) (p f) : Keeps s (t.modPort p f) := State.modNet_keeps h _ fun e => by simpa using e

theorem netCount_keeps {s t : State} (h : Keeps s t) (a0 a1 a2) : Keeps s (netCount a0 a1 a2 t) := by
  unfold netCount
  try dsimp only
  with_reducible repeat' first | assumption | apply State.modPort_keeps

theorem putMirror_keeps {s t : State} (h : Keeps s t) (a0 a1 a2) : Keeps s (putMirror a0 a1 a2 t) := by
  unfold putMirror
  try dsimp only
  repeat' first
    | with_reducible assumption | with_reducible apply netCount_keeps | with_reducible apply raise_keeps
    | with_reducible apply State.modNet_keeps | exact id | with_reducible refine Keeps.ite ?_ ?_

theorem mirrorFrame_keeps {s t : State} (h : Keeps s t) (a0 a1 a2 a3 a4 a5 a6 a7 a8 a9) : Keeps s (mirrorFrame a0 a1 a2 a3 a4 a5 a6 a7 a8 a9 t) := by
  unfold mirrorFrame
  try dsimp only
  with_reducible repeat' first | assumption | apply putMirror_keeps | apply State.drew_keeps | refine Keeps.ite ?_ ?_

theorem netEvt_keeps {s t : State} (h : Keeps s t) (a0 a1) : Keeps s (netEvt a0 a1 t) := by
  unfold netEvt
  try dsimp only
  with_reducible repeat' first | assumption | apply State.modPort_keeps

theorem State.modSub_keeps {s t : State} (h : Keeps s t) (p i f) : Keeps s (t.modSub p i f) := State.modPort_keeps h _ _

theorem pfcState_keeps {s t : State} (h : Keeps s t) (a0) : Keeps s (pfcState a0 t) := by
  unfold pfcState
  try dsimp only
  with_reducible repeat' first
    | assumption | apply State.emit_keeps | apply State.modSub_keeps | refine Keeps.ite ?_ ?_

theorem pfcStates_keeps {s t : State} (h : Keeps s t) : Keeps s (pfcStates t) := by
  unfold pfcStates
  try dsimp only
  with_reducible repeat' first | assumption | apply pfcState_keeps | (refine Keeps.foldl (fun u x hu => ?_) ?_)

theorem refreshSched_keeps {s t : State} (h : Keeps s t) (a0 a1) : Keeps s (refreshSched a0 a1 t) := by
  unfold refreshSched
  try dsimp only
  repeat' first | with_reducible assumption | with_reducible apply State.modNet_keeps | exact id

theorem refreshAll_keeps {s t : State} (h : Keeps s t) : Keeps s (refreshAll t) := by
  unfold refreshAll
  try dsimp only
  with_reducible repeat' first | assumption | apply refreshSched_keeps | (refine Keeps.foldl (fun u x hu => ?_) ?_)

theorem joinQueue_keeps {s t : State} (h : Keeps s t) (a0) : Keeps s (joinQueue a0 t) := by
  unfold joinQueue
  try dsimp only
  repeat' first
    | with_reducible assumption | with_reducible apply refreshSched_keeps | with_reducible apply State.modNet_keeps
    | exact id | with_reducible refine Keeps.ite ?_ ?_

theorem tellBufDrop_keeps {s t : State} (h : Keeps s t) (a0) : Keeps s (tellBufDrop a0 t) := by
  unfold tellBufDrop
  try dsimp only
  with_reducible repeat' first | assumption | apply raise_keeps | apply State.modPort_keeps | refine Keeps.ite ?_ ?_

/-! ### Resets -/

theorem clearDataDie_keeps {s t : State} (h : Keeps s t) : Keeps s (clearDataDie t) :=
  Keeps.upd h (fun e => ⟨rfl, by simpa using e.2.1, by simp [RingOk]⟩) (fun _ => ⟨rfl, rfl, rfl, rfl⟩) (FuseLe.refl _)
    (fun _ => rfl) id (fun _ => rfl) (fun _ => rfl) (fun _ => rfl)

theorem dataDieReset_keeps {s t : State} (h : Keeps s t) (a0) : Keeps s (dataDieReset a0 t) := by
  unfold dataDieReset
  try dsimp only
  repeat' first
    | with_reducible assumption | with_reducible apply clearDataDie_keeps | exact id | exact FuseLe.refl _ | split
    | with_reducible refine Keeps.upd ?_ ?_ ?_ ?_ ?_ ?_ ?_ ?_ ?_

/-! ### ModeOps -/

theorem State.modMode_keeps {s t : State} (h : Keeps s t) (f) : Keeps s (t.modMode f) := h.upd id id (FuseLe.refl _) id id id id id

theorem latchWakes_keeps {s t : State} (h : Keeps s t) (a0) : Keeps s (latchWakes a0 t) := by
  unfold latchWakes
  try dsimp only
  with_reducible repeat' first
    | assumption | apply State.modMode_keeps | apply actOnWake_keeps | refine Keeps.ite ?_ ?_

theorem latchWake_keeps {s t : State} (h : Keeps s t) (a0) : Keeps s (latchWake a0 t) := by
  unfold latchWake
  try dsimp only
  with_reducible repeat' first | assumption | apply latchWakes_keeps

theorem islandTail_keeps {s t : State} (h : Keeps s t) : Keeps s (islandTail t) := by
  unfold islandTail
  try dsimp only
  repeat' first
    | with_reducible assumption | with_reducible apply State.modMode_keeps | with_reducible apply bbx_keeps
    | with_reducible apply dataDieReset_keeps | exact id | exact FuseLe.refl _
    | with_reducible refine Keeps.upd ?_ ?_ ?_ ?_ ?_ ?_ ?_ ?_ ?_

theorem islandSteps_keeps {s t : State} (h : Keeps s t) : Keeps s (islandSteps t) := by
  unfold islandSteps
  try dsimp only
  with_reducible repeat' first | assumption | apply islandTail_keeps | apply disableAllBays_keeps

theorem feedsLost_keeps {s t : State} (h : Keeps s t) : Keeps s (feedsLost t) := by
  unfold feedsLost
  try dsimp only
  with_reducible repeat' first
    | assumption | apply State.modMode_keeps | apply pfWarn_keeps | apply islandSteps_keeps | refine Keeps.ite ?_ ?_

/-! ### Fuses -/

theorem loadOtp_keeps {s t : State} (h : Keeps s t) : Keeps s (loadOtp t) := by
  unfold loadOtp
  try dsimp only
  repeat' first
    | with_reducible assumption | with_reducible apply State.putParam_keeps | exact id | exact FuseLe.refl _
    | (with_reducible refine Keeps.foldl (fun u x hu => ?_) ?_) | split
    | with_reducible refine Keeps.upd ?_ ?_ ?_ ?_ ?_ ?_ ?_ ?_ ?_

theorem State.modFuse_keeps {s t : State} (h : Keeps s t) (f) (hf : FuseLe t.fuse (f t.fuse)) : Keeps s (t.modFuse f) := h.upd id id hf id id id id id

theorem otpVoid_keeps {s t : State} (h : Keeps s t) (a0 a1 a2) : Keeps s (otpVoid a0 a1 a2 t).2 := by
  unfold otpVoid
  try dsimp only
  repeat' first
    | with_reducible assumption | with_reducible apply State.modFuse_keeps | with_reducible apply bbx_keeps
    | with_reducible apply State.drew_keeps | exact FuseLe.refl _ | with_reducible refine Keeps.ite2 ?_ ?_

theorem fuseDone_keeps {s t : State} (h : Keeps s t) (a0 a1 a2) : Keeps s (fuseDone a0 a1 a2 t).2 := by
  unfold fuseDone
  try dsimp only
  with_reducible repeat' first | assumption | apply bbx_keeps

theorem fuseRootKey_keeps {s t : State} (h : Keeps s t) (a0 a1 a2) : Keeps s (fuseRootKey a0 a1 a2 t).2 := by
  unfold fuseRootKey
  try dsimp only
  repeat' first
    | with_reducible assumption | with_reducible apply fuseDone_keeps | with_reducible apply State.drew_keeps
    | with_reducible apply State.modFuse_keeps | exact FuseLe.refl _ | with_reducible refine Keeps.ite2 ?_ ?_

theorem fuseKeyHash_keeps {s t : State} (h : Keeps s t) (a0 a1 a2) : Keeps s (fuseKeyHash a0 a1 a2 t).2 := by
  unfold fuseKeyHash
  try dsimp only
  repeat' first
    | with_reducible assumption | with_reducible apply fuseDone_keeps | with_reducible apply State.drew_keeps
    | with_reducible apply State.modFuse_keeps | exact FuseLe.refl _ | with_reducible refine Keeps.ite2 ?_ ?_

theorem fuseLifecycle_keeps {s t : State} (h : Keeps s t) (c ok b) : Keeps s (fuseLifecycle c ok b t).2 := by
  unfold fuseLifecycle
  extract_lets tgt now g
  repeat' first
    | with_reducible exact h
    | (refine fuseDone_keeps (State.drew_keeps (State.modFuse_keeps h _ ?_)) _ _ _; simp [FuseLe, fuse_or])
    | split

theorem fuseDebugLock_keeps {s t : State} (h : Keeps s t) (c ok b) : Keeps s (fuseDebugLock c ok b t).2 := by
  unfold fuseDebugLock
  split
  · exact h
  · refine fuseDone_keeps (State.drew_keeps (State.modFuse_keeps h _ ?_)) _ _ _
    simp [FuseLe, fuse_or]

theorem otpWrite_keeps {s t : State} (h : Keeps s t) (a0 a1 a2) : Keeps s (otpWrite a0 a1 a2 t).2 := by
  unfold otpWrite
  try dsimp only
  repeat' first
    | with_reducible assumption | with_reducible apply State.modFuse_keeps | with_reducible apply bbx_keeps
    | with_reducible apply State.drew_keeps | exact FuseLe.refl _ | with_reducible refine Keeps.ite2 ?_ ?_ | split

/-! ### Endpoint -/

theorem State.modEp_keeps {s t : State} (h : Keeps s t) (f) (hf : EpOk t.ep → EpOk (f t.ep)) : Keeps s (t.modEp f) := h.upd id hf (FuseLe.refl _) id id id id id

theorem epLinkUp_keeps {s t : State} (h : Keeps s t) (a0 a1) : Keeps s (epLinkUp a0 a1 t) := by
  unfold epLinkUp
  try dsimp only
  repeat' first
    | with_reducible assumption | with_reducible apply raise_keeps | with_reducible apply State.modEp_keeps
    | exact id | with_reducible refine Keeps.ite ?_ ?_

theorem epWinCommit_keeps {s t : State} (h : Keeps s t) : Keeps s (epWinCommit t) := by
  unfold epWinCommit
  extract_lets we
  split
  · exact State.modEp_keeps h _ (EpOk.same rfl rfl rfl rfl)
  · exact State.modEp_keeps h _ fun e => ⟨e.1, e.2.1, e.2.1, e.2.2.2⟩

theorem sendPending_keeps {s t : State} (h : Keeps s t) : Keeps s (sendPending t) := by
  unfold sendPending
  try dsimp only
  repeat' first
    | with_reducible assumption | with_reducible apply State.emit_keeps | with_reducible apply State.modEp_keeps
    | with_reducible refine Keeps.ite ?_ ?_ | (with_reducible refine Keeps.foldl (fun u x hu => ?_) ?_)
    | exact EpOk.same rfl (by simp) (by simp) (by simp)

theorem msixUnmask_keeps {s t : State} (h : Keeps s t) (a0) : Keeps s (msixUnmask a0 t) := by
  unfold msixUnmask
  try dsimp only
  repeat' first
    | with_reducible assumption | with_reducible apply sendPending_keeps | with_reducible apply State.modEp_keeps
    | exact EpOk.same rfl (by simp) (by simp) (by simp)

theorem msixWrite_keeps {s t : State} (h : Keeps s t) (a0 a1 a2) : Keeps s (msixWrite a0 a1 a2 t) := by
  unfold msixWrite
  try dsimp only
  repeat' first
    | with_reducible assumption | with_reducible apply State.modEp_keeps | with_reducible apply msixUnmask_keeps
    | with_reducible refine Keeps.ite ?_ ?_ | exact EpOk.same rfl (by simp) (by simp) (by simp)

theorem rearmEvents_keeps {s t : State} (h : Keeps s t) : Keeps s (rearmEvents t) := by
  unfold rearmEvents
  try dsimp only
  repeat' first
    | with_reducible assumption | exact id | exact FuseLe.refl _
    | with_reducible refine Keeps.upd ?_ ?_ ?_ ?_ ?_ ?_ ?_ ?_ ?_

theorem evtHeadRead_keeps {s t : State} (h : Keeps s t) : Keeps s (evtHeadRead t) := by
  unfold evtHeadRead
  try dsimp only
  with_reducible repeat' first | assumption | apply State.emit_keeps | apply rearmEvents_keeps

theorem State.modCfg_keeps {s t : State} (h : Keeps s t) (f) : Keeps s (t.modCfg f) :=
  State.modEp_keeps h _ (EpOk.same rfl rfl rfl rfl)

theorem d3hotEntry_keeps {s t : State} (h : Keeps s t) : Keeps s (d3hotEntry t) := by
  unfold d3hotEntry
  try dsimp only
  repeat' first
    | with_reducible assumption | with_reducible apply State.modEp_keeps | exact id
    | with_reducible refine Keeps.ite ?_ ?_

theorem d0Return_keeps {s t : State} (h : Keeps s t) : Keeps s (d0Return t) := by
  unfold d0Return
  try dsimp only
  repeat' first
    | with_reducible assumption | with_reducible apply sendPending_keeps | with_reducible apply State.modEp_keeps
    | exact id | with_reducible refine Keeps.ite ?_ ?_

theorem cfgWrite_keeps {s t : State} (h : Keeps s t) (r v) : Keeps s (cfgWrite r v t) := by
  unfold cfgWrite
  have hm := fun f => State.modCfg_keeps h f
  split
  · repeat' first
      | with_reducible exact h
      | with_reducible exact hm _
      | with_reducible refine Keeps.ite ?_ ?_
  · dsimp only
    exact Keeps.ite (d3hotEntry_keeps (hm _)) (Keeps.ite (d0Return_keeps (hm _)) (hm _))
  · exact sendPending_keeps (hm _)
  · exact hm _
  · exact hm _
  · exact h

theorem configRequest_keeps {s t : State} (h : Keeps s t) (a0 a1 a2) : Keeps s (configRequest a0 a1 a2 t) := by
  unfold configRequest
  try dsimp only
  with_reducible repeat' first
    | assumption | apply State.emit_keeps | apply cfgWrite_keeps | apply State.drew_keeps | refine Keeps.ite ?_ ?_

theorem epReset_keeps {s t : State} (h : Keeps s t) (k l) : Keeps s (epReset k l t) := by
  unfold epReset
  dsimp only
  refine raise_keeps (State.emit_keeps (Keeps.upd h id (fun e => EpOk.fresh _ e ?_ ?_ ?_ ?_) (FuseLe.refl _) id id id id id) _) _ _ _ _
    <;> rfl

theorem epPerstAssert_keeps {s t : State} (h : Keeps s t) : Keeps s (epPerstAssert t) := by
  unfold epPerstAssert
  try dsimp only
  repeat' first
    | with_reducible assumption | with_reducible apply epReset_keeps | with_reducible apply State.modEp_keeps
    | exact id | with_reducible refine Keeps.ite ?_ ?_

theorem setCfgReady_keeps {s t : State} (h : Keeps s t) (a0) : Keeps s (setCfgReady a0 t) := by
  unfold setCfgReady
  try dsimp only
  repeat' first
    | with_reducible assumption | with_reducible apply State.modEp_keeps | exact id
    | with_reducible refine Keeps.ite ?_ ?_

theorem epPerstDeassert_keeps {s t : State} (h : Keeps s t) : Keeps s (epPerstDeassert t) := by
  unfold epPerstDeassert
  try dsimp only
  repeat' first
    | with_reducible assumption | with_reducible apply epPerstAssert_keeps | with_reducible apply State.modEp_keeps
    | with_reducible apply setCfgReady_keeps | exact id | with_reducible refine Keeps.ite ?_ ?_

theorem epHotReset_keeps {s t : State} (h : Keeps s t) : Keeps s (epHotReset t) := by
  unfold epHotReset
  try dsimp only
  repeat' first
    | with_reducible assumption | with_reducible apply State.modEp_keeps | with_reducible apply epReset_keeps
    | with_reducible apply setCfgReady_keeps | exact id | with_reducible refine Keeps.ite ?_ ?_

theorem epLinkDown_keeps {s t : State} (h : Keeps s t) : Keeps s (epLinkDown t) := by
  unfold epLinkDown
  try dsimp only
  repeat' first
    | with_reducible assumption | with_reducible apply raise_keeps | with_reducible apply State.modEp_keeps
    | exact id | with_reducible refine Keeps.ite ?_ ?_

theorem d3coldEntry_keeps {s t : State} (h : Keeps s t) : Keeps s (d3coldEntry t) := by
  unfold d3coldEntry
  try dsimp only
  repeat' first
    | with_reducible assumption | with_reducible apply State.emit_keeps | with_reducible apply State.modEp_keeps
    | exact id

theorem winFault_keeps {s t : State} (h : Keeps s t) (a0 a1) : Keeps s (winFault a0 a1 t) := by
  unfold winFault
  try dsimp only
  repeat' first
    | with_reducible assumption | with_reducible apply State.modEp_keeps | with_reducible apply irqRise_keeps
    | with_reducible apply raise_keeps | with_reducible apply State.emit_keeps
    | with_reducible apply State.modCfg_keeps | exact id | with_reducible refine Keeps.ite ?_ ?_

theorem bar4Access_keeps {s t : State} (h : Keeps s t) (w off len data) : Keeps s (bar4Access w off len data t) := by
  unfold bar4Access
  split
  · exact h
  · split
    · exact h
    · split
      · exact h
      · exact State.emit_keeps h _
    · extract_lets n s1 put
      split
      · have h1 : Keeps s s1 := State.modEp_keeps h _ (EpOk.same rfl rfl rfl rfl)
        split
        · refine State.modEp_keeps h1 _ fun e => ⟨?_, e.2⟩
          refine Memory.wf_foldl _ _ _ (fun m i hm => ?_) e.1
          simp only [put]
          split
          · exact Memory.wf_write _ _ _ hm
          · exact hm
        · exact State.drew_keeps (State.emit_keeps h1 _)
      · exact winFault_keeps h _ _

/-! ### Time -/

theorem State.modTregs_keeps {s t : State} (h : Keeps s t) (f) : Keeps s (t.modTregs f) := h.upd id id (FuseLe.refl _) id id id id id

theorem renumber_keeps {s t : State} (h : Keeps s t) : Keeps s (renumber t) := by
  unfold renumber
  try dsimp only
  repeat' first
    | with_reducible assumption | with_reducible apply State.modTregs_keeps | exact id | exact FuseLe.refl _
    | with_reducible refine Keeps.upd ?_ ?_ ?_ ?_ ?_ ?_ ?_ ?_ ?_

theorem State.modTime_keeps {s t : State} (h : Keeps s t) (f) : Keeps s (t.modTime f) := h.upd id id (FuseLe.refl _) id id id id id

theorem refreshClass_keeps {s t : State} (h : Keeps s t) : Keeps s (refreshClass t) := by
  unfold refreshClass
  try dsimp only
  with_reducible repeat' first | assumption | apply State.modTime_keeps

theorem sourceChanged_keeps {s t : State} (h : Keeps s t) : Keeps s (sourceChanged t) := by
  unfold sourceChanged
  try dsimp only
  with_reducible repeat' first | assumption | apply raise_keeps | apply State.modTregs_keeps

theorem State.setRate_keeps {s t : State} (h : Keeps s t) (a1 a2) : Keeps s (State.setRate t a1 a2) := by
  unfold State.setRate
  try dsimp only
  with_reducible repeat' first | assumption | apply State.modTime_keeps

theorem enterHoldover_keeps {s t : State} (h : Keeps s t) : Keeps s (enterHoldover t) := by
  unfold enterHoldover
  try dsimp only
  with_reducible repeat' first
    | assumption | apply State.modTregs_keeps | apply State.setRate_keeps | apply State.modTime_keeps

theorem leaveHoldover_keeps {s t : State} (h : Keeps s t) : Keeps s (leaveHoldover t) := by
  unfold leaveHoldover
  try dsimp only
  with_reducible repeat' first | assumption | apply State.modTregs_keeps | split

theorem enterSlewing_keeps {s t : State} (h : Keeps s t) (a0) : Keeps s (enterSlewing a0 t) := by
  unfold enterSlewing
  try dsimp only
  with_reducible repeat' first
    | assumption | apply State.drew_keeps | apply State.setRate_keeps | apply State.modTime_keeps
    | apply leaveHoldover_keeps

theorem actOn_keeps {s t : State} (h : Keeps s t) (a0) : Keeps s (actOn a0 t) := by
  unfold actOn
  try dsimp only
  with_reducible repeat' first
    | assumption | apply State.modTime_keeps | apply enterSlewing_keeps | apply enterHoldover_keeps
    | refine Keeps.ite ?_ ?_ | split

theorem reselect_keeps {s t : State} (h : Keeps s t) : Keeps s (reselect t) := by
  unfold reselect
  try dsimp only
  with_reducible repeat' first
    | assumption | apply State.modTime_keeps | apply refreshClass_keeps | apply sourceChanged_keeps
    | apply enterHoldover_keeps | apply actOn_keeps | refine Keeps.ite ?_ ?_

theorem dropDisabled_keeps {s t : State} (h : Keeps s t) : Keeps s (dropDisabled t) := by
  unfold dropDisabled
  try dsimp only
  with_reducible repeat' first
    | assumption | apply State.modTime_keeps | apply reselect_keeps | refine Keeps.ite ?_ ?_

theorem limitSlew_keeps {s t : State} (h : Keeps s t) : Keeps s (limitSlew t) := by
  unfold limitSlew
  try dsimp only
  with_reducible repeat' first | assumption | apply State.setRate_keeps | refine Keeps.ite ?_ ?_

theorem ppsFollow_keeps {s t : State} (h : Keeps s t) : Keeps s (ppsFollow t) := by
  unfold ppsFollow
  try dsimp only
  with_reducible repeat' first | assumption | apply State.modTregs_keeps | refine Keeps.ite ?_ ?_

theorem servoCorrect_keeps {s t : State} (h : Keeps s t) : Keeps s (servoCorrect t) := by
  unfold servoCorrect
  try dsimp only
  with_reducible repeat' first | assumption | apply State.drew_keeps | apply State.setRate_keeps

theorem pass_keeps {s t : State} (h : Keeps s t) (a0) : Keeps s (pass a0 t) :=
  Keeps.ticks (Keeps.upd h (time := { t.time with fab := t.time.fab + (if t.pins.ddReset then 0 else a0 * t.time.addend) })
    id id (FuseLe.refl _) id id id id id) a0

theorem latchTime_keeps {s t : State} (h : Keeps s t) : Keeps s (latchTime t) := by
  unfold latchTime
  try dsimp only
  with_reducible repeat' first | assumption | apply State.modTregs_keeps

theorem timeNowRead_keeps {s t : State} (h : Keeps s t) : Keeps s (timeNowRead t) := by
  unfold timeNowRead
  try dsimp only
  with_reducible repeat' first | assumption | apply State.emit_keeps | apply latchTime_keeps

theorem advanceTo_keeps {s t : State} (h : Keeps s t) (a0) : Keeps s (advanceTo a0 t) := by
  unfold advanceTo
  try dsimp only
  with_reducible repeat' first | assumption | apply pass_keeps

theorem actOnDue_keeps {s t : State} (h : Keeps s t) : Keeps s (actOnDue t) := by
  unfold actOnDue
  try dsimp only
  with_reducible repeat' first | assumption | apply actOn_keeps | apply State.modTime_keeps | split

theorem resumeRecord_keeps {s t : State} (h : Keeps s t) : Keeps s (resumeRecord t) := by
  unfold resumeRecord
  try dsimp only
  with_reducible repeat' first | assumption | apply raise_keeps | apply bbx_keeps

theorem resumeQualified_keeps {s t : State} (h : Keeps s t) (a0) : Keeps s (resumeQualified a0 t) := by
  unfold resumeQualified
  try dsimp only
  repeat' first
    | with_reducible assumption | with_reducible apply resumeRecord_keeps | exact id | exact FuseLe.refl _
    | with_reducible refine Keeps.ite ?_ ?_ | with_reducible refine Keeps.upd ?_ ?_ ?_ ?_ ?_ ?_ ?_ ?_ ?_

theorem measured_keeps {s t : State} (h : Keeps s t) (a0 a1 a2) : Keeps s (measured a0 a1 a2 t) := by
  unfold measured
  try dsimp only
  with_reducible repeat' first
    | assumption | apply resumeQualified_keeps | apply reselect_keeps | apply State.modTregs_keeps
    | apply State.modTime_keeps | apply servoCorrect_keeps | apply actOn_keeps | refine Keeps.ite ?_ ?_ | split

theorem ptpSyncRx_keeps {s t : State} (h : Keeps s t) (a0) : Keeps s (ptpSyncRx a0 t) := by
  unfold ptpSyncRx
  try dsimp only
  with_reducible repeat' first
    | assumption | apply State.modTime_keeps | apply measured_keeps | refine Keeps.ite ?_ ?_

theorem ptpAnnounceRx_keeps {s t : State} (h : Keeps s t) (a0) : Keeps s (ptpAnnounceRx a0 t) := by
  unfold ptpAnnounceRx
  try dsimp only
  with_reducible repeat' first
    | assumption | apply State.modTregs_keeps | apply raise_keeps | apply reselect_keeps | apply reportDev_keeps
    | apply clearDev_keeps | refine Keeps.ite ?_ ?_

theorem sourceLost_keeps {s t : State} (h : Keeps s t) (a0) : Keeps s (sourceLost a0 t) := by
  unfold sourceLost
  try dsimp only
  with_reducible repeat' first
    | assumption | apply raise_keeps | apply State.modTregs_keeps | apply enterHoldover_keeps | apply reselect_keeps
    | refine Keeps.ite ?_ ?_

theorem ptpSourceLoss_keeps {s t : State} (h : Keeps s t) (a0) : Keeps s (ptpSourceLoss a0 t) := by
  unfold ptpSourceLoss
  try dsimp only
  with_reducible repeat' first
    | assumption | apply sourceLost_keeps | apply State.modTime_keeps | refine Keeps.ite ?_ ?_

theorem ppsInEdge_keeps {s t : State} (h : Keeps s t) (a0 a1) : Keeps s (ppsInEdge a0 a1 t) := by
  unfold ppsInEdge
  try dsimp only
  with_reducible repeat' first
    | assumption | apply State.modTime_keeps | apply State.modTregs_keeps | apply measured_keeps
    | refine Keeps.ite ?_ ?_

theorem ppsInLoss_keeps {s t : State} (h : Keeps s t) : Keeps s (ppsInLoss t) := by
  unfold ppsInLoss
  try dsimp only
  with_reducible repeat' first
    | assumption | apply State.modTime_keeps | apply sourceLost_keeps | apply raise_keeps
    | apply State.modTregs_keeps | refine Keeps.ite ?_ ?_

theorem sourceRequalified_keeps {s t : State} (h : Keeps s t) (a0) : Keeps s (sourceRequalified a0 t) := by
  unfold sourceRequalified
  try dsimp only
  with_reducible repeat' first | assumption | apply reselect_keeps | apply State.modTime_keeps

theorem slewComplete_keeps {s t : State} (h : Keeps s t) : Keeps s (slewComplete t) := by
  unfold slewComplete
  try dsimp only
  with_reducible repeat' first
    | assumption | apply State.modTime_keeps | apply raise_keeps | apply reselect_keeps | apply State.setRate_keeps
    | refine Keeps.ite ?_ ?_

theorem lockOffsetDrift_keeps {s t : State} (h : Keeps s t) : Keeps s (lockOffsetDrift t) := by
  unfold lockOffsetDrift
  try dsimp only
  with_reducible repeat' first | assumption | apply actOn_keeps | apply State.modTime_keeps | refine Keeps.ite ?_ ?_

theorem ppsOutStart_keeps {s t : State} (h : Keeps s t) : Keeps s (ppsOutStart t) := by
  unfold ppsOutStart
  try dsimp only
  with_reducible repeat' first
    | assumption | apply State.modTregs_keeps | apply advanceTo_keeps | refine Keeps.ite ?_ ?_

theorem ppsOutEnd_keeps {s t : State} (h : Keeps s t) : Keeps s (ppsOutEnd t) := by
  unfold ppsOutEnd
  try dsimp only
  with_reducible repeat' first
    | assumption | apply State.modTregs_keeps | apply advanceTo_keeps | refine Keeps.ite ?_ ?_

theorem peersFollow_keeps {s t : State} (h : Keeps s t) : Keeps s (peersFollow t) := by
  unfold peersFollow
  try dsimp only
  with_reducible repeat' first | assumption | apply reselect_keeps | apply State.modTregs_keeps

theorem resumeTimeWindow_keeps {s t : State} (h : Keeps s t) : Keeps s (resumeTimeWindow t) := by
  unfold resumeTimeWindow
  try dsimp only
  repeat' first
    | with_reducible assumption | with_reducible apply resumeRecord_keeps | exact id | exact FuseLe.refl _
    | with_reducible refine Keeps.ite ?_ ?_ | with_reducible refine Keeps.upd ?_ ?_ ?_ ?_ ?_ ?_ ?_ ?_ ?_

theorem ptpMessageTx_keeps {s t : State} (h : Keeps s t) (a0) : Keeps s (ptpMessageTx a0 t) := by
  unfold ptpMessageTx
  try dsimp only
  with_reducible repeat' first
    | assumption | apply State.emit_keeps | apply sealOn_keeps | refine Keeps.ite ?_ ?_ | split

end Sys2Proof.Machine
end

