-- ==== Sys2Proof/Laws/Keeps6.lean ====
section
/-! SUPPORT. What the operations of Handover, Scrim, Keyx, Mirror, Mount, Takeover, Witness keep (Laws/Keeps.lean):
one lemma for each. -/

set_option linter.unusedVariables false

namespace Sys2Proof.Machine

/-! ### Handover -/

theorem fromPair_keeps {s t : State} (h : Keeps s t) (b f) (hf : ∀ g m u, Keeps s u → Keeps s (f g m u)) :
    Keeps s (fromPair b f t) := by
  unfold fromPair
  try dsimp only
  with_reducible repeat' first | exact h | exact hf _ _ _ h | split

theorem handoverEnds_keeps {s t : State} (h : Keeps s t) (a0) : Keeps s (handoverEnds a0 t) := by
  unfold handoverEnds
  try dsimp only
  with_reducible repeat' first
    | assumption | apply State.modGroup_keeps | apply setRole_keeps | apply raise_keeps | apply setScrimEvt_keeps
    | refine Keeps.ite ?_ ?_

theorem cancelHandover_keeps {s t : State} (h : Keeps s t) (a0) : Keeps s (cancelHandover a0 t) := by
  unfold cancelHandover
  try dsimp only
  with_reducible repeat' first | assumption | apply handoverEnds_keeps | apply sendHand_keeps

theorem handoverAckRx_keeps {s t : State} (h : Keeps s t) (b) : Keeps s (handoverAckRx b t) := by
  unfold handoverAckRx
  refine fromPair_keeps h _ _ fun g m u hu => ?_
  repeat' first
    | with_reducible exact hu
    | with_reducible exact cancelHandover_keeps hu _
    | with_reducible exact setRole_keeps (State.modGroup_keeps hu _ _) _ _
    | split

theorem startHandover_keeps {s t : State} (h : Keeps s t) (a0 a1) : Keeps s (startHandover a0 a1 t) := by
  unfold startHandover
  try dsimp only
  with_reducible repeat' first
    | assumption | apply startCheckpoint_keeps | apply State.modGroup_keeps | apply sendOffer_keeps
    | refine Keeps.ite ?_ ?_

theorem enterContained_keeps {s t : State} (h : Keeps s t) (a0) : Keeps s (enterContained a0 t) := by
  unfold enterContained
  try dsimp only
  repeat' first
    | with_reducible assumption | with_reducible apply State.modMode_keeps | with_reducible apply modeEntered_keeps
    | with_reducible apply bbx_keeps | with_reducible apply State.modScrim_keeps
    | with_reducible apply startHandover_keeps | with_reducible apply endGroupCmds_keeps | exact id
    | with_reducible refine Keeps.ite ?_ ?_ | (with_reducible refine Keeps.foldl (fun u x hu => ?_) ?_)

theorem becomeCopy_keeps {s t : State} (h : Keeps s t) (a0) : Keeps s (becomeCopy a0 t) := by
  unfold becomeCopy
  try dsimp only
  repeat' first
    | with_reducible assumption | with_reducible apply dropWork_keeps | with_reducible apply revokeBays_keeps
    | with_reducible apply commitUnit_keeps | with_reducible apply State.modFlash_keeps
    | with_reducible apply State.modGroup_keeps | exact id
    | (with_reducible refine Keeps.foldl (fun u x hu => ?_) ?_) | split

theorem giveUpGroup_keeps {s t : State} (h : Keeps s t) (a0) : Keeps s (giveUpGroup a0 t) := by
  unfold giveUpGroup
  try dsimp only
  with_reducible repeat' first | assumption | apply setRole_keeps | apply State.modGroup_keeps

theorem leaveDone_keeps {s t : State} (h : Keeps s t) : Keeps s (leaveDone t) := by
  unfold leaveDone
  try dsimp only
  with_reducible repeat' first
    | assumption | apply dataDieReset_keeps | apply giveUpGroup_keeps | apply modeEntered_keeps
    | apply islandSteps_keeps | refine Keeps.ite ?_ ?_ | (refine Keeps.foldl (fun u x hu => ?_) ?_) | split

theorem leaveStep_keeps {s t : State} (h : Keeps s t) (a0) : Keeps s (leaveStep a0 t) := by
  induction a0 generalizing t with
  | nil => exact leaveDone_keeps (State.modMode_keeps h _)
  | cons gi rest ih =>
    unfold leaveStep
    have h1 := State.modMode_keeps h fun m => { m with toHand := gi :: rest }
    repeat' first
      | exact h1
      | exact ih h1
      | exact startHandover_keeps h1 _ _
      | exact ih (giveUpGroup_keeps h1 _)
      | split

theorem leaveOn_keeps {s t : State} (h : Keeps s t) : Keeps s (leaveOn t) := by
  unfold leaveOn
  try dsimp only
  with_reducible repeat' first | assumption | apply leaveStep_keeps | split

theorem finishHandover_keeps {s t : State} (h : Keeps s t) (a0) : Keeps s (finishHandover a0 t) := by
  unfold finishHandover
  try dsimp only
  with_reducible repeat' first
    | assumption | apply nextTag_keeps | apply sendHand_keeps | apply toWitnesses_keeps | apply State.modGroup_keeps
    | apply becomeCopy_keeps | apply setRole_keeps | apply leaveOn_keeps | apply countScrim_keeps
    | apply raise_keeps | apply setScrimEvt_keeps | split

theorem handoverAcked_keeps {s t : State} (h : Keeps s t) (a0) : Keeps s (handoverAcked a0 t) := by
  unfold handoverAcked
  try dsimp only
  with_reducible repeat' first | assumption | apply finishHandover_keeps | refine Keeps.ite ?_ ?_

theorem handoverOfferRx_keeps {s t : State} (h : Keeps s t) (a0) : Keeps s (handoverOfferRx a0 t) := by
  unfold handoverOfferRx
  try dsimp only
  with_reducible repeat' first
    | assumption | apply fromPair_keeps | apply sendHand_keeps | apply State.modGroup_keeps | split | intro _

theorem handoverCancelRx_keeps {s t : State} (h : Keeps s t) (a0) : Keeps s (handoverCancelRx a0 t) := by
  unfold handoverCancelRx
  try dsimp only
  repeat' first
    | with_reducible assumption | with_reducible apply fromPair_keeps | with_reducible apply handoverEnds_keeps
    | with_reducible apply State.modGroup_keeps | exact id | split | intro _

theorem handoverRequestRx_keeps {s t : State} (h : Keeps s t) (a0) : Keeps s (handoverRequestRx a0 t) := by
  unfold handoverRequestRx
  try dsimp only
  with_reducible repeat' first
    | assumption | apply fromPair_keeps | apply startHandover_keeps | apply sendHand_keeps | split | intro _

theorem handoverTurn_keeps {s t : State} (h : Keeps s t) (a1) : Keeps s (handoverTurn t a1) := by
  unfold handoverTurn
  try dsimp only
  with_reducible repeat' first
    | assumption | apply cancelHandover_keeps | apply State.modGroup_keeps | apply endGroupCmds_keeps
    | apply toPartner_keeps | apply handoverAcked_keeps | apply sendHand_keeps | refine Keeps.ite ?_ ?_ | split

theorem handoverTurns_keeps {s t : State} (h : Keeps s t) : Keeps s (handoverTurns t) := by
  unfold handoverTurns
  try dsimp only
  with_reducible repeat' first
    | assumption | apply leaveOn_keeps | apply handoverTurn_keeps | (refine Keeps.foldl (fun u x hu => ?_) ?_)

theorem handoverJackTimeout_keeps {s t : State} (h : Keeps s t) (a0) : Keeps s (handoverJackTimeout a0 t) := by
  unfold handoverJackTimeout
  try dsimp only
  with_reducible repeat' first
    | assumption | apply leaveOn_keeps | apply cancelHandover_keeps | refine Keeps.ite ?_ ?_ | split

theorem failbackHoldoffExpiry_keeps {s t : State} (h : Keeps s t) (a0) : Keeps s (failbackHoldoffExpiry a0 t) := by
  unfold failbackHoldoffExpiry
  try dsimp only
  with_reducible repeat' first
    | assumption | apply nextTag_keeps | apply State.modGroup_keeps | apply sendHand_keeps | refine Keeps.ite ?_ ?_

theorem swapDue_keeps {s t : State} (h : Keeps s t) (a0) : Keeps s (swapDue a0 t) := by
  unfold swapDue
  try dsimp only
  with_reducible repeat' first
    | assumption | apply startHandover_keeps | apply State.modGroup_keeps | refine Keeps.ite ?_ ?_ | split

theorem leaveStart_keeps {s t : State} (h : Keeps s t) : Keeps s (leaveStart t) := by
  unfold leaveStart
  try dsimp only
  with_reducible repeat' first | assumption | apply leaveStep_keeps

/-! ### Scrim -/

theorem awaitAck_keeps {s t : State} (h : Keeps s t) (a0 a1) : Keeps s (awaitAck a0 a1 t) := by
  unfold awaitAck
  try dsimp only
  repeat' first | with_reducible assumption | with_reducible apply State.modScrim_keeps | exact id

theorem storeLsa_keeps {s t : State} (h : Keeps s t) (a0) : Keeps s (storeLsa a0 t) := by
  unfold storeLsa
  try dsimp only
  repeat' first | with_reducible assumption | with_reducible apply State.modScrim_keeps | exact id

theorem sendLsa_keeps {s t : State} (h : Keeps s t) : Keeps s (sendLsa t) := by
  unfold sendLsa
  try dsimp only
  repeat' first
    | with_reducible assumption | with_reducible apply State.modScrim_keeps | with_reducible apply flood_keeps
    | with_reducible apply awaitAck_keeps | with_reducible apply storeLsa_keeps | exact id

theorem adjFall_keeps {s t : State} (h : Keeps s t) (a0 a1) : Keeps s (adjFall a0 a1 t) := by
  unfold adjFall
  try dsimp only
  repeat' first
    | with_reducible assumption | with_reducible apply State.modScrim_keeps
    | with_reducible apply State.modAdj_keeps | with_reducible apply raise_keeps
    | with_reducible apply setScrimEvt_keeps | with_reducible apply sendLsa_keeps
    | with_reducible apply reportDev_keeps | exact id | with_reducible refine Keeps.ite ?_ ?_

theorem adjDown_keeps {s t : State} (h : Keeps s t) (a0) : Keeps s (adjDown a0 t) := by
  unfold adjDown
  try dsimp only
  with_reducible repeat' first | assumption | apply State.modAdj_keeps | apply adjFall_keeps | refine Keeps.ite ?_ ?_

theorem lsaAckRx_keeps {s t : State} (h : Keeps s t) (a0 a1) : Keeps s (lsaAckRx a0 a1 t) := by
  unfold lsaAckRx
  try dsimp only
  repeat' first
    | with_reducible assumption | with_reducible apply State.modScrim_keeps | exact id
    | with_reducible refine Keeps.ite ?_ ?_

theorem ackLsa_keeps {s t : State} (h : Keeps s t) (a0 a1) : Keeps s (ackLsa a0 a1 t) := by
  unfold ackLsa
  try dsimp only
  with_reducible repeat' first | assumption | apply sendOn_keeps

theorem resolveConflict_keeps {s t : State} (h : Keeps s t) : Keeps s (resolveConflict t) := by
  unfold resolveConflict
  try dsimp only
  repeat' first
    | with_reducible assumption | with_reducible apply State.modScrim_keeps | with_reducible apply sendLsa_keeps
    | with_reducible apply countScrim_keeps | with_reducible apply raise_keeps
    | with_reducible apply setScrimEvt_keeps | exact id | with_reducible refine Keeps.ite ?_ ?_

theorem lsaRx_keeps {s t : State} (h : Keeps s t) (a0 a1) : Keeps s (lsaRx a0 a1 t) := by
  unfold lsaRx
  try dsimp only
  repeat' first
    | with_reducible assumption | with_reducible apply ackLsa_keeps | with_reducible apply sendLsa_keeps
    | with_reducible apply State.modScrim_keeps | with_reducible apply awaitAck_keeps
    | with_reducible apply storeLsa_keeps | with_reducible apply resolveConflict_keeps
    | with_reducible apply flood_keeps | with_reducible apply raise_keeps | exact id
    | with_reducible refine Keeps.ite ?_ ?_ | split

theorem partnerFound_keeps {s t : State} (h : Keeps s t) (a0) : Keeps s (partnerFound a0 t) := by
  unfold partnerFound
  try dsimp only
  repeat' first
    | with_reducible assumption | with_reducible apply State.modScrim_keeps
    | with_reducible apply discoveryChanged_keeps | with_reducible apply State.modHost_keeps
    | with_reducible apply State.drew_keeps | exact id

theorem sendInit_keeps {s t : State} (h : Keeps s t) (a0) : Keeps s (sendInit a0 t) := by
  unfold sendInit
  try dsimp only
  with_reducible repeat' first | assumption | apply sendPlain_keeps

theorem keyxStart_keeps {s t : State} (h : Keeps s t) (a0 a1) : Keeps s (keyxStart a0 a1 t) := by
  unfold keyxStart
  try dsimp only
  with_reducible repeat' first
    | assumption | apply State.modAdj_keeps | apply sendInit_keeps | apply drawRandom_keeps | refine Keeps.ite ?_ ?_

theorem helloRx_keeps {s t : State} (h : Keeps s t) (a0 a1) : Keeps s (helloRx a0 a1 t) := by
  unfold helloRx
  try dsimp only
  with_reducible repeat' first
    | assumption | apply countScrim_keeps | apply State.modAdj_keeps | apply adjFall_keeps
    | apply partnerFound_keeps | apply keyxStart_keeps | refine Keeps.ite ?_ ?_

theorem adjFull_keeps {s t : State} (h : Keeps s t) (a0) : Keeps s (adjFull a0 t) := by
  unfold adjFull
  try dsimp only
  with_reducible repeat' first
    | assumption | apply State.modAdj_keeps | apply sendLsa_keeps | apply clearDev_keeps | apply raise_keeps
    | refine Keeps.ite ?_ ?_

theorem helloTx_keeps {s t : State} (h : Keeps s t) : Keeps s (helloTx t) := by
  unfold helloTx
  try dsimp only
  with_reducible repeat' first
    | assumption | apply sendPlain_keeps | refine Keeps.ite ?_ ?_ | (refine Keeps.foldl (fun u x hu => ?_) ?_)

theorem adjDead_keeps {s t : State} (h : Keeps s t) (a0) : Keeps s (adjDead a0 t) := by
  unfold adjDead
  try dsimp only
  with_reducible repeat' first | assumption | apply adjDown_keeps | refine Keeps.ite ?_ ?_

theorem addrClaim_keeps {s t : State} (h : Keeps s t) : Keeps s (addrClaim t) := by
  unfold addrClaim
  try dsimp only
  repeat' first
    | with_reducible assumption | with_reducible apply sendLsa_keeps | with_reducible apply State.modScrim_keeps
    | exact id | with_reducible refine Keeps.ite ?_ ?_

theorem lsaRetransmit_keeps {s t : State} (h : Keeps s t) (a0) : Keeps s (lsaRetransmit a0 t) := by
  unfold lsaRetransmit
  try dsimp only
  with_reducible repeat' first
    | assumption | apply sendOn_keeps | refine Keeps.ite ?_ ?_ | (refine Keeps.foldl (fun u x hu => ?_) ?_) | split

theorem lsaAgeTick_keeps {s t : State} (h : Keeps s t) : Keeps s (lsaAgeTick t) := by
  unfold lsaAgeTick
  try dsimp only
  repeat' first
    | with_reducible assumption | with_reducible apply State.modScrim_keeps | exact id
    | with_reducible refine Keeps.ite ?_ ?_

theorem spfCompute_keeps {s t : State} (h : Keeps s t) : Keeps s (spfCompute t) := by
  unfold spfCompute
  try dsimp only
  repeat' first
    | with_reducible assumption | with_reducible apply State.modScrim_keeps | with_reducible apply raise_keeps
    | with_reducible apply reportFault_keeps | with_reducible apply peersFollow_keeps
    | with_reducible apply clearFault_keeps | exact id | with_reducible refine Keeps.ite ?_ ?_
    | (with_reducible refine Keeps.foldl (fun u x hu => ?_) ?_)

theorem chooseAddr_keeps {s t : State} (h : Keeps s t) : Keeps s (chooseAddr t) := by
  unfold chooseAddr
  try dsimp only
  repeat' first | with_reducible assumption | with_reducible apply State.modScrim_keeps | exact id

/-! ### Keyx -/

theorem keyxConfirm_keeps {s t : State} (h : Keeps s t) (a0 a1) : Keeps s (keyxConfirm a0 a1 t) := by
  unfold keyxConfirm
  try dsimp only
  with_reducible repeat' first
    | assumption | apply setLabel_keeps | apply useKey_keeps | apply State.modAdj_keeps | apply sendPlain_keeps
    | apply cipherWork_keeps | split

theorem keyxInitRx_keeps {s t : State} (h : Keeps s t) (a0 a1) : Keeps s (keyxInitRx a0 a1 t) := by
  unfold keyxInitRx
  try dsimp only
  with_reducible repeat' first
    | assumption | apply keyxConfirm_keeps | apply sendInit_keeps | apply keyxStart_keeps | apply State.modAdj_keeps
    | refine Keeps.ite ?_ ?_

theorem keyxConfirmRx_keeps {s t : State} (h : Keeps s t) (a0 a1) : Keeps s (keyxConfirmRx a0 a1 t) := by
  unfold keyxConfirmRx
  try dsimp only
  with_reducible repeat' first
    | assumption | apply adjFull_keeps | apply cipherWork_keeps | apply useKey_keeps | apply State.modAdj_keeps
    | apply State.modCiph_keeps | apply raise_keeps | refine Keeps.ite ?_ ?_

theorem fabricLabels_keeps {s t : State} (h : Keeps s t) : Keeps s (fabricLabels t) := by
  unfold fabricLabels
  try dsimp only
  with_reducible repeat' first | assumption | apply setLabel_keeps

theorem keyxInitResend_keeps {s t : State} (h : Keeps s t) (a0) : Keeps s (keyxInitResend a0 t) := by
  unfold keyxInitResend
  try dsimp only
  with_reducible repeat' first | assumption | apply sendInit_keeps | refine Keeps.ite ?_ ?_

theorem keyxRestart_keeps {s t : State} (h : Keeps s t) (a0) : Keeps s (keyxRestart a0 t) := by
  unfold keyxRestart
  try dsimp only
  with_reducible repeat' first | assumption | apply keyxStart_keeps | refine Keeps.ite ?_ ?_

theorem keyxRekey_keeps {s t : State} (h : Keeps s t) (a0) : Keeps s (keyxRekey a0 t) := by
  unfold keyxRekey
  try dsimp only
  with_reducible repeat' first | assumption | apply keyxStart_keeps | refine Keeps.ite ?_ ?_

/-! ### Mirror -/

theorem jcopyReqRx_keeps {s t : State} (h : Keeps s t) (a0 a1) : Keeps s (jcopyReqRx a0 a1 t) := by
  unfold jcopyReqRx
  try dsimp only
  with_reducible repeat' first
    | assumption | apply scrimSend_keeps | refine Keeps.ite ?_ ?_ | (refine Keeps.foldl (fun u x hu => ?_) ?_)

theorem ownerHeard_keeps {s t : State} (h : Keeps s t) (a0) : Keeps s (ownerHeard a0 t) := by
  unfold ownerHeard
  try dsimp only
  with_reducible repeat' first | assumption | apply clearDev_keeps | apply State.modGroup_keeps

theorem storeRec_keeps {s t : State} (h : Keeps s t) (a0 a2) : Keeps s (storeRec a0 t a2) := by
  unfold storeRec
  try dsimp only
  with_reducible repeat' first | assumption | apply State.modGroup_keeps | refine Keeps.ite ?_ ?_ | split

theorem retireCopy_keeps {s t : State} (h : Keeps s t) (a0 a1) : Keeps s (retireCopy a0 a1 t) := by
  unfold retireCopy
  try dsimp only
  with_reducible repeat' first
    | assumption | apply applyRec_keeps | apply State.modGroup_keeps | (refine Keeps.foldl (fun u x hu => ?_) ?_)

theorem jmirrorRx_keeps {s t : State} (h : Keeps s t) (a0 a1) : Keeps s (jmirrorRx a0 a1 t) := by
  unfold jmirrorRx
  try dsimp only
  with_reducible repeat' first
    | assumption | apply ownerHeard_keeps | apply State.modGroup_keeps | apply storeRec_keeps
    | apply retireCopy_keeps | apply scrimSend_keeps | refine Keeps.ite ?_ ?_
    | (refine Keeps.foldl (fun u x hu => ?_) ?_)

theorem mirrorRestored_keeps {s t : State} (h : Keeps s t) (a0) : Keeps s (mirrorRestored a0 t) := by
  unfold mirrorRestored
  try dsimp only
  with_reducible repeat' first | assumption | apply State.modGroup_keeps | apply clearDev_keeps | apply raise_keeps

theorem mirrorLost_keeps {s t : State} (h : Keeps s t) (a0) : Keeps s (mirrorLost a0 t) := by
  unfold mirrorLost
  try dsimp only
  with_reducible repeat' first
    | assumption | apply State.modGroup_keeps | apply reportDev_keeps | apply raise_keeps
    | apply chooseImageBays_keeps | apply postWrites_keeps | apply appendLog_keeps | refine Keeps.ite ?_ ?_

theorem jackRx_keeps {s t : State} (h : Keeps s t) (a0) : Keeps s (jackRx a0 t) := by
  unfold jackRx
  try dsimp only
  with_reducible repeat' first
    | assumption | apply State.modGroup_keeps | apply mirrorRestored_keeps | apply handoverAcked_keeps
    | apply postWrites_keeps | apply retireAll_keeps | apply fence_keeps | apply mirrorLost_keeps
    | refine Keeps.ite ?_ ?_ | split

theorem jmirrorRetry_keeps {s t : State} (h : Keeps s t) (a0) : Keeps s (jmirrorRetry a0 t) := by
  unfold jmirrorRetry
  try dsimp only
  with_reducible repeat' first
    | assumption | apply State.modGroup_keeps | apply countScrim_keeps | apply scrimSend_keeps
    | refine Keeps.ite ?_ ?_ | (refine Keeps.foldl (fun u x hu => ?_) ?_) | split

theorem clearCopy_keeps {s t : State} (h : Keeps s t) (a0 a1) : Keeps s (clearCopy a0 a1 t) := by
  unfold clearCopy
  try dsimp only
  with_reducible repeat' first | assumption | apply State.modHost_keeps | apply State.modGroup_keeps

theorem takeConfig_keeps {s t : State} (h : Keeps s t) (a0) : Keeps s (takeConfig a0 t) := by
  unfold takeConfig
  try dsimp only
  with_reducible repeat' first
    | assumption | apply setLabel_keeps | apply State.modHost_keeps | (refine Keeps.foldl (fun u x hu => ?_) ?_)

theorem resyncRx_keeps {s t : State} (h : Keeps s t) (a0) : Keeps s (resyncRx a0 t) := by
  unfold resyncRx
  try dsimp only
  with_reducible repeat' first
    | assumption | apply raise_keeps | apply clearCopy_keeps | apply ownerHeard_keeps | apply State.modGroup_keeps
    | apply takeConfig_keeps | apply State.modHost_keeps | apply setRole_keeps | apply toPartner_keeps
    | refine Keeps.ite ?_ ?_

theorem mirrorFailTimeout_keeps {s t : State} (h : Keeps s t) (a0) : Keeps s (mirrorFailTimeout a0 t) := by
  unfold mirrorFailTimeout
  try dsimp only
  with_reducible repeat' first | assumption | apply mirrorLost_keeps | refine Keeps.ite ?_ ?_

theorem resyncStart_keeps {s t : State} (h : Keeps s t) (a0) : Keeps s (resyncStart a0 t) := by
  unfold resyncStart
  try dsimp only
  with_reducible repeat' first
    | assumption | apply raise_keeps | apply State.modGroup_keeps | apply toPartner_keeps | apply mirrorNs_keeps
    | refine Keeps.ite ?_ ?_ | (refine Keeps.foldl (fun u x hu => ?_) ?_)

/-! ### Mount -/

theorem liftWseq_keeps {s t : State} (h : Keeps s t) (a0) : Keeps s (liftWseq a0 t) := by
  unfold liftWseq
  try dsimp only
  with_reducible repeat' first | assumption | apply State.modGroup_keeps

theorem replayCopy_keeps {s t : State} (h : Keeps s t) (a0 a1) : Keeps s (replayCopy a0 a1 t) := by
  unfold replayCopy
  try dsimp only
  with_reducible repeat' first
    | assumption | apply applyRec_keeps | apply State.modGroup_keeps | (refine Keeps.foldl (fun u x hu => ?_) ?_)

theorem startReplay_keeps {s t : State} (h : Keeps s t) (a0) : Keeps s (startReplay a0 t) := by
  unfold startReplay
  try dsimp only
  with_reducible repeat' first | assumption | apply requestBuf_keeps | (refine Keeps.foldl (fun u x hu => ?_) ?_)

theorem mountChoose_keeps {s t : State} (h : Keeps s t) (a0) : Keeps s (mountChoose a0 t) := by
  unfold mountChoose
  try dsimp only
  with_reducible repeat' first
    | assumption | apply liftWseq_keeps | apply State.modGroup_keeps | apply replayCopy_keeps
    | apply mountDone_keeps | apply startReplay_keeps | apply raise_keeps | apply setHealth_keeps
    | refine Keeps.ite ?_ ?_ | split

theorem jcopyRx_keeps {s t : State} (h : Keeps s t) (a0) : Keeps s (jcopyRx a0 t) := by
  unfold jcopyRx
  try dsimp only
  with_reducible repeat' first
    | assumption | apply State.modGroup_keeps | apply mountChoose_keeps | refine Keeps.ite ?_ ?_

theorem mountGather_keeps {s t : State} (h : Keeps s t) (a0 a1) : Keeps s (mountGather a0 a1 t) := by
  unfold mountGather
  try dsimp only
  with_reducible repeat' first
    | assumption | apply askDies_keeps | apply State.modGroup_keeps | apply toPartner_keeps
    | apply mountChoose_keeps | refine Keeps.ite ?_ ?_ | (refine Keeps.foldl (fun u x hu => ?_) ?_)

theorem jcopyTimeout_keeps {s t : State} (h : Keeps s t) (a0) : Keeps s (jcopyTimeout a0 t) := by
  unfold jcopyTimeout
  try dsimp only
  with_reducible repeat' first | assumption | apply mountChoose_keeps | apply toPartner_keeps | refine Keeps.ite ?_ ?_

theorem loadImage_keeps {s t : State} (h : Keeps s t) (a0 a1) : Keeps s (loadImage a0 a1 t) := by
  unfold loadImage
  try dsimp only
  with_reducible repeat' first | assumption | apply State.modHost_keeps | apply State.modGroup_keeps

theorem replayLog_keeps {s t : State} (h : Keeps s t) (a0 a1) : Keeps s (replayLog a0 a1 t) := by
  unfold replayLog
  try dsimp only
  with_reducible repeat' first
    | assumption | apply applyRec_keeps | apply State.modGroup_keeps | (refine Keeps.foldl (fun u x hu => ?_) ?_)

theorem groupMount_keeps {s t : State} (h : Keeps s t) (a0 a1) : Keeps s (groupMount a0 a1 t) := by
  unfold groupMount
  try dsimp only
  with_reducible repeat' first
    | assumption | apply setRole_keeps | apply State.modGroup_keeps | apply mountDone_keeps | apply setHealth_keeps
    | apply loadImage_keeps | apply replayLog_keeps | apply setEpoch_keeps | apply mountGather_keeps
    | apply notFit_keeps | refine Keeps.ite ?_ ?_ | (refine Keeps.foldl (fun u x hu => ?_) ?_) | split

theorem journalWaitTimeout_keeps {s t : State} (h : Keeps s t) (a0) : Keeps s (journalWaitTimeout a0 t) := by
  unfold journalWaitTimeout
  try dsimp only
  with_reducible repeat' first | assumption | apply mountChoose_keeps | refine Keeps.ite ?_ ?_

/-! ### Takeover -/

theorem formOwn_keeps {s t : State} (h : Keeps s t) (a0) : Keeps s (formOwn a0 t) := by
  unfold formOwn
  try dsimp only
  with_reducible repeat' first
    | assumption | apply nextTag_keeps | apply startCheckpoint_keeps | apply eraseSets_keeps
    | apply renewLease_keeps | apply setRole_keeps | apply toWitnesses_keeps | refine Keeps.ite ?_ ?_

theorem epochTold_keeps {s t : State} (h : Keeps s t) (a0 a1) : Keeps s (epochTold a0 a1 t) := by
  unfold epochTold
  try dsimp only
  with_reducible repeat' first | assumption | apply State.modBay_keeps

theorem endAttempt_keeps {s t : State} (h : Keeps s t) (a0) : Keeps s (endAttempt a0 t) := by
  unfold endAttempt
  try dsimp only
  with_reducible repeat' first | assumption | apply setRole_keeps | apply State.modGroup_keeps

theorem epochRefused_keeps {s t : State} (h : Keeps s t) (a0) : Keeps s (epochRefused a0 t) := by
  unfold epochRefused
  try dsimp only
  with_reducible repeat' first
    | assumption | apply State.modGroup_keeps | apply endAttempt_keeps | apply revokeBays_keeps

theorem epochNotice_keeps {s t : State} (h : Keeps s t) (a0 a1) : Keeps s (epochNotice a0 a1 t) := by
  unfold epochNotice
  try dsimp only
  with_reducible repeat' first
    | assumption | apply State.modBay_keeps | apply epochTold_keeps | apply consumeEntry_keeps | apply fence_keeps
    | apply epochRefused_keeps | refine Keeps.ite ?_ ?_ | split

theorem fromWitness_keeps {s t : State} (h : Keeps s t) (b f) (hf : ∀ g m u, Keeps s u → Keeps s (f g m u)) :
    Keeps s (fromWitness b f t) := by
  unfold fromWitness
  try dsimp only
  with_reducible repeat' first | exact h | exact hf _ _ _ h | split

theorem witnessHeard_keeps {s t : State} (h : Keeps s t) (a0 a1 a2) : Keeps s (witnessHeard a0 a1 a2 t) := by
  unfold witnessHeard
  try dsimp only
  with_reducible repeat' first | assumption | apply State.modGroup_keeps

theorem leaseAnswer_keeps {s t : State} (h : Keeps s t) (a0 a1) : Keeps s (leaseAnswer a0 a1 t) := by
  unfold leaseAnswer
  try dsimp only
  with_reducible repeat' first
    | assumption | apply State.modGroup_keeps | apply witnessHeard_keeps | apply fence_keeps | apply setRole_keeps
    | refine Keeps.ite ?_ ?_ | split

theorem leaseAnswerRx_keeps {s t : State} (h : Keeps s t) (a0) : Keeps s (leaseAnswerRx a0 t) := by
  unfold leaseAnswerRx
  try dsimp only
  with_reducible repeat' first | assumption | apply fromWitness_keeps | apply leaseAnswer_keeps | intro _

theorem epochsRaised_keeps {s t : State} (h : Keeps s t) (a0) : Keeps s (epochsRaised a0 t) := by
  unfold epochsRaised
  try dsimp only
  with_reducible repeat' first
    | assumption | apply notFit_keeps | apply mountGather_keeps | apply State.modGroup_keeps
    | refine Keeps.ite ?_ ?_

theorem takeoverWon_keeps {s t : State} (h : Keeps s t) (a0) : Keeps s (takeoverWon a0 t) := by
  unfold takeoverWon
  try dsimp only
  with_reducible repeat' first
    | assumption | apply setHealth_keeps | apply setRole_keeps | apply State.modGroup_keeps | apply setEpoch_keeps
    | apply epochsRaised_keeps | refine Keeps.ite ?_ ?_ | (refine Keeps.foldl (fun u x hu => ?_) ?_) | split

theorem vote_keeps {s t : State} (h : Keeps s t) (a0 a1) : Keeps s (vote a0 a1 t) := by
  unfold vote
  try dsimp only
  with_reducible repeat' first
    | assumption | apply State.modGroup_keeps | apply witnessHeard_keeps | apply takeoverWon_keeps
    | refine Keeps.ite ?_ ?_ | split

theorem voteRx_keeps {s t : State} (h : Keeps s t) (a0) : Keeps s (voteRx a0 t) := by
  unfold voteRx
  try dsimp only
  with_reducible repeat' first | assumption | apply fromWitness_keeps | apply vote_keeps | intro _

theorem startAttempt_keeps {s t : State} (h : Keeps s t) (a0 a1) : Keeps s (startAttempt a0 a1 t) := by
  unfold startAttempt
  try dsimp only
  with_reducible repeat' first
    | assumption | apply nextTag_keeps | apply setRole_keeps | apply toWitnesses_keeps | apply State.modGroup_keeps

theorem handoverCommitRx_keeps {s t : State} (h : Keeps s t) (b) : Keeps s (handoverCommitRx b t) := by
  unfold handoverCommitRx
  refine fromPair_keeps h _ _ fun g m u hu => ?_
  extract_lets g'
  split
  · exact startAttempt_keeps hu _ _
  · exact hu

theorem epochAccepted_keeps {s t : State} (h : Keeps s t) (a0 a1 a2) : Keeps s (epochAccepted a0 a1 a2 t) := by
  unfold epochAccepted
  try dsimp only
  with_reducible repeat' first
    | assumption | apply State.modGroup_keeps | apply epochsRaised_keeps | apply formOwn_keeps
    | refine Keeps.ite ?_ ?_

theorem epochSetEnds_keeps {s t : State} (h : Keeps s t) (a0 a1) : Keeps s (epochSetEnds a0 a1 t) := by
  unfold epochSetEnds
  try dsimp only
  with_reducible repeat' first
    | assumption | apply epochTold_keeps | apply epochAccepted_keeps | apply epochRefused_keeps | apply fence_keeps
    | refine Keeps.ite ?_ ?_ | split

theorem epochSetCpl_keeps {s t : State} (h : Keeps s t) (b e) : Keeps s (epochSetCpl b e t) :=
  takeCpl_keeps h _ _ _ _ fun c o _ hu => epochSetEnds_keeps hu c o

theorem loseLease_keeps {s t : State} (h : Keeps s t) (a0) : Keeps s (loseLease a0 t) := by
  unfold loseLease
  try dsimp only
  with_reducible repeat' first
    | assumption | apply endGroupCmds_keeps | apply State.modGroup_keeps | apply purgeHawk_keeps | apply raise_keeps
    | apply setScrimEvt_keeps | apply setRole_keeps

theorem leaseLapse_keeps {s t : State} (h : Keeps s t) (a0) : Keeps s (leaseLapse a0 t) := by
  unfold leaseLapse
  try dsimp only
  with_reducible repeat' first | assumption | apply loseLease_keeps | refine Keeps.ite ?_ ?_

theorem takeoverTrigger_keeps {s t : State} (h : Keeps s t) (a0) : Keeps s (takeoverTrigger a0 t) := by
  unfold takeoverTrigger
  try dsimp only
  with_reducible repeat' first
    | assumption | apply startAttempt_keeps | apply reportDev_keeps | refine Keeps.ite ?_ ?_

theorem takeoverAttemptEnd_keeps {s t : State} (h : Keeps s t) (a0) : Keeps s (takeoverAttemptEnd a0 t) := by
  unfold takeoverAttemptEnd
  try dsimp only
  with_reducible repeat' first
    | assumption | apply endAttempt_keeps | apply raise_keeps | apply State.modGroup_keeps
    | apply epochsRaised_keeps | refine Keeps.ite ?_ ?_ | split

theorem takeoverRetry_keeps {s t : State} (h : Keeps s t) (a0) : Keeps s (takeoverRetry a0 t) := by
  unfold takeoverRetry
  try dsimp only
  with_reducible repeat' first | assumption | apply startAttempt_keeps | refine Keeps.ite ?_ ?_ | split

theorem witnessUnreachable_keeps {s t : State} (h : Keeps s t) (a0) : Keeps s (witnessUnreachable a0 t) := by
  unfold witnessUnreachable
  try dsimp only
  with_reducible repeat' first
    | assumption | apply State.modGroup_keeps | apply raise_keeps | apply setScrimEvt_keeps | refine Keeps.ite ?_ ?_

/-! ### Witness -/

theorem voteRecord_keeps {s t : State} (h : Keeps s t) (a0) : Keeps s (voteRecord a0 t) := by
  unfold voteRecord
  try dsimp only
  with_reducible repeat' first | assumption | apply bbx_keeps

theorem witScrim_keeps {s t : State} (h : Keeps s t) (ty f a b c) (hf : ∀ m u, Keeps s u → Keeps s (f m u).2) :
    Keeps s (witScrim ty f a b c t) := by
  unfold witScrim
  split
  · exact h
  · exact scrimSend_keeps (hf _ _ h) _ _ _ _ _

theorem State.modWit_keeps {s t : State} (h : Keeps s t) (f) : Keeps s (t.modWit f) := h.upd id id (FuseLe.refl _) id id id id id

theorem putEntry_keeps {s t : State} (h : Keeps s t) (a0) : Keeps s (putEntry a0 t) := by
  unfold putEntry
  try dsimp only
  with_reducible repeat' first | assumption | apply State.modWit_keeps

theorem witRegister_keeps {s t : State} (h : Keeps s t) (a0) : Keeps s (witRegister a0 t).2 := by
  unfold witRegister
  try dsimp only
  with_reducible repeat' first
    | assumption | apply putEntry_keeps | apply voteRecord_keeps | apply raise_keeps | refine Keeps.ite ?_ ?_
    | refine Keeps.ite2 ?_ ?_ | split

theorem witRenew_keeps {s t : State} (h : Keeps s t) (a0) : Keeps s (witRenew a0 t).2 := by
  unfold witRenew
  try dsimp only
  with_reducible repeat' first
    | assumption | apply clearDev_keeps | apply putEntry_keeps | refine Keeps.ite2 ?_ ?_ | split

theorem witnessRenewRx_keeps {s t : State} (h : Keeps s t) (a0 a1 a2) : Keeps s (witnessRenewRx a0 a1 a2 t) := by
  unfold witnessRenewRx
  try dsimp only
  with_reducible repeat' first
    | assumption | apply ownerHeard_keeps | apply State.modGroup_keeps | apply witScrim_keeps | apply witRenew_keeps
    | refine Keeps.ite ?_ ?_ | split | intro _

theorem witTakeover_keeps {s t : State} (h : Keeps s t) (a0) : Keeps s (witTakeover a0 t).2 := by
  unfold witTakeover
  try dsimp only
  with_reducible repeat' first
    | assumption | apply voteRecord_keeps | apply putEntry_keeps | apply reportDev_keeps | refine Keeps.ite ?_ ?_
    | refine Keeps.ite2 ?_ ?_ | split

theorem witRelease_keeps {s t : State} (h : Keeps s t) (a0) : Keeps s (witRelease a0 t) := by
  unfold witRelease
  try dsimp only
  with_reducible repeat' first | assumption | apply putEntry_keeps | refine Keeps.ite ?_ ?_ | split

theorem witnessReleaseRx_keeps {s t : State} (h : Keeps s t) (a0) : Keeps s (witnessReleaseRx a0 t) := by
  unfold witnessReleaseRx
  try dsimp only
  with_reducible repeat' first | assumption | apply witRelease_keeps | refine Keeps.ite ?_ ?_

theorem datagram_keeps {s t : State} (h : Keeps s t) (a0 a1 a2 a3) : Keeps s (datagram a0 a1 a2 a3 t) := by
  unfold datagram
  try dsimp only
  with_reducible repeat' first
    | assumption | apply sendMp_keeps | apply witRegister_keeps | apply witRenew_keeps | apply leaseAnswerRx_keeps
    | apply witTakeover_keeps | apply voteRx_keeps | apply witRelease_keeps | apply handoverOfferRx_keeps
    | apply handoverAckRx_keeps | apply handoverCommitRx_keeps | apply handoverCancelRx_keeps
    | apply handoverRequestRx_keeps | split

theorem releaseHoldExpiry_keeps {s t : State} (h : Keeps s t) (a0) : Keeps s (releaseHoldExpiry a0 t) := by
  unfold releaseHoldExpiry
  try dsimp only
  with_reducible repeat' first | assumption | apply putEntry_keeps | refine Keeps.ite ?_ ?_ | split

theorem provisionalMature_keeps {s t : State} (h : Keeps s t) (a0) : Keeps s (provisionalMature a0 t) := by
  unfold provisionalMature
  try dsimp only
  with_reducible repeat' first | assumption | apply putEntry_keeps | refine Keeps.ite ?_ ?_ | split

theorem witnessDatagramRx_keeps {s t : State} (h : Keeps s t) (a0 a1 a2) : Keeps s (witnessDatagramRx a0 a1 a2 t) := by
  unfold witnessDatagramRx
  try dsimp only
  with_reducible repeat' first | assumption | apply State.modWit_keeps | apply datagram_keeps | refine Keeps.ite ?_ ?_

end Sys2Proof.Machine
end

