-- ==== Sys2Proof/Laws/Keeps7.lean ====
section
/-! SUPPORT. What the operations of ScrimFrame, HostConnect, HostIo, HostZones, Net, Skim, HostAdmin keep
(Laws/Keeps.lean): one lemma for each. -/

set_option linter.unusedVariables false

namespace Sys2Proof.Machine

/-! ### ScrimFrame -/

theorem icvFailed_keeps {s t : State} (h : Keeps s t) (a0) : Keeps s (icvFailed a0 t) := by
  unfold icvFailed
  try dsimp only
  with_reducible repeat' first
    | assumption | apply countScrim_keeps | apply State.modAdj_keeps | apply adjDown_keeps | refine Keeps.ite ?_ ?_

theorem consume_keeps {s t : State} (h : Keeps s t) (a0) : Keeps s (consume a0 t) := by
  unfold consume
  try dsimp only
  with_reducible repeat' first
    | assumption | apply jmirrorRx_keeps | apply jackRx_keeps | apply jcopyReqRx_keeps | apply jcopyRx_keeps
    | apply peerReadReq_keeps | apply peerReadRsp_keeps | apply peerHeard_keeps | apply witScrim_keeps
    | apply witRegister_keeps | apply witnessRenewRx_keeps | apply witTakeover_keeps | apply witnessReleaseRx_keeps
    | apply leaseAnswerRx_keeps | apply voteRx_keeps | apply datagram_keeps | apply mbxScrimRequest_keeps
    | apply countScrim_keeps | split | intro _

theorem forward_keeps {s t : State} (h : Keeps s t) (a0) : Keeps s (forward a0 t) := by
  unfold forward
  try dsimp only
  with_reducible repeat' first
    | assumption | apply countScrim_keeps | apply sendOn_keeps | refine Keeps.ite ?_ ?_ | split

theorem route_keeps {s t : State} (h : Keeps s t) (a0 a1) : Keeps s (route a0 a1 t) := by
  unfold route
  try dsimp only
  with_reducible repeat' first
    | assumption | apply countScrim_keeps | apply lsaAckRx_keeps | apply lsaRx_keeps | apply faultReportRx_keeps
    | apply consume_keeps | apply forward_keeps | refine Keeps.ite ?_ ?_

theorem protectedFrame_keeps {s t : State} (h : Keeps s t) (a0 a1) : Keeps s (protectedFrame a0 a1 t) := by
  unfold protectedFrame
  try dsimp only
  with_reducible repeat' first
    | assumption | apply icvFailed_keeps | apply useKey_keeps | apply State.modAdj_keeps | apply route_keeps
    | apply frameCipher_keeps | refine Keeps.ite ?_ ?_ | split

theorem plainFrame_keeps {s t : State} (h : Keeps s t) (a0 a1) : Keeps s (plainFrame a0 a1 t) := by
  unfold plainFrame
  try dsimp only
  with_reducible repeat' first
    | assumption | apply helloRx_keeps | apply keyxInitRx_keeps | apply keyxConfirmRx_keeps | refine Keeps.ite ?_ ?_

theorem scrimAccept_keeps {s t : State} (h : Keeps s t) (a0 a1) : Keeps s (scrimAccept a0 a1 t) := by
  unfold scrimAccept
  try dsimp only
  with_reducible repeat' first
    | assumption | apply State.modAdj_keeps | apply protectedFrame_keeps | apply plainFrame_keeps
    | refine Keeps.ite ?_ ?_ | split

theorem scrimFrameRx_keeps {s t : State} (h : Keeps s t) (a0 a1 a2) : Keeps s (scrimFrameRx a0 a1 a2 t) := by
  unfold scrimFrameRx
  try dsimp only
  with_reducible repeat' first
    | assumption | apply mirrorFrame_keeps | apply netCount_keeps | apply netEvt_keeps | apply scrimAccept_keeps
    | refine Keeps.ite ?_ ?_

/-! ### HostConnect -/

theorem advance_keeps {s t : State} (h : Keeps s t) (a0) : Keeps s (advance a0 t) := by
  unfold advance
  try dsimp only
  with_reducible repeat' first
    | assumption | apply State.modAssoc_keeps | apply State.modSess_keeps | refine Keeps.ite ?_ ?_ | split

theorem arrive_keeps {s t : State} (h : Keeps s t) (run c) (hf : ∀ i u, Keeps s u → Keeps s (run i u)) :
    Keeps s (arrive run c t) := by
  unfold arrive
  split
  · exact h
  · extract_lets s1
    have h1 : Keeps s s1 := by
      simp only [s1]
      split
      · exact State.modAssoc_keeps h _ _
      · exact h
    repeat' first
      | with_reducible exact h1
      | with_reducible exact hf _ _ (advance_keeps h1 _)
      | with_reducible exact State.modHost_keeps h1 _
      | with_reducible exact State.emit_keeps h1 _
      | split

theorem reply_keeps {s t : State} (h : Keeps s t) (a0 a1 a2 a3 a4) : Keeps s (reply a0 a1 a2 a3 a4 t) := by
  unfold reply
  try dsimp only
  with_reducible repeat' first | assumption | apply postCpl_keeps | refine Keeps.ite ?_ ?_

theorem dropCmd_keeps {s t : State} (h : Keeps s t) (a1) : Keeps s (dropCmd t a1) := by
  unfold dropCmd
  try dsimp only
  with_reducible repeat' first
    | assumption | apply State.modCmd_keeps | apply freeCmd_keeps | apply dropFlash_keeps | apply zoneFailed_keeps
    | refine Keeps.ite ?_ ?_

theorem dropTls_keeps {s t : State} (h : Keeps s t) (a0) : Keeps s (dropTls a0 t) := by
  unfold dropTls
  try dsimp only
  with_reducible repeat' first | assumption | apply State.modCiph_keeps

theorem teardown_keeps {s t : State} (h : Keeps s t) (a0) : Keeps s (teardown a0 t) := by
  unfold teardown
  try dsimp only
  with_reducible repeat' first
    | assumption | apply State.modHost_keeps | apply postWrites_keeps | apply dropTls_keeps | apply dropCmd_keeps
    | (refine Keeps.foldl (fun u x hu => ?_) ?_)

theorem teardownAssoc_keeps {s t : State} (h : Keeps s t) (a0) : Keeps s (teardownAssoc a0 t) := by
  unfold teardownAssoc
  try dsimp only
  with_reducible repeat' first
    | assumption | apply dropTls_keeps | apply teardown_keeps | apply State.modHost_keeps
    | (refine Keeps.foldl (fun u x hu => ?_) ?_)

theorem withAssoc_keeps {s t : State} (h : Keeps s t) (c f) (hf : ∀ i u, Keeps s u → Keeps s (f i u)) :
    Keeps s (withAssoc c f t) := by
  unfold withAssoc
  split
  · exact hf _ _ h
  · exact h

theorem refuseConnect_keeps {s t : State} (h : Keeps s t) (a0 a1) : Keeps s (refuseConnect a0 a1 t) := by
  unfold refuseConnect
  try dsimp only
  with_reducible repeat' first
    | assumption | apply State.emit_keeps | apply raise_keeps | apply State.modHost_keeps | refine Keeps.ite ?_ ?_

theorem newTls_keeps {s t : State} (h : Keeps s t) (a0 a1) : Keeps s (newTls a0 a1 t) := by
  unfold newTls
  try dsimp only
  with_reducible repeat' first
    | apply useKey_keeps | apply State.modCiph_keeps | split | exact Keeps.draw (by assumption) _

theorem connectAdmin_keeps {s t : State} (h : Keeps s t) (a0 a1) : Keeps s (connectAdmin a0 a1 t) := by
  unfold connectAdmin
  try dsimp only
  with_reducible repeat' first
    | assumption | apply refuseConnect_keeps | apply State.modHost_keeps | apply answerAdmin_keeps
    | apply newTls_keeps | refine Keeps.ite ?_ ?_ | split

theorem connectIo_keeps {s t : State} (h : Keeps s t) (a0) : Keeps s (connectIo a0 t) := by
  unfold connectIo
  try dsimp only
  with_reducible repeat' first
    | assumption | apply refuseConnect_keeps | apply State.modHost_keeps | apply State.drew_keeps
    | apply postCpl_keeps | apply newTls_keeps | refine Keeps.ite ?_ ?_ | split

theorem connect_keeps {s t : State} (h : Keeps s t) (a0) : Keeps s (connect a0 t) := by
  unfold connect
  try dsimp only
  with_reducible repeat' first
    | assumption | apply State.emit_keeps | apply raise_keeps | apply refuseConnect_keeps | apply connectAdmin_keeps
    | apply connectIo_keeps | refine Keeps.ite ?_ ?_

theorem propertySet_keeps {s t : State} (h : Keeps s t) (a0) : Keeps s (propertySet a0 t) := by
  unfold propertySet
  try dsimp only
  with_reducible repeat' first
    | assumption | apply withAssoc_keeps | apply reply_keeps | apply teardown_keeps | apply State.modAssoc_keeps
    | (refine Keeps.foldl (fun u x hu => ?_) ?_) | split | intro _

theorem propertyGet_keeps {s t : State} (h : Keeps s t) (a0) : Keeps s (propertyGet a0 t) := by
  unfold propertyGet
  try dsimp only
  with_reducible repeat' first
    | assumption | apply withAssoc_keeps | apply reply_keeps | apply State.drew_keeps | split | intro _

theorem disconnect_keeps {s t : State} (h : Keeps s t) (a0) : Keeps s (disconnect a0 t) := by
  unfold disconnect
  try dsimp only
  with_reducible repeat' first
    | assumption | apply reply_keeps | apply teardown_keeps | refine Keeps.ite ?_ ?_ | split

theorem replyData_keeps {s t : State} (h : Keeps s t) (a0 a1 a2) : Keeps s (replyData a0 a1 a2 t) := by
  unfold replyData
  try dsimp only
  with_reducible repeat' first | assumption | apply reply_keeps | apply sendData_keeps | refine Keeps.ite ?_ ?_

theorem katoExpiry_keeps {s t : State} (h : Keeps s t) (a0) : Keeps s (katoExpiry a0 t) := by
  unfold katoExpiry
  try dsimp only
  with_reducible repeat' first | assumption | apply raise_keeps | apply teardownAssoc_keeps | split

theorem transportError_keeps {s t : State} (h : Keeps s t) (a0 a1) : Keeps s (transportError a0 a1 t) := by
  unfold transportError
  try dsimp only
  with_reducible repeat' first
    | assumption | apply teardownAssoc_keeps | apply teardown_keeps | refine Keeps.ite ?_ ?_ | split

/-! ### HostIo -/

theorem withIo_keeps {s t : State} (h : Keeps s t) (c w f) (hf : ∀ i u, Keeps s u → Keeps s (f i u)) :
    Keeps s (withIo c w f t) := by
  unfold withIo
  repeat' first
    | with_reducible exact h
    | with_reducible exact hf _ _ h
    | with_reducible exact reply_keeps h _ _ _ _ _
    | split

theorem addCmd_keeps {s t : State} (h : Keeps s t) (a0) : Keeps s (addCmd a0 t) := by
  unfold addCmd
  try dsimp only
  with_reducible repeat' first | assumption | apply State.modHost_keeps

theorem beginRead_keeps {s t : State} (h : Keeps s t) (a0) : Keeps s (beginRead a0 t) := by
  unfold beginRead
  try dsimp only
  with_reducible repeat' first | assumption | apply runRead_keeps | apply addCmd_keeps

theorem pacedRead_keeps {s t : State} (h : Keeps s t) (a0) : Keeps s (pacedRead a0 t) := by
  unfold pacedRead
  try dsimp only
  with_reducible repeat' first
    | assumption | apply withIo_keeps | apply reply_keeps | apply beginRead_keeps | apply State.modHost_keeps
    | split | intro _

theorem flushNs_keeps {s t : State} (h : Keeps s t) (a0) : Keeps s (flushNs a0 t) := by
  unfold flushNs
  try dsimp only
  with_reducible repeat' first | assumption | apply closeFor_keeps

theorem nvmeFlush_keeps {s t : State} (h : Keeps s t) (a0) : Keeps s (nvmeFlush a0 t) := by
  unfold nvmeFlush
  try dsimp only
  with_reducible repeat' first
    | assumption | apply postWrites_keeps | apply addCmd_keeps | apply flushNs_keeps | apply reply_keeps
    | apply withIo_keeps | refine Keeps.ite ?_ ?_ | (refine Keeps.foldl (fun u x hu => ?_) ?_) | split | intro _

theorem beginWrite_keeps {s t : State} (h : Keeps s t) (a0) : Keeps s (beginWrite a0 t) := by
  unfold beginWrite
  try dsimp only
  with_reducible repeat' first | assumption | apply tryFetch_keeps | apply State.modHost_keeps | apply addCmd_keeps

theorem datasetManagement_keeps {s t : State} (h : Keeps s t) (a0) : Keeps s (datasetManagement a0 t) := by
  unfold datasetManagement
  try dsimp only
  with_reducible repeat' first
    | assumption | apply withIo_keeps | apply reply_keeps | apply State.modNs_keeps | apply beginWrite_keeps | split
    | intro _

theorem zoneChanged_keeps {s t : State} (h : Keeps s t) (a0 a1) : Keeps s (zoneChanged a0 a1 t) := by
  unfold zoneChanged
  try dsimp only
  with_reducible repeat' first | assumption | apply State.modHost_keeps | apply noticeAll_keeps

theorem openForWrite_keeps {s t u : State} (h : Keeps s t) {n z cls} (e : openForWrite n z cls t = .ok u) : Keeps s u := by
  unfold openForWrite at e
  extract_lets zn set put at e
  repeat' split at e
  all_goals first
    | (cases e; done)
    | (injection e with e; rw [← e]; first
        | with_reducible exact h
        | with_reducible exact State.modNs_keeps h _ _
        | with_reducible exact State.modNs_keeps (zoneChanged_keeps (State.modNs_keeps h _ _) _ _) _ _)

theorem zonedWrite_keeps {s t : State} (h : Keeps s t) (c io x z a) : Keeps s (zonedWrite c io x z a t) := by
  unfold zonedWrite
  dsimp only
  refine Keeps.ite (reply_keeps h _ _ _ _ _) (Keeps.ite (reply_keeps h _ _ _ _ _) (Keeps.ite (reply_keeps h _ _ _ _ _) ?_))
  split
  · exact reply_keeps h _ _ _ _ _
  · rename_i e
    exact beginWrite_keeps (State.modNs_keeps (openForWrite_keeps h e) _ _) _

theorem nvmeWrite_keeps {s t : State} (h : Keeps s t) (a0) : Keeps s (nvmeWrite a0 t) := by
  unfold nvmeWrite
  try dsimp only
  with_reducible repeat' first
    | assumption | apply withIo_keeps | apply reply_keeps | apply zonedWrite_keeps | apply beginWrite_keeps | split
    | intro _

theorem nvmeRead_keeps {s t : State} (h : Keeps s t) (a0) : Keeps s (nvmeRead a0 t) := by
  unfold nvmeRead
  try dsimp only
  with_reducible repeat' first
    | assumption | apply withIo_keeps | apply reply_keeps | apply beginRead_keeps | apply State.modHost_keeps
    | split | intro _

theorem writeZeroes_keeps {s t : State} (h : Keeps s t) (a0) : Keeps s (writeZeroes a0 t) := by
  unfold writeZeroes
  try dsimp only
  with_reducible repeat' first
    | assumption | apply withIo_keeps | apply reply_keeps | apply beginWrite_keeps | split | intro _

theorem nvmeVerify_keeps {s t : State} (h : Keeps s t) (a0) : Keeps s (nvmeVerify a0 t) := by
  unfold nvmeVerify
  try dsimp only
  with_reducible repeat' first
    | assumption | apply withIo_keeps | apply reply_keeps | apply beginRead_keeps | split | intro _

theorem zoneAppend_keeps {s t : State} (h : Keeps s t) (a0) : Keeps s (zoneAppend a0 t) := by
  unfold zoneAppend
  try dsimp only
  with_reducible repeat' first
    | assumption | apply withIo_keeps | apply reply_keeps | apply zonedWrite_keeps | split | intro _

theorem gatheredRead_keeps {s t : State} (h : Keeps s t) (a0) : Keeps s (gatheredRead a0 t) := by
  unfold gatheredRead
  try dsimp only
  with_reducible repeat' first
    | assumption | apply reply_keeps | apply beginRead_keeps | apply State.modHost_keeps | refine Keeps.ite ?_ ?_
    | split

theorem pacedChunk_keeps {s t : State} (h : Keeps s t) (a0 a1) : Keeps s (pacedChunk a0 a1 t) := by
  unfold pacedChunk
  try dsimp only
  repeat' first
    | with_reducible assumption | with_reducible apply sendUnit_keeps | with_reducible apply State.modHost_keeps
    | with_reducible apply sendData_keeps | with_reducible apply State.modFlash_keeps
    | with_reducible apply State.modCmd_keeps | exact id | with_reducible refine Keeps.ite ?_ ?_ | split

theorem pacedBytes_keeps {s t : State} (h : Keeps s t) (c f n) : Keeps s (pacedBytes c f n t) := by
  induction f generalizing t n with
  | zero => exact h
  | succ f ih =>
    unfold pacedBytes
    split
    · exact h
    · extract_lets u
      split
      · exact h
      · exact ih (pacedChunk_keeps h _ _) _

theorem pacedFrameSend_keeps {s t : State} (h : Keeps s t) (a0 a1 a2) : Keeps s (pacedFrameSend a0 a1 a2 t) := by
  unfold pacedFrameSend
  try dsimp only
  with_reducible repeat' first
    | assumption | apply runRead_keeps | apply failCmd_keeps | apply State.modSess_keeps | apply pacedBytes_keeps
    | apply complete_keeps | refine Keeps.ite ?_ ?_ | split

/-! ### HostZones -/

theorem closeZone_keeps {s t u : State} (h : Keeps s t) {n z} (e : closeZone n z t = .ok u) : Keeps s u := by
  unfold closeZone at e
  repeat' split at e
  all_goals first
    | (cases e; done)
    | (injection e with e; rw [← e]; first | with_reducible exact h | with_reducible exact State.modNs_keeps h _ _)

theorem journalZone_keeps {s t : State} (h : Keeps s t) (a0 a1 a2 a3) : Keeps s (journalZone a0 a1 a2 a3 t) := by
  unfold journalZone
  try dsimp only
  with_reducible repeat' first | assumption | apply State.modCmd_keeps | apply journal_keeps | split

theorem finishZone_keeps {s t : State} (h : Keeps s t) (a0 a1 a2) : Keeps s (finishZone a0 a1 a2 t) := by
  unfold finishZone
  try dsimp only
  with_reducible repeat' first | assumption | apply journalZone_keeps | apply State.modNs_keeps

theorem openZone_keeps {s t u : State} (h : Keeps s t) {n z} (e : openZone n z t = .ok u) : Keeps s u := by
  unfold openZone at e
  dsimp only at e
  repeat' split at e
  all_goals first
    | (cases e; done)
    | (injection e with e; rw [← e]; first | with_reducible exact h | with_reducible exact State.modNs_keeps h _ _)

theorem dropZone_keeps {s t : State} (h : Keeps s t) (a0 a1) : Keeps s (dropZone a0 a1 t) := by
  unfold dropZone
  try dsimp only
  with_reducible repeat' first
    | assumption | apply addValid_keeps | apply unlose_keeps | apply purgeHawk_keeps | apply State.modNs_keeps
    | (refine Keeps.foldl (fun u x hu => ?_) ?_) | split

theorem resetZone_keeps {s t : State} (h : Keeps s t) (a0 a1 a2) : Keeps s (resetZone a0 a1 a2 t) := by
  unfold resetZone
  try dsimp only
  with_reducible repeat' first | assumption | apply journalZone_keeps | apply dropZone_keeps

theorem zoneAct_keeps {s t u : State} (h : Keeps s t) {c n a z} (e : zoneAct c n a z t = .ok u) : Keeps s u := by
  unfold zoneAct at e
  split at e
  · cases e
  · extract_lets st at e
    split at e
    · exact closeZone_keeps h e
    · split at e
      · injection e with e; rw [← e]; split
        · exact h
        · exact finishZone_keeps h _ _ _
      · split at e
        · exact openZone_keeps h e
        · injection e with e; rw [← e]; split
          · exact h
          · exact resetZone_keeps h _ _ _

theorem zoneActs_keeps {s t u : State} (h : Keeps s t) {c n a zs} (e : zoneActs c n a zs t = .ok u) : Keeps s u := by
  induction zs generalizing t with
  | nil => injection e with e; exact e ▸ h
  | cons z zs ih =>
    unfold zoneActs at e
    split at e
    · rename_i e1; exact ih (zoneAct_keeps h e1) e
    · cases e

theorem tryZone_keeps {s t : State} (h : Keeps s t) (a0) : Keeps s (tryZone a0 t) := by
  unfold tryZone
  split
  · exact h
  · split
    · exact h
    · split
      · exact h
      · extract_lets zs busy need
        split
        · exact h
        · split
          · exact State.modCmd_keeps h _ _
          · split
            · exact failCmd_keeps h _ _ _ _
            · rename_i e; exact postWrites_keeps (poolCheck_keeps (State.modCmd_keeps (zoneActs_keeps h e) _ _))

theorem zoneMgmtSend_keeps {s t : State} (h : Keeps s t) (a0) : Keeps s (zoneMgmtSend a0 t) := by
  unfold zoneMgmtSend
  try dsimp only
  with_reducible repeat' first
    | assumption | apply withIo_keeps | apply reply_keeps | apply tryZone_keeps | apply addCmd_keeps | split
    | intro _

theorem zoneMgmtReceive_keeps {s t : State} (h : Keeps s t) (a0) : Keeps s (zoneMgmtReceive a0 t) := by
  unfold zoneMgmtReceive
  try dsimp only
  with_reducible repeat' first
    | assumption | apply withIo_keeps | apply reply_keeps | apply sendData_keeps | apply State.drew_keeps | split
    | intro _

theorem resumeCmd_keeps {s t : State} (h : Keeps s t) (a0) : Keeps s (resumeCmd a0 t) := by
  unfold resumeCmd
  try dsimp only
  with_reducible repeat' first
    | assumption | apply tryZone_keeps | apply tryFetch_keeps | refine Keeps.ite ?_ ?_ | split

theorem releaseOldest_keeps {s t : State} (h : Keeps s t) (p) : Keeps s (releaseOldest p t) := by
  unfold releaseOldest
  extract_lets held
  split
  · rename_i e
    obtain ⟨x, _, hx⟩ := List.exists_of_findSome?_eq_some e
    have h1 := resumeCmd_keeps h x.num
    revert hx
    dsimp only
    repeat' first
      | (intro hx; injection hx with hx; rw [← hx]; exact h1)
      | (intro hx; cases hx)
      | split
  · exact h

theorem overlapWriteRelease_keeps {s t : State} (h : Keeps s t) : Keeps s (overlapWriteRelease t) := by
  unfold overlapWriteRelease
  try dsimp only
  with_reducible repeat' first | assumption | apply releaseOldest_keeps

theorem writeFetchResume_keeps {s t : State} (h : Keeps s t) : Keeps s (writeFetchResume t) := by
  unfold writeFetchResume
  try dsimp only
  with_reducible repeat' first | assumption | apply releaseOldest_keeps

/-! ### Net -/

theorem clearQueues_keeps {s t : State} (h : Keeps s t) (a0 a1) : Keeps s (clearQueues a0 a1 t) := by
  unfold clearQueues
  try dsimp only
  repeat' first
    | with_reducible assumption | with_reducible apply pfcStates_keeps | with_reducible apply State.modNet_keeps
    | exact id

theorem subportDown_keeps {s t : State} (h : Keeps s t) (a0 a1) : Keeps s (subportDown a0 a1 t) := by
  unfold subportDown
  try dsimp only
  with_reducible repeat' first
    | assumption | apply State.modSub_keeps | apply netEvt_keeps | apply clearQueues_keeps | apply teardown_keeps
    | apply teardownAssoc_keeps | apply jmirrorRetry_keeps | apply adjDown_keeps | apply raise_keeps
    | refine Keeps.ite ?_ ?_ | (refine Keeps.foldl (fun u x hu => ?_) ?_)

theorem netPortEnable_keeps {s t : State} (h : Keeps s t) (a0 a1) : Keeps s (netPortEnable a0 a1 t) := by
  unfold netPortEnable
  try dsimp only
  with_reducible repeat' first
    | assumption | apply discoveryChanged_keeps | apply State.emit_keeps | apply State.modPort_keeps
    | apply subportDown_keeps | refine Keeps.ite ?_ ?_ | (refine Keeps.foldl (fun u x hu => ?_) ?_)

theorem mirrorReset_keeps {s t : State} (h : Keeps s t) : Keeps s (mirrorReset t) := by
  unfold mirrorReset
  try dsimp only
  repeat' first | with_reducible assumption | with_reducible apply State.modNet_keeps | exact id

theorem pfcPauseExpiry_keeps {s t : State} (h : Keeps s t) (a0 a1 a2) : Keeps s (pfcPauseExpiry a0 a1 a2 t) := by
  unfold pfcPauseExpiry
  try dsimp only
  with_reducible repeat' first | assumption | apply refreshSched_keeps | apply State.modSub_keeps

theorem policeAssoc_keeps {s t : State} (h : Keeps s t) (a0 a1) : Keeps s (policeAssoc a0 a1 t).2 := by
  unfold policeAssoc
  try dsimp only
  repeat' first
    | with_reducible assumption | with_reducible apply State.modNet_keeps | exact id
    | with_reducible refine Keeps.ite2 ?_ ?_ | split

theorem policeFree_keeps {s t : State} (h : Keeps s t) (a0 a1 a2) : Keeps s (policeFree a0 a1 a2 t).2 := by
  unfold policeFree
  try dsimp only
  with_reducible repeat' first | assumption | apply State.modSub_keeps

theorem tellRed_keeps {s t : State} (h : Keeps s t) (a0 a1) : Keeps s (tellRed a0 a1 t) := by
  unfold tellRed
  try dsimp only
  repeat' first
    | with_reducible assumption | with_reducible apply raise_keeps | with_reducible apply State.modNet_keeps
    | exact id | with_reducible refine Keeps.ite ?_ ?_ | split

theorem admitRx_keeps {s t : State} (h : Keeps s t) (a0 a1 a2 a3) : Keeps s (admitRx a0 a1 a2 a3 t) := by
  unfold admitRx
  try dsimp only
  with_reducible repeat' first
    | assumption | apply mirrorFrame_keeps | apply netCount_keeps | apply pfcStates_keeps | apply joinQueue_keeps
    | apply tellBufDrop_keeps | apply netEvt_keeps | refine Keeps.ite ?_ ?_ | split

theorem acceptRx_keeps {s t : State} (h : Keeps s t) (a0 a1) : Keeps s (acceptRx a0 a1 t) := by
  unfold acceptRx
  try dsimp only
  with_reducible repeat' first
    | assumption | apply policeAssoc_keeps | apply policeFree_keeps | apply mirrorFrame_keeps | apply netCount_keeps
    | apply tellRed_keeps | apply netEvt_keeps | apply admitRx_keeps | refine Keeps.ite ?_ ?_ | split

theorem hostFrameRx_keeps {s t : State} (h : Keeps s t) (a0) : Keeps s (hostFrameRx a0 t) := by
  unfold hostFrameRx
  try dsimp only
  with_reducible repeat' first
    | assumption | apply netCount_keeps | apply mirrorFrame_keeps | apply netEvt_keeps | apply acceptRx_keeps
    | refine Keeps.ite ?_ ?_ | split

theorem pfcFrameRx_keeps {s t : State} (h : Keeps s t) (a0 a1 a2 a3) : Keeps s (pfcFrameRx a0 a1 a2 a3 t) := by
  unfold pfcFrameRx
  try dsimp only
  with_reducible repeat' first
    | assumption | apply netCount_keeps | apply State.modSub_keeps | apply refreshSched_keeps
    | refine Keeps.ite ?_ ?_ | (refine Keeps.foldl (fun u x hu => ?_) ?_)

theorem pfcWatchdog_keeps {s t : State} (h : Keeps s t) (a0 a1 a2) : Keeps s (pfcWatchdog a0 a1 a2 t) := by
  unfold pfcWatchdog
  try dsimp only
  repeat' first
    | with_reducible assumption | with_reducible apply State.modSub_keeps | with_reducible apply State.modNet_keeps
    | with_reducible apply raise_keeps | with_reducible apply netEvt_keeps | with_reducible apply pfcStates_keeps
    | with_reducible apply refreshSched_keeps | exact id | with_reducible refine Keeps.ite ?_ ?_

theorem subportUp_keeps {s t : State} (h : Keeps s t) (a0 a1) : Keeps s (subportUp a0 a1 t) := by
  unfold subportUp
  try dsimp only
  with_reducible repeat' first
    | assumption | apply raise_keeps | apply netEvt_keeps | apply State.modSub_keeps | refine Keeps.ite ?_ ?_

theorem sendFrame_keeps {s t : State} (h : Keeps s t) (a0 a1 a2 a3 a4) : Keeps s (sendFrame a0 a1 a2 a3 a4 t) := by
  unfold sendFrame
  try dsimp only
  repeat' first
    | with_reducible assumption | with_reducible apply State.modNet_keeps | with_reducible apply State.drew_keeps
    | with_reducible apply netCount_keeps | with_reducible apply mirrorFrame_keeps
    | with_reducible apply pfcStates_keeps | with_reducible apply State.emit_keeps | exact id
    | with_reducible refine Keeps.ite ?_ ?_

theorem portSelect_keeps {s t : State} (h : Keeps s t) (a0 a1) : Keeps s (portSelect a0 a1 t) := by
  unfold portSelect
  try dsimp only
  repeat' first
    | with_reducible assumption | with_reducible apply refreshSched_keeps | with_reducible apply sendFrame_keeps
    | with_reducible apply State.modNet_keeps | exact id | with_reducible refine Keeps.ite ?_ ?_ | split

theorem admitHeld_keeps {s t : State} (h : Keeps s t) (a0) : Keeps s (admitHeld a0 t) := by
  unfold admitHeld
  try dsimp only
  repeat' first
    | with_reducible assumption | with_reducible apply State.modNet_keeps | with_reducible apply joinQueue_keeps
    | exact id | with_reducible refine Keeps.ite ?_ ?_ | (with_reducible refine Keeps.foldl (fun u x hu => ?_) ?_)
    | split

theorem internalFrameAdmit_keeps {s t : State} (h : Keeps s t) (a0) : Keeps s (internalFrameAdmit a0 t) := by
  unfold internalFrameAdmit
  try dsimp only
  with_reducible repeat' first | assumption | apply pfcStates_keeps | apply admitHeld_keeps | refine Keeps.ite ?_ ?_

theorem cnpRx_keeps {s t : State} (h : Keeps s t) (a0 a1) : Keeps s (cnpRx a0 a1 t) := by
  unfold cnpRx
  try dsimp only
  repeat' first
    | with_reducible assumption | with_reducible apply netCount_keeps | with_reducible apply State.modNet_keeps
    | exact id | with_reducible refine Keeps.ite ?_ ?_ | split

theorem cnpRecover_keeps {s t : State} (h : Keeps s t) (a0 a1) : Keeps s (cnpRecover a0 a1 t) := by
  unfold cnpRecover
  try dsimp only
  repeat' first
    | with_reducible assumption | with_reducible apply State.modNet_keeps | exact id
    | with_reducible refine Keeps.ite ?_ ?_ | split

theorem pfcWatchdogRecover_keeps {s t : State} (h : Keeps s t) (a0 a1 a2) : Keeps s (pfcWatchdogRecover a0 a1 a2 t) := by
  unfold pfcWatchdogRecover
  try dsimp only
  with_reducible repeat' first | assumption | apply State.modSub_keeps

theorem transportRetransmit_keeps {s t : State} (h : Keeps s t) (a0 a1) : Keeps s (transportRetransmit a0 a1 t) := by
  unfold transportRetransmit
  try dsimp only
  with_reducible repeat' first | assumption | apply State.emit_keeps | refine Keeps.ite ?_ ?_

/-! ### Skim -/

theorem skimEnd_keeps {s t : State} (h : Keeps s t) : Keeps s (skimEnd t) := by
  unfold skimEnd
  try dsimp only
  repeat' first
    | with_reducible assumption | with_reducible apply raise_keeps | with_reducible apply State.modFlash_keeps
    | exact id | with_reducible refine Keeps.ite ?_ ?_

theorem readTag_keeps {s t : State} (h : Keeps s t) (a0 a1 a2 a4) : Keeps s (readTag a0 a1 a2 t a4) := by
  unfold readTag
  try dsimp only
  with_reducible repeat' first | assumption | apply requestBuf_keeps

theorem skimStripe_keeps {s t : State} (h : Keeps s t) (a1) : Keeps s (skimStripe t a1) := by
  unfold skimStripe
  try dsimp only
  with_reducible repeat' first
    | assumption | apply requestBuf_keeps | apply State.modGroup_keeps | apply readTag_keeps
    | refine Keeps.ite ?_ ?_ | (refine Keeps.foldl (fun u x hu => ?_) ?_)

theorem skimTake_keeps {s t : State} (h : Keeps s t) (a0) : Keeps s (skimTake a0 t) := by
  unfold skimTake
  try dsimp only
  repeat' first
    | with_reducible assumption | with_reducible apply skimEnd_keeps | with_reducible apply skimStripe_keeps
    | with_reducible apply State.modFlash_keeps | exact id
    | (with_reducible refine Keeps.foldl (fun u x hu => ?_) ?_)

theorem skimFrame_keeps {s t : State} (h : Keeps s t) : Keeps s (skimFrame t) := by
  unfold skimFrame
  dsimp only
  refine Keeps.ite h (skimTake_keeps (Keeps.ite ?_ ?_) _)
  · exact raise_keeps (State.modFlash_keeps (State.modFlash_keeps h _ id) _ id) _ _ _ _
  · exact State.modFlash_keeps h _ id

theorem skimAbandon_keeps {s t : State} (h : Keeps s t) : Keeps s (skimAbandon t) :=
  Keeps.upd (State.modFlash_keeps h _ id) id id (FuseLe.refl _) (fun e => by simpa [State.modFlash] using e) id id id id

theorem skimPassStart_keeps {s t : State} (h : Keeps s t) : Keeps s (skimPassStart t) := by
  unfold skimPassStart
  try dsimp only
  repeat' first
    | with_reducible assumption | with_reducible apply State.modFlash_keeps | exact id
    | with_reducible refine Keeps.ite ?_ ?_

theorem skimLose_keeps {s t : State} (h : Keeps s t) (a0 a1 a2 a4) : Keeps s (skimLose a0 a1 a2 t a4) := by
  unfold skimLose
  try dsimp only
  with_reducible repeat' first | assumption | apply loseUnit_keeps | refine Keeps.ite ?_ ?_ | split

theorem tellRepair_keeps {s t : State} (h : Keeps s t) (a0) : Keeps s (tellRepair a0 t) := by
  unfold tellRepair
  try dsimp only
  with_reducible repeat' first | assumption | apply raise_keeps | apply State.modGroup_keeps | refine Keeps.ite ?_ ?_

theorem skimOutcome_keeps {s t : State} (h : Keeps s t) (a0 a1 a3) : Keeps s (skimOutcome a0 a1 t a3) := by
  unfold skimOutcome
  try dsimp only
  with_reducible repeat' first
    | assumption | apply State.modCtrs_keeps | apply tellLost_keeps | apply skimLose_keeps | apply tellRepair_keeps
    | refine Keeps.ite ?_ ?_ | (refine Keeps.foldl (fun u x hu => ?_) ?_) | split

theorem skimStripeCompare_keeps {s t : State} (h : Keeps s t) (a0 a1 a2) : Keeps s (skimStripeCompare a0 a1 a2 t) := by
  unfold skimStripeCompare
  try dsimp only
  with_reducible repeat' first
    | assumption | apply State.modGroup_keeps | apply skimEnd_keeps | apply State.modCtrs_keeps
    | apply readTag_keeps | apply skimResult_keeps | apply skimOutcome_keeps | apply relocateWith_keeps
    | refine Keeps.ite ?_ ?_ | (refine Keeps.foldl (fun u x hu => ?_) ?_) | split

theorem spareDelayExpiry_keeps {s t : State} (h : Keeps s t) (a0 a1) : Keeps s (spareDelayExpiry a0 a1 t) := by
  unfold spareDelayExpiry
  try dsimp only
  with_reducible repeat' first
    | assumption | apply takeSpares_keeps | apply State.modGroup_keeps | refine Keeps.ite ?_ ?_

theorem returnWindowExpiry_keeps {s t : State} (h : Keeps s t) (a0 a1) : Keeps s (returnWindowExpiry a0 a1 t) := by
  unfold returnWindowExpiry
  try dsimp only
  with_reducible repeat' first | assumption | apply State.modGroup_keeps | refine Keeps.ite ?_ ?_

theorem rebuildBandDone_keeps {s t : State} (h : Keeps s t) (a0 a1) : Keeps s (rebuildBandDone a0 a1 t) := by
  unfold rebuildBandDone
  try dsimp only
  with_reducible repeat' first
    | assumption | apply journal_keeps | apply State.modGroup_keeps | apply raise_keeps | apply journalMember_keeps
    | apply spaceCheck_keeps | apply noticeGroup_keeps | apply refreshHealth_keeps | apply nextBands_keeps
    | refine Keeps.ite ?_ ?_ | split

/-! ### HostAdmin -/

theorem admin_keeps {s t : State} (h : Keeps s t) (c f) (hf : ∀ i u, Keeps s u → Keeps s (f i u)) :
    Keeps s (admin c f t) := by
  unfold admin
  refine withAssoc_keeps h _ _ fun a u hu => ?_
  repeat' first
    | with_reducible exact hf _ _ hu
    | with_reducible exact reply_keeps hu _ _ _ _ _
    | split

theorem directiveSend_keeps {s t : State} (h : Keeps s t) (a0) : Keeps s (directiveSend a0 t) := by
  unfold directiveSend
  try dsimp only
  with_reducible repeat' first
    | assumption | apply admin_keeps | apply reply_keeps | apply State.modAssoc_keeps | split | intro _

theorem unsupportedCommand_keeps {s t : State} (h : Keeps s t) (a0) : Keeps s (unsupportedCommand a0 t) := by
  unfold unsupportedCommand
  try dsimp only
  with_reducible repeat' first | assumption | apply reply_keeps

theorem lostRead_keeps {s t : State} (h : Keeps s t) (a0 a1) : Keeps s (lostRead a0 a1 t) := by
  unfold lostRead
  try dsimp only
  with_reducible repeat' first | assumption | apply State.modAssoc_keeps

theorem getLogPage_keeps {s t : State} (h : Keeps s t) (c) : Keeps s (getLogPage c t) := by
  unfold getLogPage
  refine admin_keeps h _ _ fun a u hu => ?_
  extract_lets lid rae send withNs
  clear_value lid rae
  have hs : ∀ p v, Keeps s v → Keeps s (send p v) := fun p v hv => replyData_keeps hv _ _ _
  have hn : ∀ f v, (∀ n w, Keeps s w → Keeps s (f n w)) → Keeps s v → Keeps s (withNs f v) := by
    intro f v hf hv
    simp only [withNs]
    split
    · exact hf _ _ hv
    · exact reply_keeps hv _ _ _ _ _
  have hm : ∀ {v : State} f, Keeps s v → Keeps s (if rae then v else v.modAssoc a.num f) := by
    intro v f hv; split
    · exact hv
    · exact State.modAssoc_keeps hv _ _
  clear_value send withNs
  refine Keeps.ite (hs _ _ hu) (Keeps.ite (Keeps.ite (reply_keeps hu _ _ _ _ _) (hs _ _ (State.drew_keeps hu))) (Keeps.ite ?_
    (Keeps.ite (hs _ _ hu) (Keeps.ite (hs _ _ hu) (Keeps.ite ?_ (Keeps.ite (hs _ _ (State.drew_keeps hu))
      (Keeps.ite ?_ (reply_keeps hu _ _ _ _ _))))))))
  · exact hs _ _ (hm _ hu)
  · exact hn _ _ (fun n w hw => Keeps.ite (reply_keeps hw _ _ _ _ _) (hs _ _ (hm _ hw))) hu
  · refine hn _ _ (fun n w hw => hs _ _ ?_) hu
    split
    · exact hw
    · exact lostRead_keeps hw _ _

theorem nvmeIdentify_keeps {s t : State} (h : Keeps s t) (c) : Keeps s (nvmeIdentify c t) := by
  unfold nvmeIdentify
  refine admin_keeps h _ _ fun a u hu => ?_
  extract_lets cns csi withNs send csOk
  have hs : ∀ b w, Keeps s w → Keeps s (send b w) := fun b w hw => replyData_keeps (State.drew_keeps hw) _ _ _
  have hn : ∀ f w, (∀ n v, Keeps s v → Keeps s (f n v)) → Keeps s w → Keeps s (withNs f w) := by
    intro f w hf hw
    simp only [withNs]
    split
    · exact hf _ _ hw
    · exact reply_keeps hw _ _ _ _ _
  clear_value send withNs
  repeat' first
    | with_reducible exact hs _ _ hu
    | with_reducible exact reply_keeps hu _ _ _ _ _
    | with_reducible exact hn _ _ (fun n v hv => hs _ _ hv) hu
    | with_reducible refine Keeps.ite ?_ ?_
  refine hn _ _ (fun n v hv => ?_) hu
  repeat' first
    | with_reducible exact hs _ _ hv
    | with_reducible exact reply_keeps hv _ _ _ _ _
    | with_reducible refine Keeps.ite ?_ ?_

theorem nextPaced_keeps {s t : State} (h : Keeps s t) (a0) : Keeps s (nextPaced a0 t) := by
  unfold nextPaced
  try dsimp only
  with_reducible repeat' first | assumption | apply runRead_keeps | split

theorem nvmeAbort_keeps {s t : State} (h : Keeps s t) (a0) : Keeps s (nvmeAbort a0 t) := by
  unfold nvmeAbort
  try dsimp only
  with_reducible repeat' first
    | assumption | apply admin_keeps | apply State.modAssoc_keeps | apply reply_keeps | apply answerAdmin_keeps
    | apply failCmd_keeps | apply nextPaced_keeps | split | intro _

theorem setProtect_keeps {s t : State} (h : Keeps s t) (a0 a1) : Keeps s (setProtect a0 a1 t) := by
  unfold setProtect
  try dsimp only
  with_reducible repeat' first
    | assumption | apply reply_keeps | apply mirrorNs_keeps | apply State.modNs_keeps | apply nsChanged_keeps
    | refine Keeps.ite ?_ ?_ | split

theorem putPolicy_keeps {s t : State} (h : Keeps s t) (a0 a2) : Keeps s (putPolicy a0 t a2) := by
  unfold putPolicy
  try dsimp only
  with_reducible repeat' first | assumption | apply State.modSess_keeps

theorem setPolicy_keeps {s t : State} (h : Keeps s t) (a0 a1) : Keeps s (setPolicy a0 a1 t) := by
  unfold setPolicy
  try dsimp only
  with_reducible repeat' first
    | assumption | apply reply_keeps | apply putPolicy_keeps | apply State.modAssoc_keeps | refine Keeps.ite ?_ ?_
    | (refine Keeps.foldl (fun u x hu => ?_) ?_)

theorem setFeatures_keeps {s t : State} (h : Keeps s t) (a0) : Keeps s (setFeatures a0 t) := by
  unfold setFeatures
  try dsimp only
  with_reducible repeat' first
    | assumption | apply admin_keeps | apply reply_keeps | apply State.modAssoc_keeps | apply setProtect_keeps
    | apply setPolicy_keeps | split | intro _

theorem getFeatures_keeps {s t : State} (h : Keeps s t) (a0) : Keeps s (getFeatures a0 t) := by
  unfold getFeatures
  try dsimp only
  with_reducible repeat' first
    | assumption | apply admin_keeps | apply reply_keeps | apply replyData_keeps | split | intro _

theorem asyncEventRequest_keeps {s t : State} (h : Keeps s t) (a0) : Keeps s (asyncEventRequest a0 t) := by
  unfold asyncEventRequest
  try dsimp only
  with_reducible repeat' first
    | assumption | apply admin_keeps | apply reply_keeps | apply State.modAssoc_keeps | split | intro _

theorem keepAlive_keeps {s t : State} (h : Keeps s t) (a0) : Keeps s (keepAlive a0 t) := by
  unfold keepAlive
  try dsimp only
  with_reducible repeat' first | assumption | apply admin_keeps | apply reply_keeps | intro _

theorem directiveReceive_keeps {s t : State} (h : Keeps s t) (a0) : Keeps s (directiveReceive a0 t) := by
  unfold directiveReceive
  try dsimp only
  with_reducible repeat' first
    | assumption | apply admin_keeps | apply reply_keeps | apply replyData_keeps | apply State.drew_keeps | split
    | intro _

theorem runAdmin_keeps {s t : State} (h : Keeps s t) (a0) : Keeps s (runAdmin a0 t) := by
  unfold runAdmin
  try dsimp only
  with_reducible repeat' first
    | assumption | apply propertySet_keeps | apply propertyGet_keeps | apply disconnect_keeps
    | apply unsupportedCommand_keeps | apply getLogPage_keeps | apply nvmeIdentify_keeps | apply nvmeAbort_keeps
    | apply setFeatures_keeps | apply getFeatures_keeps | apply asyncEventRequest_keeps | apply keepAlive_keeps
    | apply directiveSend_keeps | apply directiveReceive_keeps | refine Keeps.ite ?_ ?_

theorem runIo_keeps {s t : State} (h : Keeps s t) (a0) : Keeps s (runIo a0 t) := by
  unfold runIo
  try dsimp only
  with_reducible repeat' first
    | assumption | apply nvmeFlush_keeps | apply nvmeWrite_keeps | apply nvmeRead_keeps | apply writeZeroes_keeps
    | apply datasetManagement_keeps | apply nvmeVerify_keeps | apply zoneMgmtSend_keeps
    | apply zoneMgmtReceive_keeps | apply zoneAppend_keeps | apply disconnect_keeps | apply gatheredRead_keeps
    | apply pacedRead_keeps | apply unsupportedCommand_keeps | refine Keeps.ite ?_ ?_

theorem capsuleReserveAdmit_keeps {s t : State} (h : Keeps s t) : Keeps s (capsuleReserveAdmit t) := by
  unfold capsuleReserveAdmit
  try dsimp only
  with_reducible repeat' first
    | assumption | apply advance_keeps | apply State.modHost_keeps | apply runAdmin_keeps | apply runIo_keeps
    | refine Keeps.ite ?_ ?_ | split

end Sys2Proof.Machine
end

