-- ==== Sys2Proof/Laws/Keeps8.lean ====
section
/-! SUPPORT. What the operations of KeyOps, SysCmds, NsCmds, GroupCmds, ParamRules, ParamCmds, Firmware, Modes keep
(Laws/Keeps.lean): one lemma for each. -/

set_option linter.unusedVariables false

namespace Sys2Proof.Machine

/-! ### KeyOps -/

theorem rootKeyFault_keeps {s t : State} (h : Keeps s t) : Keeps s (rootKeyFault t) := by
  unfold rootKeyFault
  try dsimp only
  repeat' first
    | with_reducible assumption | with_reducible apply State.modFuse_keeps
    | with_reducible apply State.modCiph_keeps | with_reducible apply enterContained_keeps
    | with_reducible apply raise_keeps | exact FuseLe.refl _ | with_reducible refine Keeps.ite ?_ ?_

theorem entropyFail_keeps {s t : State} (h : Keeps s t) : Keeps s (entropyFail t) := by
  unfold entropyFail
  try dsimp only
  with_reducible repeat' first | assumption | apply raise_keeps | apply State.modCiph_keeps | refine Keeps.ite ?_ ?_

theorem entropyRecover_keeps {s t : State} (h : Keeps s t) : Keeps s (entropyRecover t) := by
  unfold entropyRecover
  try dsimp only
  with_reducible repeat' first | assumption | apply State.modCiph_keeps | refine Keeps.ite ?_ ?_

theorem tlsRecordRx_keeps {s t : State} (h : Keeps s t) (a0 a1 a2) : Keeps s (tlsRecordRx a0 a1 a2 t) := by
  unfold tlsRecordRx
  try dsimp only
  with_reducible repeat' first
    | assumption | apply State.modCiph_keeps | apply cipherWork_keeps | apply useKey_keeps | apply State.drew_keeps
    | apply State.emit_keeps | apply transportError_keeps | refine Keeps.ite ?_ ?_ | split

theorem tlsKeyUpdate_keeps {s t : State} (h : Keeps s t) (a0 a1 a2) : Keeps s (tlsKeyUpdate a0 a1 a2 t) := by
  unfold tlsKeyUpdate
  try dsimp only
  with_reducible repeat' first
    | assumption | apply State.modCiph_keeps | apply useKey_keeps | split | exact Keeps.draw (by assumption) _

theorem eraseNs_keeps {s t : State} (h : Keeps s t) (a0) : Keeps s (eraseNs a0 t) := by
  unfold eraseNs
  try dsimp only
  with_reducible repeat' first
    | assumption | apply dropZone_keeps | apply journal_keeps | apply unmapUnits_keeps | refine Keeps.ite ?_ ?_
    | (refine Keeps.foldl (fun u x hu => ?_) ?_)

theorem genRetire_keeps {s t : State} (h : Keeps s t) (a0 a1) : Keeps s (genRetire a0 a1 t) := by
  unfold genRetire
  try dsimp only
  with_reducible repeat' first
    | assumption | apply eraseNs_keeps | apply purgeHawk_keeps | apply setLabel_keeps | apply raise_keeps
    | apply mirrorNs_keeps | apply State.modNs_keeps | split

theorem labelWrite_keeps {s t : State} (h : Keeps s t) (a0) : Keeps s (labelWrite a0 t).2 := by
  unfold labelWrite
  try dsimp only
  with_reducible repeat' first
    | assumption | apply setLabel_keeps | apply purgeHawk_keeps | apply mirrorNs_keeps | refine Keeps.ite ?_ ?_
    | refine Keeps.ite2 ?_ ?_

theorem genAdvance_keeps {s t : State} (h : Keeps s t) (a0) : Keeps s (genAdvance a0 t).2 := by
  unfold genAdvance
  try dsimp only
  with_reducible repeat' first
    | assumption | apply startJob_keeps | apply State.modNs_keeps | refine Keeps.ite2 ?_ ?_ | split | intro _

theorem pskExport_keeps {s t : State} (h : Keeps s t) (a0 a1) : Keeps s (pskExport a0 a1 t).2 := by
  unfold pskExport
  try dsimp only
  with_reducible repeat' first
    | assumption | apply bbx_keeps | apply State.drew_keeps | apply raise_keeps | apply useKey_keeps
    | refine Keeps.ite2 ?_ ?_ | split

/-! ### SysCmds -/

theorem netAddr_keeps {s t : State} (h : Keeps s t) (a0) : Keeps s (netAddr a0 t).2 := by
  unfold netAddr
  try dsimp only
  with_reducible repeat' first
    | assumption | apply State.modSub_keeps | apply discoveryChanged_keeps | refine Keeps.ite2 ?_ ?_

theorem resetFor_keeps {s t : State} (h : Keeps s t) (a0 a1) : Keeps s (resetFor a0 a1 t) := by
  unfold resetFor
  try dsimp only
  with_reducible repeat' first
    | assumption | apply leaveStart_keeps | apply State.modMode_keeps | apply dataDieReset_keeps
    | refine Keeps.ite ?_ ?_

theorem resetCmd_keeps {s t : State} (h : Keeps s t) (a0) : Keeps s (resetCmd a0 t) := by
  unfold resetCmd
  try dsimp only
  repeat' first
    | with_reducible assumption | with_reducible apply serveThen_keeps | with_reducible apply resetFor_keeps | split
    | exact fun e => by simpa using e | intro _

theorem credential_keeps {s t : State} (h : Keeps s t) (a0 a1) : Keeps s (credential a0 a1 t).2 := by
  unfold credential
  try dsimp only
  with_reducible repeat' first | assumption | apply State.modChan_keeps | refine Keeps.ite2 ?_ ?_

theorem eventWait_keeps {s t : State} (h : Keeps s t) (a0 a1) : Keeps s (eventWait a0 a1 t).2 := by
  unfold eventWait
  try dsimp only
  with_reducible repeat' first
    | assumption | apply State.modChan_keeps | apply State.unqueue_keeps | refine Keeps.ite2 ?_ ?_

theorem eventWaitTimeout_keeps {s t : State} (h : Keeps s t) (a0) : Keeps s (eventWaitTimeout a0 t) := by
  unfold eventWaitTimeout
  try dsimp only
  with_reducible repeat' first | assumption | apply answer_keeps | refine Keeps.ite ?_ ?_

/-! ### NsCmds -/

theorem nsGone_keeps {s t : State} (h : Keeps s t) (a0) : Keeps s (nsGone a0 t) := by
  unfold nsGone
  try dsimp only
  with_reducible repeat' first
    | assumption | apply spaceCheck_keeps | apply State.modHost_keeps | apply mirrorNs_keeps | split

theorem nsCreate_keeps {s t : State} (h : Keeps s t) (a0) : Keeps s (nsCreate a0 t).2 := by
  unfold nsCreate
  try dsimp only
  with_reducible repeat' first
    | assumption | apply mirrorNs_keeps | apply nsChanged_keeps | apply State.modHost_keeps | apply State.drew_keeps
    | refine Keeps.ite2 ?_ ?_ | split

theorem withNs_keeps {s t : State} (h : Keeps s t) (b f) (hf : ∀ g u, Keeps s u → Keeps s (f g u).2) :
    Keeps s (withNs b f t).2 := by
  unfold withNs
  try dsimp only
  with_reducible repeat' first | exact h | exact hf _ _ h | split

theorem nsDelete_keeps {s t : State} (h : Keeps s t) (a0) : Keeps s (nsDelete a0 t).2 := by
  unfold nsDelete
  try dsimp only
  repeat' first
    | with_reducible assumption | with_reducible apply nsChanged_keeps | with_reducible apply State.modNs_keeps
    | with_reducible apply complete_keeps | with_reducible apply eraseNs_keeps
    | with_reducible apply purgeHawk_keeps | with_reducible apply withNs_keeps | with_reducible apply startJob_keeps
    | (with_reducible refine Keeps.foldl (fun u x hu => ?_) ?_) | split | exact fun e => by simpa using e | intro _

theorem nsResize_keeps {s t : State} (h : Keeps s t) (a0) : Keeps s (nsResize a0 t).2 := by
  unfold nsResize
  try dsimp only
  repeat' first
    | with_reducible assumption | with_reducible apply withNs_keeps | with_reducible apply mirrorNs_keeps
    | with_reducible apply nsChanged_keeps | with_reducible apply State.modNs_keeps | exact id | split
    | exact fun e => by simpa using e | intro _

theorem nsAttr_keeps {s t : State} (h : Keeps s t) (b) : Keeps s (nsAttr b t).2 := by
  unfold nsAttr
  refine withNs_keeps h _ _ fun n u hu => ?_
  split
  · exact hu
  · split
    · exact hu
    · extract_lets s1 s2 s3 peer
      have h1 : Keeps s s1 := by
        simp only [s1]; split
        · exact State.modNs_keeps hu _ _
        · exact hu
      have h2 : Keeps s s2 := by
        simp only [s2]; split
        · exact purgeHawk_keeps h1 _
        · exact h1
      have h3 : Keeps s s3 := by
        simp only [s3]; split
        · exact State.modNs_keeps h2 _ _
        · exact h2
      dsimp only
      refine mirrorNs_keeps ?_ _ _
      split
      · exact State.modNs_keeps h3 _ _
      · exact h3

theorem tellShelf_keeps {s t : State} (h : Keeps s t) (a0) : Keeps s (tellShelf a0 t) := by
  unfold tellShelf
  try dsimp only
  with_reducible repeat' first | assumption | apply sendDev_keeps

theorem grantChanged_keeps {s t : State} (h : Keeps s t) (a0 a1) : Keeps s (grantChanged a0 a1 t) := by
  unfold grantChanged
  try dsimp only
  with_reducible repeat' first | assumption | apply nsChangedFor_keeps

theorem nsGrant_keeps {s t : State} (h : Keeps s t) (a0 a1) : Keeps s (nsGrant a0 a1 t).2 := by
  unfold nsGrant
  try dsimp only
  with_reducible repeat' first
    | assumption | apply tellShelf_keeps | apply State.modHost_keeps | apply grantChanged_keeps
    | refine Keeps.ite ?_ ?_ | refine Keeps.ite2 ?_ ?_

theorem nsSubsys_keeps {s t : State} (h : Keeps s t) (a0 a1) : Keeps s (nsSubsys a0 a1 t).2 := by
  unfold nsSubsys
  try dsimp only
  with_reducible repeat' first
    | assumption | apply discoveryChanged_keeps | apply tellShelf_keeps | apply State.modHost_keeps
    | refine Keeps.ite2 ?_ ?_

/-! ### GroupCmds -/

theorem withGroup_keeps {s t : State} (h : Keeps s t) (b f) (hf : ∀ g u, Keeps s u → Keeps s (f g u).2) :
    Keeps s (withGroup b f t).2 := by
  unfold withGroup
  try dsimp only
  with_reducible repeat' first | exact h | exact hf _ _ h | split

theorem grpAssign_keeps {s t : State} (h : Keeps s t) (b) : Keeps s (grpAssign b t).2 := by
  unfold grpAssign
  extract_lets bay act gi m place
  repeat' first
    | with_reducible exact h
    | with_reducible exact unspare_keeps h _
    | with_reducible refine Keeps.ite2 ?_ ?_
  refine withGroup_keeps h _ _ fun g u hu => ?_
  repeat' first
    | with_reducible exact hu
    | with_reducible exact takeSpares_keeps (State.modGroup_keeps (State.modBay_keeps hu _ _) _ _)
    | with_reducible exact makeTarget_keeps (unspare_keeps hu _) _ _ _
    | with_reducible refine Keeps.ite2 ?_ ?_

theorem bayPower_keeps {s t : State} (h : Keeps s t) (a0) : Keeps s (bayPower a0 t).2 := by
  unfold bayPower
  try dsimp only
  with_reducible repeat' first
    | assumption | apply baypwrOff_keeps | apply baypwrOn_keeps | apply baypwrCycle_keeps | refine Keeps.ite ?_ ?_
    | refine Keeps.ite2 ?_ ?_

theorem bayHold_keeps {s t : State} (h : Keeps s t) (a0) : Keeps s (bayHold a0 t).2 := by
  unfold bayHold
  try dsimp only
  with_reducible repeat' first | assumption | apply setHold_keeps | refine Keeps.ite2 ?_ ?_

theorem formOwned_keeps {s t : State} (h : Keeps s t) (a0) : Keeps s (formOwned a0 t) := by
  unfold formOwned
  try dsimp only
  with_reducible repeat' first | assumption | apply setEpoch_keeps | (refine Keeps.foldl (fun u x hu => ?_) ?_)

theorem grpForm_keeps {s t : State} (h : Keeps s t) (c b) : Keeps s (grpForm c b t).2 := by
  unfold grpForm
  dsimp only
  refine Keeps.ite2 h ?_
  split
  · dsimp only
    split
    · exact raise_keeps h _ _ _ _
    · exact h
  · refine Keeps.ite2 h (Keeps.ite2 h (Keeps.ite2 h (startJob_keeps h _ _ _ _ _ _ fun n u hu => ?_)))
    have h1 := State.modGroup_keeps (State.drew_keeps hu) (byteAt b 0) fun _ => formGroup b (t.freeNat % 2 ^ 64) u
    refine Keeps.ite (formOwned_keeps (Keeps.ite h1 (tellShelf_keeps h1 _)) _)
      (setRole_keeps (Keeps.ite h1 (tellShelf_keeps h1 _)) _ _)

theorem dropSlots_keeps {s t : State} (h : Keeps s t) (a0) : Keeps s (dropSlots a0 t) := by
  unfold dropSlots
  try dsimp only
  repeat' first | with_reducible assumption | with_reducible apply State.modFlash_keeps | exact id

theorem dissolve_keeps {s t : State} (h : Keeps s t) (a0 a1) : Keeps s (dissolve a0 a1 t) := by
  unfold dissolve
  try dsimp only
  with_reducible repeat' first
    | assumption | apply dropSlots_keeps | apply dropWork_keeps | apply revokeBays_keeps | apply endGroupCmds_keeps
    | apply unspare_keeps | apply setRole_keeps | apply anaRefresh_keeps | apply State.modGroup_keeps
    | (refine Keeps.foldl (fun u x hu => ?_) ?_)

theorem grpDissolve_keeps {s t : State} (h : Keeps s t) (b) : Keeps s (grpDissolve b t).2 := by
  refine withGroup_keeps h (byteAt b 0) _ fun g u hu => ?_
  split
  · exact hu
  · dsimp only
    exact dissolve_keeps hu _ _

theorem grpAcceptLoss_keeps {s t : State} (h : Keeps s t) (a0) : Keeps s (grpAcceptLoss a0 t).2 := by
  unfold grpAcceptLoss
  try dsimp only
  repeat' first
    | with_reducible assumption | with_reducible apply withGroup_keeps | with_reducible apply setHealth_keeps
    | split | exact fun e => by simpa using e | intro _

theorem grpLostRead_keeps {s t : State} (h : Keeps s t) (a0) : Keeps s (grpLostRead a0 t).2 := by
  unfold grpLostRead
  try dsimp only
  repeat' first
    | with_reducible assumption | with_reducible apply withGroup_keeps | split | exact fun e => by simpa using e

theorem faultSubmit_keeps {s t : State} (h : Keeps s t) (a0) : Keeps s (faultSubmit a0 t).2 := by
  unfold faultSubmit
  try dsimp only
  with_reducible repeat' first | assumption | apply originate_keeps | refine Keeps.ite2 ?_ ?_

theorem forceTakeover_keeps {s t : State} (h : Keeps s t) (a0) : Keeps s (forceTakeover a0 t) := by
  unfold forceTakeover
  try dsimp only
  with_reducible repeat' first
    | assumption | apply nextTag_keeps | apply takeoverWon_keeps | apply toWitnesses_keeps
    | apply State.modGroup_keeps

theorem grpForceTakeover_keeps {s t : State} (h : Keeps s t) (a0) : Keeps s (grpForceTakeover a0 t).2 := by
  unfold grpForceTakeover
  try dsimp only
  with_reducible repeat' first
    | assumption | apply startJob_keeps | apply forceTakeover_keeps | refine Keeps.ite2 ?_ ?_ | intro _

theorem grpHandover_keeps {s t : State} (h : Keeps s t) (a0) : Keeps s (grpHandover a0 t).2 := by
  unfold grpHandover
  try dsimp only
  repeat' first
    | with_reducible assumption | with_reducible apply withGroup_keeps | with_reducible apply startHandover_keeps
    | exact id | split | exact fun e => by simpa using e | intro _

/-! ### ParamRules -/

theorem shrinkHawk_keeps {s t : State} (h : Keeps s t) (a0) : Keeps s (shrinkHawk a0 t) := by
  induction a0 generalizing t with
  | zero => exact h
  | succ n ih =>
    unfold shrinkHawk
    have h1 := evictHawk_keeps h
    split
    · exact h
    · split <;> rename_i e <;> rw [e] at h1
      · exact ih h1
      · exact h1

theorem copyWitnessKey_keeps {s t : State} (h : Keeps s t) : Keeps s (copyWitnessKey t) := by
  unfold copyWitnessKey
  try dsimp only
  repeat' first
    | with_reducible assumption | with_reducible apply useKey_keeps | exact id | exact FuseLe.refl _ | split
    | with_reducible refine Keeps.upd ?_ ?_ ?_ ?_ ?_ ?_ ?_ ?_ ?_

theorem paramEffect_keeps {s t : State} (h : Keeps s t) (a0 a1) : Keeps s (paramEffect a0 a1 t) := by
  unfold paramEffect
  try dsimp only
  repeat' first
    | with_reducible assumption | with_reducible apply turnChanged_keeps | with_reducible apply renumber_keeps
    | with_reducible apply dropDisabled_keeps | with_reducible apply limitSlew_keeps
    | with_reducible apply ppsFollow_keeps | with_reducible apply raise_keeps
    | with_reducible apply State.modChan_keeps | with_reducible apply shrinkHawk_keeps
    | with_reducible apply State.modFlash_keeps | with_reducible apply clearFault_keeps
    | with_reducible apply spaceCheck_keeps | with_reducible apply skimAbandon_keeps
    | with_reducible apply copyWitnessKey_keeps | with_reducible apply fabricLabels_keeps
    | with_reducible apply autostartAll_keeps | exact id | with_reducible refine Keeps.ite ?_ ?_
    | (with_reducible refine Keeps.foldl (fun u x hu => ?_) ?_)

theorem changeNow_keeps {s t : State} (h : Keeps s t) (a0 a1) : Keeps s (changeNow a0 a1 t) := by
  unfold changeNow
  try dsimp only
  with_reducible repeat' first | assumption | apply paramEffect_keeps | apply State.changeParam_keeps

theorem bumpGen_keeps {s t : State} (h : Keeps s t) (a1) : Keeps s (bumpGen t a1) := by
  unfold bumpGen
  try dsimp only
  with_reducible repeat' first | assumption | apply State.putParam_keeps

theorem acceptCommit_keeps {s t : State} (h : Keeps s t) (a0) : Keeps s (acceptCommit a0 t) := by
  unfold acceptCommit
  try dsimp only
  repeat' first
    | with_reducible assumption | with_reducible apply bumpGen_keeps | exact id | exact FuseLe.refl _
    | (with_reducible refine Keeps.foldl (fun u x hu => ?_) ?_)
    | with_reducible refine Keeps.upd ?_ ?_ ?_ ?_ ?_ ?_ ?_ ?_ ?_

theorem timeCfgWrite_keeps {s t : State} (h : Keeps s t) (a0) : Keeps s (timeCfgWrite a0 t) := by
  unfold timeCfgWrite
  try dsimp only
  with_reducible repeat' first
    | assumption | apply State.changeParam_keeps | apply turnChanged_keeps | apply renumber_keeps
    | refine Keeps.ite ?_ ?_

theorem applyEntry_keeps {s t : State} (h : Keeps s t) (a1) : Keeps s (applyEntry t a1) := by
  unfold applyEntry
  try dsimp only
  with_reducible repeat' first | assumption | apply State.putParam_keeps

theorem applyCommits_keeps {s t : State} (h : Keeps s t) : Keeps s (applyCommits t) := by
  unfold applyCommits
  try dsimp only
  repeat' first
    | with_reducible assumption | with_reducible apply applyEntry_keeps | exact id | exact FuseLe.refl _
    | (with_reducible refine Keeps.foldl (fun u x hu => ?_) ?_)
    | with_reducible refine Keeps.upd ?_ ?_ ?_ ?_ ?_ ?_ ?_ ?_ ?_

/-! ### ParamCmds -/

theorem netCommit_keeps {s t : State} (h : Keeps s t) : Keeps s (netCommit t) := by
  unfold netCommit
  try dsimp only
  repeat' first
    | with_reducible assumption | with_reducible apply State.modNet_keeps | with_reducible apply acceptCommit_keeps
    | exact id | exact FuseLe.refl _ | with_reducible refine Keeps.ite ?_ ?_
    | with_reducible refine Keeps.upd ?_ ?_ ?_ ?_ ?_ ?_ ?_ ?_ ?_

theorem saveParams_keeps {s t : State} (h : Keeps s t) : Keeps s (saveParams t) := by
  unfold saveParams
  try dsimp only
  repeat' first
    | with_reducible assumption | exact id | exact FuseLe.refl _ | split
    | with_reducible refine Keeps.upd ?_ ?_ ?_ ?_ ?_ ?_ ?_ ?_ ?_

theorem paramSet_keeps {s t : State} (h : Keeps s t) (a0 a1) : Keeps s (paramSet a0 a1 t).2 := by
  unfold paramSet
  try dsimp only
  with_reducible repeat' first
    | assumption | apply State.modChan_keeps | apply changeNow_keeps | refine Keeps.ite ?_ ?_
    | refine Keeps.ite2 ?_ ?_ | (refine Keeps.foldl (fun u x hu => ?_) ?_) | split

theorem paramCommit_keeps {s t : State} (h : Keeps s t) (a0 a1) : Keeps s (paramCommit a0 a1 t).2 := by
  unfold paramCommit
  try dsimp only
  with_reducible repeat' first
    | assumption | apply acceptCommit_keeps | apply State.modChan_keeps | refine Keeps.ite ?_ ?_
    | refine Keeps.ite2 ?_ ?_

theorem paramDiscard_keeps {s t : State} (h : Keeps s t) (a0 a1) : Keeps s (paramDiscard a0 a1 t).2 := by
  unfold paramDiscard
  try dsimp only
  with_reducible repeat' first | assumption | apply State.modChan_keeps

theorem paramSave_keeps {s t : State} (h : Keeps s t) (a0) : Keeps s (paramSave a0 t).2 := by
  unfold paramSave
  try dsimp only
  repeat' first | with_reducible assumption | with_reducible apply startJob_keeps | exact fun e => by simpa using e

theorem paramDefaults_keeps {s t : State} (h : Keeps s t) (a0) : Keeps s (paramDefaults a0 t).2 := by
  unfold paramDefaults
  try dsimp only
  repeat' first
    | with_reducible assumption | exact id | exact FuseLe.refl _
    | with_reducible refine Keeps.upd ?_ ?_ ?_ ?_ ?_ ?_ ?_ ?_ ?_

theorem loadParams_keeps {s t : State} (h : Keeps s t) : Keeps s (loadParams t) := by
  unfold loadParams
  try dsimp only
  repeat' first
    | with_reducible assumption | exact id | exact FuseLe.refl _ | split
    | with_reducible refine Keeps.upd ?_ ?_ ?_ ?_ ?_ ?_ ?_ ?_ ?_

/-! ### Firmware -/

theorem putBoot_keeps {s t : State} (h : Keeps s t) (a0) : Keeps s (putBoot a0 t) := by
  unfold putBoot
  try dsimp only
  repeat' first
    | with_reducible assumption | exact id | exact FuseLe.refl _ | split
    | with_reducible refine Keeps.upd ?_ ?_ ?_ ?_ ?_ ?_ ?_ ?_ ?_

theorem verified_keeps {s t : State} (h : Keeps s t) (a0) : Keeps s (verified a0 t) := by
  unfold verified
  try dsimp only
  repeat' first
    | with_reducible assumption | with_reducible apply raise_keeps | with_reducible apply putBoot_keeps | exact id
    | exact FuseLe.refl _ | with_reducible refine Keeps.ite ?_ ?_ | split
    | with_reducible refine Keeps.upd ?_ ?_ ?_ ?_ ?_ ?_ ?_ ?_ ?_

theorem jobEffect_keeps {s t : State} (h : Keeps s t) (a0) : Keeps s (jobEffect a0 t) := by
  unfold jobEffect
  try dsimp only
  with_reducible repeat' first
    | assumption | apply nsGone_keeps | apply genRetire_keeps | apply saveParams_keeps | apply verified_keeps
    | refine Keeps.ite ?_ ?_

theorem jobDone_keeps {s t : State} (h : Keeps s t) (a0) : Keeps s (jobDone a0 t) := by
  unfold jobDone
  try dsimp only
  with_reducible repeat' first
    | assumption | apply jobFinish_keeps | apply jobEffect_keeps | refine Keeps.ite ?_ ?_ | split

theorem fwBegin_keeps {s t : State} (h : Keeps s t) (a0 a1) : Keeps s (fwBegin a0 a1 t).2 := by
  unfold fwBegin
  try dsimp only
  repeat' first
    | with_reducible assumption | with_reducible apply startJob_keeps | with_reducible apply putBoot_keeps
    | exact id | exact FuseLe.refl _ | with_reducible refine Keeps.ite2 ?_ ?_
    | with_reducible refine Keeps.upd ?_ ?_ ?_ ?_ ?_ ?_ ?_ ?_ ?_ | intro _

theorem fwWrite_keeps {s t : State} (h : Keeps s t) (a0 a1) : Keeps s (fwWrite a0 a1 t).2 := by
  unfold fwWrite
  try dsimp only
  repeat' first
    | with_reducible assumption | exact id | exact FuseLe.refl _ | with_reducible refine Keeps.ite2 ?_ ?_ | split
    | with_reducible refine Keeps.upd ?_ ?_ ?_ ?_ ?_ ?_ ?_ ?_ ?_

theorem fwVerify_keeps {s t : State} (h : Keeps s t) (a0 a1) : Keeps s (fwVerify a0 a1 t).2 := by
  unfold fwVerify
  try dsimp only
  repeat' first
    | with_reducible assumption | with_reducible apply startJob_keeps | split | exact fun e => by simpa using e

theorem fwActivate_keeps {s t : State} (h : Keeps s t) (a0 a1) : Keeps s (fwActivate a0 a1 t).2 := by
  unfold fwActivate
  try dsimp only
  with_reducible repeat' first | assumption | apply putBoot_keeps | refine Keeps.ite2 ?_ ?_ | split

theorem fwActivateAll_keeps {s t : State} (h : Keeps s t) (a0) : Keeps s (fwActivateAll a0 t) := by
  unfold fwActivateAll
  try dsimp only
  repeat' first
    | with_reducible assumption | with_reducible apply fwActivate_keeps | with_reducible apply serveThen_keeps
    | with_reducible apply resetFor_keeps | split | exact fun e => by simpa using e | intro _

theorem advanceRollback_keeps {s t : State} (h : Keeps s t) (ok i) : Keeps s (advanceRollback ok i t) :=
  State.drew_keeps (State.modFuse_keeps h _ (by simp [FuseLe, fuse_or]))

theorem fwConfirm_keeps {s t : State} (h : Keeps s t) (a0 a1 a2) : Keeps s (fwConfirm a0 a1 a2 t).2 := by
  unfold fwConfirm
  try dsimp only
  with_reducible repeat' first
    | assumption | apply putBoot_keeps | apply fuseDone_keeps | apply advanceRollback_keeps | refine Keeps.ite ?_ ?_
    | refine Keeps.ite2 ?_ ?_

theorem closeSession_keeps {s t : State} (h : Keeps s t) : Keeps s (closeSession t) := by
  unfold closeSession
  try dsimp only
  repeat' first
    | with_reducible assumption | exact id | exact FuseLe.refl _
    | with_reducible refine Keeps.upd ?_ ?_ ?_ ?_ ?_ ?_ ?_ ?_ ?_

theorem fwAbort_keeps {s t : State} (h : Keeps s t) (a0) : Keeps s (fwAbort a0 t).2 := by
  unfold fwAbort
  try dsimp only
  with_reducible repeat' first | assumption | apply closeSession_keeps | refine Keeps.ite2 ?_ ?_

theorem fwTrialTimeout_keeps {s t : State} (h : Keeps s t) : Keeps s (fwTrialTimeout t) := by
  unfold fwTrialTimeout
  try dsimp only
  repeat' first
    | with_reducible assumption | with_reducible apply putBoot_keeps | with_reducible apply resetFor_keeps
    | exact id | exact FuseLe.refl _ | with_reducible refine Keeps.ite ?_ ?_
    | with_reducible refine Keeps.upd ?_ ?_ ?_ ?_ ?_ ?_ ?_ ?_ ?_

/-! ### Modes -/

theorem avsSend_keeps {s t : State} (h : Keeps s t) (a0 a1) : Keeps s (avsSend a0 a1 t) := by
  unfold avsSend
  try dsimp only
  with_reducible repeat' first | assumption | apply State.emit_keeps | apply State.modMode_keeps

theorem avsLowerRetry_keeps {s t : State} (h : Keeps s t) : Keeps s (avsLowerRetry t) := by
  unfold avsLowerRetry
  try dsimp only
  with_reducible repeat' first
    | assumption | apply avsSend_keeps | apply State.modMode_keeps | refine Keeps.ite ?_ ?_ | split

theorem powerDieReset_keeps {s t : State} (h : Keeps s t) : Keeps s (powerDieReset t) := by
  unfold powerDieReset
  dsimp only
  have h1 := dataDieReset_keeps h 0
  generalize dataDieReset 0 t = u at h1 ⊢
  exact loadOtp_keeps (Keeps.upd h1 (fun _ => ⟨rfl, rfl, by simp [RingOk]⟩) id (FuseLe.refl _) id (fun _ => rfl) id id id)

theorem pwronAssert_keeps {s t : State} (h : Keeps s t) : Keeps s (pwronAssert t) := by
  unfold pwronAssert
  try dsimp only
  repeat' first
    | with_reducible assumption | with_reducible apply powerDieReset_keeps | exact id | exact FuseLe.refl _
    | with_reducible refine Keeps.upd ?_ ?_ ?_ ?_ ?_ ?_ ?_ ?_ ?_

theorem mpPhyRelease_keeps {s t : State} (h : Keeps s t) : Keeps s (mpPhyRelease t) := by
  unfold mpPhyRelease
  try dsimp only
  repeat' first
    | with_reducible assumption | exact id | exact FuseLe.refl _ | with_reducible refine Keeps.ite ?_ ?_
    | with_reducible refine Keeps.upd ?_ ?_ ?_ ?_ ?_ ?_ ?_ ?_ ?_

theorem avsResponse_keeps {s t : State} (h : Keeps s t) (a0 a1) : Keeps s (avsResponse a0 a1 t) := by
  unfold avsResponse
  try dsimp only
  with_reducible repeat' first
    | assumption | apply State.modMode_keeps | apply avsSend_keeps | refine Keeps.ite ?_ ?_ | split

theorem wakeLatchClear_keeps {s t : State} (h : Keeps s t) (a0) : Keeps s (wakeLatchClear a0 t) := by
  unfold wakeLatchClear
  try dsimp only
  with_reducible repeat' first | assumption | apply State.modMode_keeps

theorem wakeConfig_keeps {s t : State} (h : Keeps s t) (a0) : Keeps s (wakeConfig a0 t).2 := by
  unfold wakeConfig
  try dsimp only
  with_reducible repeat' first
    | assumption | apply State.changeParam_keeps | apply State.modMode_keeps | refine Keeps.ite2 ?_ ?_

theorem aonRun_keeps {s t : State} (h : Keeps s t) (a0 a1 a2) : Keeps s (aonRun a0 a1 a2 t).2 := by
  unfold aonRun
  try dsimp only
  with_reducible repeat' first | assumption | apply bayPower_keeps | apply wakeConfig_keeps | refine Keeps.ite2 ?_ ?_

theorem setHoldBit_keeps {s t : State} (h : Keeps s t) (a0) : Keeps s (setHoldBit a0 t) := by
  unfold setHoldBit
  try dsimp only
  repeat' first
    | with_reducible assumption | with_reducible apply State.modMode_keeps | exact id | exact FuseLe.refl _
    | with_reducible refine Keeps.ite ?_ ?_ | with_reducible refine Keeps.upd ?_ ?_ ?_ ?_ ?_ ?_ ?_ ?_ ?_

theorem chanWakes_keeps {s t : State} (h : Keeps s t) (a0 a1) : Keeps s (chanWakes a0 a1 t) := by
  unfold chanWakes
  try dsimp only
  with_reducible repeat' first | assumption | apply latchWake_keeps | refine Keeps.ite ?_ ?_ | split

theorem modeStart_keeps {s t : State} (h : Keeps s t) (a0 a1) : Keeps s (modeStart a0 a1 t) := by
  unfold modeStart
  try dsimp only
  with_reducible repeat' first
    | assumption | apply setHoldBit_keeps | apply modeEntered_keeps | apply enterContained_keeps
    | apply leaveStart_keeps | apply State.modMode_keeps | apply chanWakes_keeps | apply modeFollow_keeps
    | refine Keeps.ite ?_ ?_

theorem mbxAonWithdraw_keeps {s t : State} (h : Keeps s t) (a0) : Keeps s (mbxAonWithdraw a0 t) := by
  unfold mbxAonWithdraw
  try dsimp only
  with_reducible repeat' first
    | assumption | apply State.modChan_keeps | apply answer_keeps | apply aonRun_keeps | apply modeStart_keeps
    | refine Keeps.ite ?_ ?_ | split

theorem modeRequest_keeps {s t : State} (h : Keeps s t) (a0) : Keeps s (modeRequest a0 t) := by
  unfold modeRequest
  try dsimp only
  repeat' first
    | with_reducible assumption | with_reducible apply serveThen_keeps | with_reducible apply modeStart_keeps
    | split | exact fun e => by simpa using e | intro _

theorem postFlushReset_keeps {s t : State} (h : Keeps s t) : Keeps s (postFlushReset t) := by
  unfold postFlushReset
  try dsimp only
  with_reducible repeat' first | assumption | apply dataDieReset_keeps | refine Keeps.ite ?_ ?_

theorem islandAtOnce_keeps {s t : State} (h : Keeps s t) (a0 a1) : Keeps s (islandAtOnce a0 a1 t) := by
  unfold islandAtOnce
  try dsimp only
  with_reducible repeat' first | assumption | apply islandSteps_keeps | apply bbx_keeps | apply State.modMode_keeps

theorem dieOvertemp_keeps {s t : State} (h : Keeps s t) (a0) : Keeps s (dieOvertemp a0 t) := by
  unfold dieOvertemp
  try dsimp only
  repeat' first
    | with_reducible assumption | with_reducible apply islandAtOnce_keeps | exact id | exact FuseLe.refl _
    | with_reducible refine Keeps.ite ?_ ?_ | with_reducible refine Keeps.upd ?_ ?_ ?_ ?_ ?_ ?_ ?_ ?_ ?_

theorem islandEntryComplete_keeps {s t : State} (h : Keeps s t) : Keeps s (islandEntryComplete t) := by
  unfold islandEntryComplete
  try dsimp only
  with_reducible repeat' first
    | assumption | apply modeEntered_keeps | apply disableAllBays_keeps | apply State.modMode_keeps
    | refine Keeps.ite ?_ ?_

theorem wakeInputQualify_keeps {s t : State} (h : Keeps s t) (a0) : Keeps s (wakeInputQualify a0 t) := by
  unfold wakeInputQualify
  try dsimp only
  with_reducible repeat' first | assumption | apply State.modMode_keeps | apply latchWakes_keeps

theorem islandAlarm_keeps {s t : State} (h : Keeps s t) : Keeps s (islandAlarm t) := by
  unfold islandAlarm
  try dsimp only
  with_reducible repeat' first | assumption | apply latchWake_keeps | refine Keeps.ite ?_ ?_

theorem islandExit_keeps {s t : State} (h : Keeps s t) : Keeps s (islandExit t) := by
  unfold islandExit
  try dsimp only
  repeat' first
    | with_reducible assumption | with_reducible apply latchWake_keeps | exact id | exact FuseLe.refl _
    | with_reducible refine Keeps.ite ?_ ?_ | split | with_reducible refine Keeps.upd ?_ ?_ ?_ ?_ ?_ ?_ ?_ ?_ ?_

theorem mainPgTimeout_keeps {s t : State} (h : Keeps s t) : Keeps s (mainPgTimeout t) := by
  unfold mainPgTimeout
  try dsimp only
  repeat' first
    | with_reducible assumption | with_reducible apply actOnWake_keeps | with_reducible apply bbx_keeps | exact id
    | exact FuseLe.refl _ | with_reducible refine Keeps.ite ?_ ?_
    | with_reducible refine Keeps.upd ?_ ?_ ?_ ?_ ?_ ?_ ?_ ?_ ?_

theorem mainPgRise_keeps {s t : State} (h : Keeps s t) : Keeps s (mainPgRise t) := by
  unfold mainPgRise
  try dsimp only
  with_reducible repeat' first | assumption | apply State.modMode_keeps | refine Keeps.ite ?_ ?_

theorem mainPgFall_keeps {s t : State} (h : Keeps s t) : Keeps s (mainPgFall t) := by
  unfold mainPgFall
  try dsimp only
  with_reducible repeat' first
    | assumption | apply State.modMode_keeps | apply islandAtOnce_keeps | refine Keeps.ite ?_ ?_

theorem ddRstRelease_keeps {s t : State} (h : Keeps s t) : Keeps s (ddRstRelease t) := by
  unfold ddRstRelease
  try dsimp only
  repeat' first
    | with_reducible assumption | with_reducible apply renumber_keeps | exact id | exact FuseLe.refl _
    | with_reducible refine Keeps.ite ?_ ?_ | split | with_reducible refine Keeps.upd ?_ ?_ ?_ ?_ ?_ ?_ ?_ ?_ ?_

theorem abandonEntry_keeps {s t : State} (h : Keeps s t) : Keeps s (abandonEntry t) := by
  unfold abandonEntry
  try dsimp only
  repeat' first
    | with_reducible assumption | with_reducible apply dataDieReset_keeps
    | with_reducible apply disableAllBays_keeps | with_reducible apply actOnWake_keeps
    | with_reducible apply modeFollow_keeps | with_reducible apply State.modMode_keeps | exact id
    | exact FuseLe.refl _ | with_reducible refine Keeps.ite ?_ ?_
    | with_reducible refine Keeps.upd ?_ ?_ ?_ ?_ ?_ ?_ ?_ ?_ ?_

theorem avsFailed_keeps {s t : State} (h : Keeps s t) (a0) : Keeps s (avsFailed a0 t) := by
  unfold avsFailed
  try dsimp only
  with_reducible repeat' first
    | assumption | apply State.modMode_keeps | apply raise_keeps | apply bbx_keeps | apply abandonEntry_keeps
    | apply enterContained_keeps | refine Keeps.ite ?_ ?_

theorem avsTimeout_keeps {s t : State} (h : Keeps s t) : Keeps s (avsTimeout t) := by
  unfold avsTimeout
  try dsimp only
  with_reducible repeat' first
    | assumption | apply avsFailed_keeps | apply State.emit_keeps | apply State.modMode_keeps
    | refine Keeps.ite ?_ ?_ | split

theorem vaonLoss_keeps {s t : State} (h : Keeps s t) : Keeps s (vaonLoss t) := by
  unfold vaonLoss
  try dsimp only
  repeat' first
    | with_reducible assumption | with_reducible apply dataDieReset_keeps | with_reducible apply lastGasp_keeps
    | exact id | exact FuseLe.refl _ | with_reducible refine Keeps.upd ?_ ?_ ?_ ?_ ?_ ?_ ?_ ?_ ?_
    | exact fun e => by simpa using e

theorem islandSupply_keeps {s t : State} (h : Keeps s t) (a0 a1 a2) : Keeps s (islandSupply a0 a1 a2 t) := by
  unfold islandSupply
  try dsimp only
  with_reducible repeat' first
    | assumption | apply State.modMode_keeps | apply vaonLoss_keeps | apply raise_keeps | refine Keeps.ite ?_ ?_

theorem ddBeatEdge_keeps {s t : State} (h : Keeps s t) : Keeps s (ddBeatEdge t) := by
  unfold ddBeatEdge
  try dsimp only
  repeat' first
    | with_reducible assumption | exact id | exact FuseLe.refl _ | with_reducible refine Keeps.ite ?_ ?_
    | with_reducible refine Keeps.upd ?_ ?_ ?_ ?_ ?_ ?_ ?_ ?_ ?_

theorem watchdogExpiry_keeps {s t : State} (h : Keeps s t) : Keeps s (watchdogExpiry t) := by
  unfold watchdogExpiry
  try dsimp only
  repeat' first
    | with_reducible assumption | with_reducible apply islandTail_keeps | with_reducible apply bbx_keeps
    | with_reducible apply dataDieReset_keeps | exact id | exact FuseLe.refl _
    | with_reducible refine Keeps.ite ?_ ?_ | with_reducible refine Keeps.upd ?_ ?_ ?_ ?_ ?_ ?_ ?_ ?_ ?_

theorem pwronRelease_keeps {s t : State} (h : Keeps s t) (a0 a1 a2 a3) : Keeps s (pwronRelease a0 a1 a2 a3 t) := by
  unfold pwronRelease
  try dsimp only
  repeat' first
    | with_reducible assumption | with_reducible apply powerDieReset_keeps | with_reducible apply latchWake_keeps
    | exact id | exact FuseLe.refl _ | with_reducible refine Keeps.ite ?_ ?_
    | with_reducible refine Keeps.upd ?_ ?_ ?_ ?_ ?_ ?_ ?_ ?_ ?_

theorem operatingPoint_keeps {s t : State} (h : Keeps s t) (a0 a1) : Keeps s (operatingPoint a0 a1 t) := by
  unfold operatingPoint
  try dsimp only
  with_reducible repeat' first
    | assumption | apply State.modMode_keeps | apply avsSend_keeps | refine Keeps.ite ?_ ?_ | split

end Sys2Proof.Machine
end

