-- ==== Sys2Proof/Laws/Keeps9.lean ====
section
/-! SUPPORT. What the operations of Boot, Boundaries, Feeds, Registers keep (Laws/Keeps.lean): one lemma for each. -/

set_option linter.unusedVariables false

namespace Sys2Proof.Machine

/-! ### Boot -/

theorem primerRecovery_keeps {s t : State} (h : Keeps s t) : Keeps s (primerRecovery t) := by
  unfold primerRecovery
  try dsimp only
  repeat' first
    | with_reducible assumption | exact id | exact FuseLe.refl _
    | with_reducible refine Keeps.upd ?_ ?_ ?_ ?_ ?_ ?_ ?_ ?_ ?_

theorem rejected_keeps {s t : State} (h : Keeps s t) : Keeps s (rejected t) := by
  unfold rejected
  try dsimp only
  repeat' first
    | with_reducible assumption | exact id | exact FuseLe.refl _
    | with_reducible refine Keeps.upd ?_ ?_ ?_ ?_ ?_ ?_ ?_ ?_ ?_

theorem primerChoose_keeps {s t : State} (h : Keeps s t) (n) : Keeps s (primerChoose n t).2 := by
  induction n generalizing t with
  | zero => exact h
  | succ n ih =>
    unfold primerChoose
    split
    · exact h
    · exact ih (rejected_keeps (putBoot_keeps h _))
    · extract_lets s0 s1
      have h0 : Keeps s s0 := by
        simp only [s0]
        split
        · exact rejected_keeps h
        · exact h
      have h1 : Keeps s s1 := putBoot_keeps h0 _
      split
      · exact h1
      · exact ih (rejected_keeps (bbx_keeps (putBoot_keeps h1 _) _ _ _ _ _))

theorem primerRetire_keeps {s t : State} (h : Keeps s t) : Keeps s (primerRetire t) := by
  unfold primerRetire
  dsimp only
  exact bbx_keeps (Keeps.upd (State.modFuse_keeps h _ (by simp [FuseLe, fuse_or])) id id (FuseLe.refl _) id id id id id) _ _ _ _ _

theorem timeStart_keeps {s t : State} (h : Keeps s t) : Keeps s (timeStart t) := by
  unfold timeStart
  try dsimp only
  with_reducible repeat' first
    | assumption | apply refreshClass_keeps | apply renumber_keeps | apply State.modTime_keeps

theorem parametersLoaded_keeps {s t : State} (h : Keeps s t) : Keeps s (parametersLoaded t) := by
  unfold parametersLoaded
  try dsimp only
  repeat' first
    | with_reducible assumption | with_reducible apply loadParams_keeps | with_reducible apply raise_keeps
    | with_reducible apply State.modMode_keeps | with_reducible apply autostartAll_keeps | exact id
    | exact FuseLe.refl _ | with_reducible refine Keeps.ite ?_ ?_ | split
    | with_reducible refine Keeps.upd ?_ ?_ ?_ ?_ ?_ ?_ ?_ ?_ ?_

theorem tellPending_keeps {s t : State} (h : Keeps s t) : Keeps s (tellPending t) := by
  unfold tellPending
  try dsimp only
  repeat' first
    | with_reducible assumption | with_reducible apply raise_keeps | with_reducible apply State.modMode_keeps
    | exact id | exact FuseLe.refl _ | with_reducible refine Keeps.ite ?_ ?_ | split
    | with_reducible refine Keeps.upd ?_ ?_ ?_ ?_ ?_ ?_ ?_ ?_ ?_

theorem cipherStart_keeps {s t : State} (h : Keeps s t) (a0 a1) : Keeps s (cipherStart a0 a1 t) := by
  unfold cipherStart
  try dsimp only
  with_reducible repeat' first
    | assumption | apply State.modCiph_keeps | apply copyWitnessKey_keeps | apply fabricLabels_keeps
    | apply setLabel_keeps | apply drawRandom_keeps | apply raise_keeps | apply rootKeyFault_keeps
    | refine Keeps.ite ?_ ?_

theorem firmwareStart_keeps {s t : State} (h : Keeps s t) (a0 a1 a2) : Keeps s (firmwareStart a0 a1 a2 t) := by
  unfold firmwareStart
  try dsimp only
  repeat' first
    | with_reducible assumption | with_reducible apply timeStart_keeps | with_reducible apply parametersLoaded_keeps
    | with_reducible apply setCfgReady_keeps | with_reducible apply releaseAllBays_keeps
    | with_reducible apply tellPending_keeps | with_reducible apply cipherStart_keeps
    | with_reducible apply chooseAddr_keeps | exact id | exact FuseLe.refl _ | with_reducible refine Keeps.ite ?_ ?_
    | with_reducible refine Keeps.upd ?_ ?_ ?_ ?_ ?_ ?_ ?_ ?_ ?_

theorem primerBoot_keeps {s t : State} (h : Keeps s t) (a0 a1) : Keeps s (primerBoot a0 a1 t) := by
  unfold primerBoot
  try dsimp only
  repeat' first
    | with_reducible assumption | with_reducible apply primerRecovery_keeps
    | with_reducible apply primerChoose_keeps | with_reducible apply bbx_keeps
    | with_reducible apply primerRetire_keeps | with_reducible apply firmwareStart_keeps | exact id
    | exact FuseLe.refl _ | (with_reducible refine Keeps.named (by assumption) ?_)
    | with_reducible refine Keeps.ite ?_ ?_ | split | with_reducible refine Keeps.upd ?_ ?_ ?_ ?_ ?_ ?_ ?_ ?_ ?_

theorem standbyReached_keeps {s t : State} (h : Keeps s t) : Keeps s (standbyReached t) := by
  unfold standbyReached
  try dsimp only
  with_reducible repeat' first | assumption | apply modeEntered_keeps | apply putBoot_keeps | refine Keeps.ite ?_ ?_

/-! ### Boundaries -/

theorem renewals_keeps {s t : State} (h : Keeps s t) : Keeps s (renewals t) := by
  unfold renewals
  try dsimp only
  with_reducible repeat' first
    | assumption | apply renewLease_keeps | refine Keeps.ite ?_ ?_ | (refine Keeps.foldl (fun u x hu => ?_) ?_)

theorem tellAon_keeps {s t : State} (h : Keeps s t) : Keeps s (tellAon t) := by
  unfold tellAon
  try dsimp only
  repeat' first
    | with_reducible assumption | exact id | exact FuseLe.refl _ | with_reducible refine Keeps.ite ?_ ?_
    | with_reducible refine Keeps.upd ?_ ?_ ?_ ?_ ?_ ?_ ?_ ?_ ?_

theorem frameWork_keeps {s t : State} (h : Keeps s t) : Keeps s (frameWork t) := by
  unfold frameWork
  try dsimp only
  repeat' first
    | with_reducible assumption | with_reducible apply State.modTregs_keeps
    | with_reducible apply State.modFlash_keeps | with_reducible apply renewals_keeps
    | with_reducible apply skimFrame_keeps | with_reducible apply tellAon_keeps | with_reducible apply formOwn_keeps
    | with_reducible apply mountsGoOn_keeps | exact id | exact FuseLe.refl _
    | (with_reducible refine Keeps.foldl (fun u x hu => ?_) ?_)
    | with_reducible refine Keeps.upd ?_ ?_ ?_ ?_ ?_ ?_ ?_ ?_ ?_ | exact fun e => by simpa using e

theorem anySlew_keeps {s t : State} (h : Keeps s t) : Keeps s (anySlew t) := by
  unfold anySlew
  try dsimp only
  with_reducible repeat' first
    | assumption | apply State.drew_keeps | apply State.setRate_keeps | apply State.modTime_keeps
    | apply leaveHoldover_keeps

theorem slotWork_keeps {s t : State} (h : Keeps s t) : Keeps s (slotWork t) := by
  unfold slotWork
  try dsimp only
  with_reducible repeat' first | assumption | apply refreshAll_keeps

theorem gateOverruns_keeps {s t : State} (h : Keeps s t) : Keeps s (gateOverruns t) := by
  unfold gateOverruns
  try dsimp only
  with_reducible repeat' first
    | assumption | apply netEvt_keeps | apply netCount_keeps | apply raise_keeps | apply State.modPort_keeps
    | refine Keeps.ite ?_ ?_ | (refine Keeps.foldl (fun u x hu => ?_) ?_)

theorem stepNow_keeps {s t : State} (h : Keeps s t) (a0) : Keeps s (stepNow a0 t) := by
  unfold stepNow
  try dsimp only
  with_reducible repeat' first
    | assumption | apply State.modTime_keeps | apply State.modTregs_keeps | apply anySlew_keeps | apply raise_keeps
    | apply renumber_keeps | apply slotWork_keeps | apply frameWork_keeps | apply gateOverruns_keeps

theorem timeStep_keeps {s t : State} (h : Keeps s t) : Keeps s (timeStep t) := by
  unfold timeStep
  try dsimp only
  with_reducible repeat' first
    | assumption | apply stepNow_keeps | apply advanceTo_keeps | refine Keeps.ite ?_ ?_ | split

theorem slotBoundary_keeps {s t : State} (h : Keeps s t) : Keeps s (slotBoundary t) := by
  unfold slotBoundary
  try dsimp only
  with_reducible repeat' first
    | assumption | apply timeStep_keeps | apply slotWork_keeps | apply State.modTregs_keeps | apply advanceTo_keeps
    | refine Keeps.ite ?_ ?_

theorem frameBoundary_keeps {s t : State} (h : Keeps s t) : Keeps s (frameBoundary t) := by
  unfold frameBoundary
  try dsimp only
  with_reducible repeat' first
    | assumption | apply timeStep_keeps | apply frameWork_keeps | apply State.modTregs_keeps | apply advanceTo_keeps
    | refine Keeps.ite ?_ ?_

theorem turnWork_keeps {s t : State} (h : Keeps s t) : Keeps s (turnWork t) := by
  unfold turnWork
  try dsimp only
  repeat' first
    | with_reducible assumption | with_reducible apply State.modTime_keeps
    | with_reducible apply State.modTregs_keeps | with_reducible apply State.modFlash_keeps
    | with_reducible apply actOnDue_keeps | with_reducible apply handoverTurns_keeps
    | with_reducible apply refreshAll_keeps | with_reducible apply applyCommits_keeps | exact id

theorem turnBoundary_keeps {s t : State} (h : Keeps s t) : Keeps s (turnBoundary t) := by
  unfold turnBoundary
  try dsimp only
  with_reducible repeat' first
    | assumption | apply timeStep_keeps | apply turnWork_keeps | apply State.modTregs_keeps | apply advanceTo_keeps
    | refine Keeps.ite ?_ ?_

/-! ### Feeds -/

theorem State.setFeed_keeps {s t : State} (h : Keeps s t) (a1 a2) : Keeps s (State.setFeed t a1 a2) := by
  unfold State.setFeed
  try dsimp only
  repeat' first
    | with_reducible assumption | exact id | exact FuseLe.refl _ | with_reducible refine Keeps.ite ?_ ?_
    | with_reducible refine Keeps.upd ?_ ?_ ?_ ?_ ?_ ?_ ?_ ?_ ?_

theorem feedOvRecover_keeps {s t : State} (h : Keeps s t) (a0 a1 a2) : Keeps s (feedOvRecover a0 a1 a2 t) := by
  unfold feedOvRecover
  try dsimp only
  with_reducible repeat' first
    | assumption | apply raise_keeps | apply State.setFeed_keeps | apply State.sawBus_keeps | refine Keeps.ite ?_ ?_

theorem feedOringOn_keeps {s t : State} (h : Keeps s t) (a0 a1 a2) : Keeps s (feedOringOn a0 a1 a2 t) := by
  unfold feedOringOn
  try dsimp only
  with_reducible repeat' first
    | assumption | apply State.sawBus_keeps | apply State.setFeed_keeps | refine Keeps.ite ?_ ?_

theorem State.feedHappened_keeps {s t : State} (h : Keeps s t) (a1) : Keeps s (State.feedHappened t a1) := by
  unfold State.feedHappened
  try dsimp only
  repeat' first
    | with_reducible assumption | exact id | exact FuseLe.refl _
    | with_reducible refine Keeps.upd ?_ ?_ ?_ ?_ ?_ ?_ ?_ ?_ ?_

theorem feedReverseOff_keeps {s t : State} (h : Keeps s t) (a0 a1 a2) : Keeps s (feedReverseOff a0 a1 a2 t) := by
  unfold feedReverseOff
  try dsimp only
  with_reducible repeat' first
    | assumption | apply State.sawBus_keeps | apply State.feedHappened_keeps | apply State.setFeed_keeps
    | refine Keeps.ite ?_ ?_

theorem feedRearm_keeps {s t : State} (h : Keeps s t) (a0 a1 a2) : Keeps s (feedRearm a0 a1 a2 t) := by
  unfold feedRearm
  try dsimp only
  with_reducible repeat' first
    | assumption | apply State.sawBus_keeps | apply raise_keeps | apply State.setFeed_keeps | refine Keeps.ite ?_ ?_

theorem feedOvOff_keeps {s t : State} (h : Keeps s t) (a0 a1) : Keeps s (feedOvOff a0 a1 t) := by
  unfold feedOvOff
  try dsimp only
  with_reducible repeat' first
    | assumption | apply bbx_keeps | apply State.feedHappened_keeps | apply State.setFeed_keeps
    | refine Keeps.ite ?_ ?_

theorem feedAbsent_keeps {s t : State} (h : Keeps s t) (a0 a1) : Keeps s (feedAbsent a0 a1 t) := by
  unfold feedAbsent
  try dsimp only
  with_reducible repeat' first
    | assumption | apply State.feedHappened_keeps | apply State.setFeed_keeps | apply raise_keeps
    | apply feedsLost_keeps | refine Keeps.ite ?_ ?_

theorem feedRestored_keeps {s t : State} (h : Keeps s t) (a0 a1 a2) : Keeps s (feedRestored a0 a1 a2 t) := by
  unfold feedRestored
  try dsimp only
  with_reducible repeat' first
    | assumption | apply raise_keeps | apply State.setFeed_keeps | apply State.sawBus_keeps | refine Keeps.ite ?_ ?_

theorem feedCollapse_keeps {s t : State} (h : Keeps s t) (a0) : Keeps s (feedCollapse a0 t) := by
  unfold feedCollapse
  try dsimp only
  repeat' first
    | with_reducible assumption | with_reducible apply bbx_keeps | with_reducible apply State.feedHappened_keeps
    | with_reducible apply raise_keeps | with_reducible apply pfWarn_keeps | exact id | exact FuseLe.refl _
    | with_reducible refine Keeps.ite ?_ ?_ | with_reducible refine Keeps.upd ?_ ?_ ?_ ?_ ?_ ?_ ?_ ?_ ?_

theorem flushEnds_keeps {s t : State} (h : Keeps s t) : Keeps s (flushEnds t) := by
  unfold flushEnds
  try dsimp only
  with_reducible repeat' first
    | assumption | apply pfailFlushDone_keeps | apply islandSteps_keeps | refine Keeps.ite ?_ ?_

/-! ### Registers -/

theorem regParam_keeps {s t : State} (h : Keeps s t) (a0 a1) : Keeps s (regParam a0 a1 t) := by
  unfold regParam
  try dsimp only
  with_reducible repeat' first | assumption | apply changeNow_keeps | refine Keeps.ite ?_ ?_

theorem regStage_keeps {s t : State} (h : Keeps s t) (a0 a1) : Keeps s (regStage a0 a1 t) := by
  unfold regStage
  try dsimp only
  repeat' first
    | with_reducible assumption | exact id | exact FuseLe.refl _ | split
    | with_reducible refine Keeps.upd ?_ ?_ ?_ ?_ ?_ ?_ ?_ ?_ ?_

theorem portWrite_keeps {s t : State} (h : Keeps s t) (a0 a1 a2) : Keeps s (portWrite a0 a1 a2 t) := by
  unfold portWrite
  try dsimp only
  with_reducible repeat' first
    | assumption | apply regParam_keeps | apply netPortEnable_keeps | apply State.modPort_keeps
    | apply regStage_keeps | refine Keeps.ite ?_ ?_

theorem netWrite_keeps {s t : State} (h : Keeps s t) (a0 a1) : Keeps s (netWrite a0 a1 t) := by
  unfold netWrite
  try dsimp only
  repeat' first
    | with_reducible assumption | with_reducible apply portWrite_keeps | with_reducible apply State.modNet_keeps
    | with_reducible apply netCommit_keeps | with_reducible apply regParam_keeps
    | with_reducible apply mirrorReset_keeps | exact id | with_reducible refine Keeps.ite ?_ ?_

theorem eachChan_keeps {s t : State} (h : Keeps s t) (b f) : Keeps s (eachChan b f t) :=
  Keeps.foldl (fun _ _ hu => State.modChan_keeps hu _ _) h

theorem sysWrite_keeps {s t : State} (h : Keeps s t) (a0 a1) : Keeps s (sysWrite a0 a1 t) := by
  unfold sysWrite
  try dsimp only
  repeat' first
    | with_reducible assumption | exact id | exact FuseLe.refl _ | with_reducible refine Keeps.ite ?_ ?_
    | with_reducible refine Keeps.upd ?_ ?_ ?_ ?_ ?_ ?_ ?_ ?_ ?_

theorem mbxWrite_keeps {s t : State} (h : Keeps s t) (a0 a1) : Keeps s (mbxWrite a0 a1 t) := by
  unfold mbxWrite
  try dsimp only
  with_reducible repeat' first
    | assumption | apply mbxDoorbell_keeps | apply State.modChan_keeps | apply mbxAck_keeps | apply eachChan_keeps
    | refine Keeps.ite ?_ ?_

theorem timeWrite_keeps {s t : State} (h : Keeps s t) (a0 a1) : Keeps s (timeWrite a0 a1 t) := by
  unfold timeWrite
  try dsimp only
  with_reducible repeat' first
    | assumption | apply ppsFollow_keeps | apply State.modTime_keeps | apply timeCfgWrite_keeps
    | apply regParam_keeps | apply State.modTregs_keeps | refine Keeps.ite ?_ ?_

theorem epWrite_keeps {s t : State} (h : Keeps s t) (a0 a1) : Keeps s (epWrite a0 a1 t) := by
  unfold epWrite
  try dsimp only
  repeat' first
    | with_reducible assumption | with_reducible apply epWinCommit_keeps | with_reducible apply State.modEp_keeps
    | with_reducible apply msixWrite_keeps | exact EpOk.same rfl (by simp [shadowWrite]) rfl rfl | exact id
    | with_reducible refine Keeps.ite ?_ ?_

theorem baylnkWrite_keeps {s t : State} (h : Keeps s t) (a0 a1) : Keeps s (baylnkWrite a0 a1 t) := by
  unfold baylnkWrite
  try dsimp only
  with_reducible repeat' first
    | assumption | apply baylnkHold_keeps | apply baylnkRetrain_keeps | apply State.modBay_keeps
    | refine Keeps.ite ?_ ?_

theorem regWrite_keeps {s t : State} (h : Keeps s t) (a0 a1) : Keeps s (regWrite a0 a1 t) := by
  unfold regWrite
  try dsimp only
  repeat' first
    | with_reducible assumption | with_reducible apply sysWrite_keeps | with_reducible apply mbxWrite_keeps
    | with_reducible apply timeWrite_keeps | with_reducible apply epWrite_keeps
    | with_reducible apply netWrite_keeps | with_reducible apply State.modScrim_keeps
    | with_reducible apply baylnkWrite_keeps | with_reducible apply State.modCiph_keeps | exact id
    | exact FuseLe.refl _ | with_reducible refine Keeps.ite ?_ ?_ | split
    | with_reducible refine Keeps.upd ?_ ?_ ?_ ?_ ?_ ?_ ?_ ?_ ?_

theorem wordWrite_keeps {s t : State} (h : Keeps s t) (a0 a1) : Keeps s (wordWrite a0 a1 t) := by
  unfold wordWrite
  try dsimp only
  repeat' first
    | with_reducible assumption | with_reducible apply regWrite_keeps | exact id | exact FuseLe.refl _
    | with_reducible refine Keeps.ite ?_ ?_ | with_reducible refine Keeps.upd ?_ ?_ ?_ ?_ ?_ ?_ ?_ ?_ ?_

theorem registerWrite_keeps {s t : State} (h : Keeps s t) (a0 a1) : Keeps s (registerWrite a0 a1 t) := by
  unfold registerWrite
  try dsimp only
  with_reducible repeat' first
    | assumption | apply wordWrite_keeps | refine Keeps.ite ?_ ?_ | (refine Keeps.foldl (fun u x hu => ?_) ?_)

theorem wordRead_keeps {s t : State} (h : Keeps s t) (a0) : Keeps s (wordRead a0 t).2 := by
  unfold wordRead
  try dsimp only
  repeat' first
    | with_reducible assumption | with_reducible apply State.modMode_keeps | with_reducible apply latchTime_keeps
    | with_reducible apply rearmEvents_keeps | exact id | exact FuseLe.refl _
    | with_reducible refine Keeps.ite ?_ ?_ | with_reducible refine Keeps.ite2 ?_ ?_
    | with_reducible refine Keeps.upd ?_ ?_ ?_ ?_ ?_ ?_ ?_ ?_ ?_

theorem bar0Read_keeps {s t : State} (h : Keeps s t) (a0 a1) : Keeps s (bar0Read a0 a1 t) := by
  unfold bar0Read
  try dsimp only
  with_reducible repeat' first
    | assumption | apply wordRead_keeps | apply State.emit_keeps | (refine Keeps.foldlPair (fun u x hu => ?_) ?_)

theorem mirroredRead_keeps {s t : State} (h : Keeps s t) (a0 a1) : Keeps s (mirroredRead a0 a1 t) := by
  unfold mirroredRead
  try dsimp only
  with_reducible repeat' first | assumption | apply bar0Read_keeps | refine Keeps.ite ?_ ?_

theorem powerWrite_keeps {s t : State} (h : Keeps s t) (a0 a1) : Keeps s (powerWrite a0 a1 t) := by
  unfold powerWrite
  try dsimp only
  repeat' first
    | with_reducible assumption | with_reducible apply baypwrCtrl_keeps | with_reducible apply State.modPchan_keeps
    | with_reducible apply regParam_keeps | with_reducible apply wakeLatchClear_keeps
    | with_reducible apply State.modMode_keeps | exact id | exact FuseLe.refl _
    | with_reducible refine Keeps.ite ?_ ?_ | with_reducible refine Keeps.upd ?_ ?_ ?_ ?_ ?_ ?_ ?_ ?_ ?_

theorem powerDieWriteApply_keeps {s t : State} (h : Keeps s t) : Keeps s (powerDieWriteApply t) := by
  unfold powerDieWriteApply
  try dsimp only
  repeat' first
    | with_reducible assumption | with_reducible apply powerWrite_keeps | exact id | exact FuseLe.refl _ | split
    | with_reducible refine Keeps.upd ?_ ?_ ?_ ?_ ?_ ?_ ?_ ?_ ?_

theorem pkgLinkDown_keeps {s t : State} (h : Keeps s t) (a0 a1) : Keeps s (pkgLinkDown a0 a1 t) := by
  unfold pkgLinkDown
  try dsimp only
  repeat' first
    | with_reducible assumption | with_reducible apply State.emit_keeps | exact id | exact FuseLe.refl _
    | with_reducible refine Keeps.ite ?_ ?_ | (with_reducible refine Keeps.foldl (fun u x hu => ?_) ?_)
    | with_reducible refine Keeps.upd ?_ ?_ ?_ ?_ ?_ ?_ ?_ ?_ ?_

theorem pkgLinkUp_keeps {s t : State} (h : Keeps s t) : Keeps s (pkgLinkUp t) := by
  unfold pkgLinkUp
  try dsimp only
  repeat' first
    | with_reducible assumption | exact id | exact FuseLe.refl _ | with_reducible refine Keeps.ite ?_ ?_
    | with_reducible refine Keeps.upd ?_ ?_ ?_ ?_ ?_ ?_ ?_ ?_ ?_

end Sys2Proof.Machine
end

