-- ==== Sys2Proof/Laws/State.lean ====
section
/-! SUPPORT. What each named update of the state leaves in each field: one lemma per field per update, so that no proof unfolds
a record update. -/

namespace Sys2Proof.Machine

/-! ### modTime -/

@[simp] theorem State.modTime_pending (s : State) (f) : (s.modTime f).pending = s.pending := rfl
@[simp] theorem State.modTime_out (s : State) (f) : (s.modTime f).out = s.out := rfl
@[simp] theorem State.modTime_free (s : State) (f) : (s.modTime f).free = s.free := rfl
@[simp] theorem State.modTime_clock (s : State) (f) : (s.modTime f).clock = s.clock := rfl
@[simp] theorem State.modTime_sys (s : State) (f) : (s.modTime f).sys = s.sys := rfl
@[simp] theorem State.modTime_time (s : State) (f) : (s.modTime f).time = f s.time := rfl
@[simp] theorem State.modTime_tregs (s : State) (f) : (s.modTime f).tregs = s.tregs := rfl
@[simp] theorem State.modTime_par (s : State) (f) : (s.modTime f).par = s.par := rfl
@[simp] theorem State.modTime_mbx (s : State) (f) : (s.modTime f).mbx = s.mbx := rfl
@[simp] theorem State.modTime_fw (s : State) (f) : (s.modTime f).fw = s.fw := rfl
@[simp] theorem State.modTime_ep (s : State) (f) : (s.modTime f).ep = s.ep := rfl
@[simp] theorem State.modTime_pwr (s : State) (f) : (s.modTime f).pwr = s.pwr := rfl
@[simp] theorem State.modTime_mode (s : State) (f) : (s.modTime f).mode = s.mode := rfl
@[simp] theorem State.modTime_bbx (s : State) (f) : (s.modTime f).bbx = s.bbx := rfl
@[simp] theorem State.modTime_fuse (s : State) (f) : (s.modTime f).fuse = s.fuse := rfl
@[simp] theorem State.modTime_flush (s : State) (f) : (s.modTime f).flush = s.flush := rfl
@[simp] theorem State.modTime_pins (s : State) (f) : (s.modTime f).pins = s.pins := rfl
@[simp] theorem State.modTime_groups (s : State) (f) : (s.modTime f).groups = s.groups := rfl
@[simp] theorem State.modTime_flash (s : State) (f) : (s.modTime f).flash = s.flash := rfl
@[simp] theorem State.modTime_host (s : State) (f) : (s.modTime f).host = s.host := rfl
@[simp] theorem State.modTime_net (s : State) (f) : (s.modTime f).net = s.net := rfl
@[simp] theorem State.modTime_scrim (s : State) (f) : (s.modTime f).scrim = s.scrim := rfl
@[simp] theorem State.modTime_wit (s : State) (f) : (s.modTime f).wit = s.wit := rfl
@[simp] theorem State.modTime_ciph (s : State) (f) : (s.modTime f).ciph = s.ciph := rfl

/-! ### modTregs -/

@[simp] theorem State.modTregs_pending (s : State) (f) : (s.modTregs f).pending = s.pending := rfl
@[simp] theorem State.modTregs_out (s : State) (f) : (s.modTregs f).out = s.out := rfl
@[simp] theorem State.modTregs_free (s : State) (f) : (s.modTregs f).free = s.free := rfl
@[simp] theorem State.modTregs_clock (s : State) (f) : (s.modTregs f).clock = s.clock := rfl
@[simp] theorem State.modTregs_sys (s : State) (f) : (s.modTregs f).sys = s.sys := rfl
@[simp] theorem State.modTregs_time (s : State) (f) : (s.modTregs f).time = s.time := rfl
@[simp] theorem State.modTregs_tregs (s : State) (f) : (s.modTregs f).tregs = f s.tregs := rfl
@[simp] theorem State.modTregs_par (s : State) (f) : (s.modTregs f).par = s.par := rfl
@[simp] theorem State.modTregs_mbx (s : State) (f) : (s.modTregs f).mbx = s.mbx := rfl
@[simp] theorem State.modTregs_fw (s : State) (f) : (s.modTregs f).fw = s.fw := rfl
@[simp] theorem State.modTregs_ep (s : State) (f) : (s.modTregs f).ep = s.ep := rfl
@[simp] theorem State.modTregs_pwr (s : State) (f) : (s.modTregs f).pwr = s.pwr := rfl
@[simp] theorem State.modTregs_mode (s : State) (f) : (s.modTregs f).mode = s.mode := rfl
@[simp] theorem State.modTregs_bbx (s : State) (f) : (s.modTregs f).bbx = s.bbx := rfl
@[simp] theorem State.modTregs_fuse (s : State) (f) : (s.modTregs f).fuse = s.fuse := rfl
@[simp] theorem State.modTregs_flush (s : State) (f) : (s.modTregs f).flush = s.flush := rfl
@[simp] theorem State.modTregs_pins (s : State) (f) : (s.modTregs f).pins = s.pins := rfl
@[simp] theorem State.modTregs_groups (s : State) (f) : (s.modTregs f).groups = s.groups := rfl
@[simp] theorem State.modTregs_flash (s : State) (f) : (s.modTregs f).flash = s.flash := rfl
@[simp] theorem State.modTregs_host (s : State) (f) : (s.modTregs f).host = s.host := rfl
@[simp] theorem State.modTregs_net (s : State) (f) : (s.modTregs f).net = s.net := rfl
@[simp] theorem State.modTregs_scrim (s : State) (f) : (s.modTregs f).scrim = s.scrim := rfl
@[simp] theorem State.modTregs_wit (s : State) (f) : (s.modTregs f).wit = s.wit := rfl
@[simp] theorem State.modTregs_ciph (s : State) (f) : (s.modTregs f).ciph = s.ciph := rfl

/-! ### modMode -/

@[simp] theorem State.modMode_pending (s : State) (f) : (s.modMode f).pending = s.pending := rfl
@[simp] theorem State.modMode_out (s : State) (f) : (s.modMode f).out = s.out := rfl
@[simp] theorem State.modMode_free (s : State) (f) : (s.modMode f).free = s.free := rfl
@[simp] theorem State.modMode_clock (s : State) (f) : (s.modMode f).clock = s.clock := rfl
@[simp] theorem State.modMode_sys (s : State) (f) : (s.modMode f).sys = s.sys := rfl
@[simp] theorem State.modMode_time (s : State) (f) : (s.modMode f).time = s.time := rfl
@[simp] theorem State.modMode_tregs (s : State) (f) : (s.modMode f).tregs = s.tregs := rfl
@[simp] theorem State.modMode_par (s : State) (f) : (s.modMode f).par = s.par := rfl
@[simp] theorem State.modMode_mbx (s : State) (f) : (s.modMode f).mbx = s.mbx := rfl
@[simp] theorem State.modMode_fw (s : State) (f) : (s.modMode f).fw = s.fw := rfl
@[simp] theorem State.modMode_ep (s : State) (f) : (s.modMode f).ep = s.ep := rfl
@[simp] theorem State.modMode_pwr (s : State) (f) : (s.modMode f).pwr = s.pwr := rfl
@[simp] theorem State.modMode_mode (s : State) (f) : (s.modMode f).mode = f s.mode := rfl
@[simp] theorem State.modMode_bbx (s : State) (f) : (s.modMode f).bbx = s.bbx := rfl
@[simp] theorem State.modMode_fuse (s : State) (f) : (s.modMode f).fuse = s.fuse := rfl
@[simp] theorem State.modMode_flush (s : State) (f) : (s.modMode f).flush = s.flush := rfl
@[simp] theorem State.modMode_pins (s : State) (f) : (s.modMode f).pins = s.pins := rfl
@[simp] theorem State.modMode_groups (s : State) (f) : (s.modMode f).groups = s.groups := rfl
@[simp] theorem State.modMode_flash (s : State) (f) : (s.modMode f).flash = s.flash := rfl
@[simp] theorem State.modMode_host (s : State) (f) : (s.modMode f).host = s.host := rfl
@[simp] theorem State.modMode_net (s : State) (f) : (s.modMode f).net = s.net := rfl
@[simp] theorem State.modMode_scrim (s : State) (f) : (s.modMode f).scrim = s.scrim := rfl
@[simp] theorem State.modMode_wit (s : State) (f) : (s.modMode f).wit = s.wit := rfl
@[simp] theorem State.modMode_ciph (s : State) (f) : (s.modMode f).ciph = s.ciph := rfl

/-! ### modWit -/

@[simp] theorem State.modWit_pending (s : State) (f) : (s.modWit f).pending = s.pending := rfl
@[simp] theorem State.modWit_out (s : State) (f) : (s.modWit f).out = s.out := rfl
@[simp] theorem State.modWit_free (s : State) (f) : (s.modWit f).free = s.free := rfl
@[simp] theorem State.modWit_clock (s : State) (f) : (s.modWit f).clock = s.clock := rfl
@[simp] theorem State.modWit_sys (s : State) (f) : (s.modWit f).sys = s.sys := rfl
@[simp] theorem State.modWit_time (s : State) (f) : (s.modWit f).time = s.time := rfl
@[simp] theorem State.modWit_tregs (s : State) (f) : (s.modWit f).tregs = s.tregs := rfl
@[simp] theorem State.modWit_par (s : State) (f) : (s.modWit f).par = s.par := rfl
@[simp] theorem State.modWit_mbx (s : State) (f) : (s.modWit f).mbx = s.mbx := rfl
@[simp] theorem State.modWit_fw (s : State) (f) : (s.modWit f).fw = s.fw := rfl
@[simp] theorem State.modWit_ep (s : State) (f) : (s.modWit f).ep = s.ep := rfl
@[simp] theorem State.modWit_pwr (s : State) (f) : (s.modWit f).pwr = s.pwr := rfl
@[simp] theorem State.modWit_mode (s : State) (f) : (s.modWit f).mode = s.mode := rfl
@[simp] theorem State.modWit_bbx (s : State) (f) : (s.modWit f).bbx = s.bbx := rfl
@[simp] theorem State.modWit_fuse (s : State) (f) : (s.modWit f).fuse = s.fuse := rfl
@[simp] theorem State.modWit_flush (s : State) (f) : (s.modWit f).flush = s.flush := rfl
@[simp] theorem State.modWit_pins (s : State) (f) : (s.modWit f).pins = s.pins := rfl
@[simp] theorem State.modWit_groups (s : State) (f) : (s.modWit f).groups = s.groups := rfl
@[simp] theorem State.modWit_flash (s : State) (f) : (s.modWit f).flash = s.flash := rfl
@[simp] theorem State.modWit_host (s : State) (f) : (s.modWit f).host = s.host := rfl
@[simp] theorem State.modWit_net (s : State) (f) : (s.modWit f).net = s.net := rfl
@[simp] theorem State.modWit_scrim (s : State) (f) : (s.modWit f).scrim = s.scrim := rfl
@[simp] theorem State.modWit_wit (s : State) (f) : (s.modWit f).wit = f s.wit := rfl
@[simp] theorem State.modWit_ciph (s : State) (f) : (s.modWit f).ciph = s.ciph := rfl

/-! ### modCiph -/

@[simp] theorem State.modCiph_pending (s : State) (f) : (s.modCiph f).pending = s.pending := rfl
@[simp] theorem State.modCiph_out (s : State) (f) : (s.modCiph f).out = s.out := rfl
@[simp] theorem State.modCiph_free (s : State) (f) : (s.modCiph f).free = s.free := rfl
@[simp] theorem State.modCiph_clock (s : State) (f) : (s.modCiph f).clock = s.clock := rfl
@[simp] theorem State.modCiph_sys (s : State) (f) : (s.modCiph f).sys = s.sys := rfl
@[simp] theorem State.modCiph_time (s : State) (f) : (s.modCiph f).time = s.time := rfl
@[simp] theorem State.modCiph_tregs (s : State) (f) : (s.modCiph f).tregs = s.tregs := rfl
@[simp] theorem State.modCiph_par (s : State) (f) : (s.modCiph f).par = s.par := rfl
@[simp] theorem State.modCiph_mbx (s : State) (f) : (s.modCiph f).mbx = s.mbx := rfl
@[simp] theorem State.modCiph_fw (s : State) (f) : (s.modCiph f).fw = s.fw := rfl
@[simp] theorem State.modCiph_ep (s : State) (f) : (s.modCiph f).ep = s.ep := rfl
@[simp] theorem State.modCiph_pwr (s : State) (f) : (s.modCiph f).pwr = s.pwr := rfl
@[simp] theorem State.modCiph_mode (s : State) (f) : (s.modCiph f).mode = s.mode := rfl
@[simp] theorem State.modCiph_bbx (s : State) (f) : (s.modCiph f).bbx = s.bbx := rfl
@[simp] theorem State.modCiph_fuse (s : State) (f) : (s.modCiph f).fuse = s.fuse := rfl
@[simp] theorem State.modCiph_flush (s : State) (f) : (s.modCiph f).flush = s.flush := rfl
@[simp] theorem State.modCiph_pins (s : State) (f) : (s.modCiph f).pins = s.pins := rfl
@[simp] theorem State.modCiph_groups (s : State) (f) : (s.modCiph f).groups = s.groups := rfl
@[simp] theorem State.modCiph_flash (s : State) (f) : (s.modCiph f).flash = s.flash := rfl
@[simp] theorem State.modCiph_host (s : State) (f) : (s.modCiph f).host = s.host := rfl
@[simp] theorem State.modCiph_net (s : State) (f) : (s.modCiph f).net = s.net := rfl
@[simp] theorem State.modCiph_scrim (s : State) (f) : (s.modCiph f).scrim = s.scrim := rfl
@[simp] theorem State.modCiph_wit (s : State) (f) : (s.modCiph f).wit = s.wit := rfl
@[simp] theorem State.modCiph_ciph (s : State) (f) : (s.modCiph f).ciph = f s.ciph := rfl

/-! ### modHost -/

@[simp] theorem State.modHost_pending (s : State) (f) : (s.modHost f).pending = s.pending := rfl
@[simp] theorem State.modHost_out (s : State) (f) : (s.modHost f).out = s.out := rfl
@[simp] theorem State.modHost_free (s : State) (f) : (s.modHost f).free = s.free := rfl
@[simp] theorem State.modHost_clock (s : State) (f) : (s.modHost f).clock = s.clock := rfl
@[simp] theorem State.modHost_sys (s : State) (f) : (s.modHost f).sys = s.sys := rfl
@[simp] theorem State.modHost_time (s : State) (f) : (s.modHost f).time = s.time := rfl
@[simp] theorem State.modHost_tregs (s : State) (f) : (s.modHost f).tregs = s.tregs := rfl
@[simp] theorem State.modHost_par (s : State) (f) : (s.modHost f).par = s.par := rfl
@[simp] theorem State.modHost_mbx (s : State) (f) : (s.modHost f).mbx = s.mbx := rfl
@[simp] theorem State.modHost_fw (s : State) (f) : (s.modHost f).fw = s.fw := rfl
@[simp] theorem State.modHost_ep (s : State) (f) : (s.modHost f).ep = s.ep := rfl
@[simp] theorem State.modHost_pwr (s : State) (f) : (s.modHost f).pwr = s.pwr := rfl
@[simp] theorem State.modHost_mode (s : State) (f) : (s.modHost f).mode = s.mode := rfl
@[simp] theorem State.modHost_bbx (s : State) (f) : (s.modHost f).bbx = s.bbx := rfl
@[simp] theorem State.modHost_fuse (s : State) (f) : (s.modHost f).fuse = s.fuse := rfl
@[simp] theorem State.modHost_flush (s : State) (f) : (s.modHost f).flush = s.flush := rfl
@[simp] theorem State.modHost_pins (s : State) (f) : (s.modHost f).pins = s.pins := rfl
@[simp] theorem State.modHost_groups (s : State) (f) : (s.modHost f).groups = s.groups := rfl
@[simp] theorem State.modHost_flash (s : State) (f) : (s.modHost f).flash = s.flash := rfl
@[simp] theorem State.modHost_host (s : State) (f) : (s.modHost f).host = f s.host := rfl
@[simp] theorem State.modHost_net (s : State) (f) : (s.modHost f).net = s.net := rfl
@[simp] theorem State.modHost_scrim (s : State) (f) : (s.modHost f).scrim = s.scrim := rfl
@[simp] theorem State.modHost_wit (s : State) (f) : (s.modHost f).wit = s.wit := rfl
@[simp] theorem State.modHost_ciph (s : State) (f) : (s.modHost f).ciph = s.ciph := rfl

/-! ### modSess -/

@[simp] theorem State.modSess_pending (s : State) (n f) : (s.modSess n f).pending = s.pending := rfl
@[simp] theorem State.modSess_out (s : State) (n f) : (s.modSess n f).out = s.out := rfl
@[simp] theorem State.modSess_free (s : State) (n f) : (s.modSess n f).free = s.free := rfl
@[simp] theorem State.modSess_clock (s : State) (n f) : (s.modSess n f).clock = s.clock := rfl
@[simp] theorem State.modSess_sys (s : State) (n f) : (s.modSess n f).sys = s.sys := rfl
@[simp] theorem State.modSess_time (s : State) (n f) : (s.modSess n f).time = s.time := rfl
@[simp] theorem State.modSess_tregs (s : State) (n f) : (s.modSess n f).tregs = s.tregs := rfl
@[simp] theorem State.modSess_par (s : State) (n f) : (s.modSess n f).par = s.par := rfl
@[simp] theorem State.modSess_mbx (s : State) (n f) : (s.modSess n f).mbx = s.mbx := rfl
@[simp] theorem State.modSess_fw (s : State) (n f) : (s.modSess n f).fw = s.fw := rfl
@[simp] theorem State.modSess_ep (s : State) (n f) : (s.modSess n f).ep = s.ep := rfl
@[simp] theorem State.modSess_pwr (s : State) (n f) : (s.modSess n f).pwr = s.pwr := rfl
@[simp] theorem State.modSess_mode (s : State) (n f) : (s.modSess n f).mode = s.mode := rfl
@[simp] theorem State.modSess_bbx (s : State) (n f) : (s.modSess n f).bbx = s.bbx := rfl
@[simp] theorem State.modSess_fuse (s : State) (n f) : (s.modSess n f).fuse = s.fuse := rfl
@[simp] theorem State.modSess_flush (s : State) (n f) : (s.modSess n f).flush = s.flush := rfl
@[simp] theorem State.modSess_pins (s : State) (n f) : (s.modSess n f).pins = s.pins := rfl
@[simp] theorem State.modSess_groups (s : State) (n f) : (s.modSess n f).groups = s.groups := rfl
@[simp] theorem State.modSess_flash (s : State) (n f) : (s.modSess n f).flash = s.flash := rfl
@[simp] theorem State.modSess_net (s : State) (n f) : (s.modSess n f).net = s.net := rfl
@[simp] theorem State.modSess_scrim (s : State) (n f) : (s.modSess n f).scrim = s.scrim := rfl
@[simp] theorem State.modSess_wit (s : State) (n f) : (s.modSess n f).wit = s.wit := rfl
@[simp] theorem State.modSess_ciph (s : State) (n f) : (s.modSess n f).ciph = s.ciph := rfl

/-! ### modCmd -/

@[simp] theorem State.modCmd_pending (s : State) (n f) : (s.modCmd n f).pending = s.pending := rfl
@[simp] theorem State.modCmd_out (s : State) (n f) : (s.modCmd n f).out = s.out := rfl
@[simp] theorem State.modCmd_free (s : State) (n f) : (s.modCmd n f).free = s.free := rfl
@[simp] theorem State.modCmd_clock (s : State) (n f) : (s.modCmd n f).clock = s.clock := rfl
@[simp] theorem State.modCmd_sys (s : State) (n f) : (s.modCmd n f).sys = s.sys := rfl
@[simp] theorem State.modCmd_time (s : State) (n f) : (s.modCmd n f).time = s.time := rfl
@[simp] theorem State.modCmd_tregs (s : State) (n f) : (s.modCmd n f).tregs = s.tregs := rfl
@[simp] theorem State.modCmd_par (s : State) (n f) : (s.modCmd n f).par = s.par := rfl
@[simp] theorem State.modCmd_mbx (s : State) (n f) : (s.modCmd n f).mbx = s.mbx := rfl
@[simp] theorem State.modCmd_fw (s : State) (n f) : (s.modCmd n f).fw = s.fw := rfl
@[simp] theorem State.modCmd_ep (s : State) (n f) : (s.modCmd n f).ep = s.ep := rfl
@[simp] theorem State.modCmd_pwr (s : State) (n f) : (s.modCmd n f).pwr = s.pwr := rfl
@[simp] theorem State.modCmd_mode (s : State) (n f) : (s.modCmd n f).mode = s.mode := rfl
@[simp] theorem State.modCmd_bbx (s : State) (n f) : (s.modCmd n f).bbx = s.bbx := rfl
@[simp] theorem State.modCmd_fuse (s : State) (n f) : (s.modCmd n f).fuse = s.fuse := rfl
@[simp] theorem State.modCmd_flush (s : State) (n f) : (s.modCmd n f).flush = s.flush := rfl
@[simp] theorem State.modCmd_pins (s : State) (n f) : (s.modCmd n f).pins = s.pins := rfl
@[simp] theorem State.modCmd_groups (s : State) (n f) : (s.modCmd n f).groups = s.groups := rfl
@[simp] theorem State.modCmd_flash (s : State) (n f) : (s.modCmd n f).flash = s.flash := rfl
@[simp] theorem State.modCmd_net (s : State) (n f) : (s.modCmd n f).net = s.net := rfl
@[simp] theorem State.modCmd_scrim (s : State) (n f) : (s.modCmd n f).scrim = s.scrim := rfl
@[simp] theorem State.modCmd_wit (s : State) (n f) : (s.modCmd n f).wit = s.wit := rfl
@[simp] theorem State.modCmd_ciph (s : State) (n f) : (s.modCmd n f).ciph = s.ciph := rfl

/-! ### modAssoc -/

@[simp] theorem State.modAssoc_pending (s : State) (n f) : (s.modAssoc n f).pending = s.pending := rfl
@[simp] theorem State.modAssoc_out (s : State) (n f) : (s.modAssoc n f).out = s.out := rfl
@[simp] theorem State.modAssoc_free (s : State) (n f) : (s.modAssoc n f).free = s.free := rfl
@[simp] theorem State.modAssoc_clock (s : State) (n f) : (s.modAssoc n f).clock = s.clock := rfl
@[simp] theorem State.modAssoc_sys (s : State) (n f) : (s.modAssoc n f).sys = s.sys := rfl
@[simp] theorem State.modAssoc_time (s : State) (n f) : (s.modAssoc n f).time = s.time := rfl
@[simp] theorem State.modAssoc_tregs (s : State) (n f) : (s.modAssoc n f).tregs = s.tregs := rfl
@[simp] theorem State.modAssoc_par (s : State) (n f) : (s.modAssoc n f).par = s.par := rfl
@[simp] theorem State.modAssoc_mbx (s : State) (n f) : (s.modAssoc n f).mbx = s.mbx := rfl
@[simp] theorem State.modAssoc_fw (s : State) (n f) : (s.modAssoc n f).fw = s.fw := rfl
@[simp] theorem State.modAssoc_ep (s : State) (n f) : (s.modAssoc n f).ep = s.ep := rfl
@[simp] theorem State.modAssoc_pwr (s : State) (n f) : (s.modAssoc n f).pwr = s.pwr := rfl
@[simp] theorem State.modAssoc_mode (s : State) (n f) : (s.modAssoc n f).mode = s.mode := rfl
@[simp] theorem State.modAssoc_bbx (s : State) (n f) : (s.modAssoc n f).bbx = s.bbx := rfl
@[simp] theorem State.modAssoc_fuse (s : State) (n f) : (s.modAssoc n f).fuse = s.fuse := rfl
@[simp] theorem State.modAssoc_flush (s : State) (n f) : (s.modAssoc n f).flush = s.flush := rfl
@[simp] theorem State.modAssoc_pins (s : State) (n f) : (s.modAssoc n f).pins = s.pins := rfl
@[simp] theorem State.modAssoc_groups (s : State) (n f) : (s.modAssoc n f).groups = s.groups := rfl
@[simp] theorem State.modAssoc_flash (s : State) (n f) : (s.modAssoc n f).flash = s.flash := rfl
@[simp] theorem State.modAssoc_net (s : State) (n f) : (s.modAssoc n f).net = s.net := rfl
@[simp] theorem State.modAssoc_scrim (s : State) (n f) : (s.modAssoc n f).scrim = s.scrim := rfl
@[simp] theorem State.modAssoc_wit (s : State) (n f) : (s.modAssoc n f).wit = s.wit := rfl
@[simp] theorem State.modAssoc_ciph (s : State) (n f) : (s.modAssoc n f).ciph = s.ciph := rfl

/-! ### modNs -/

@[simp] theorem State.modNs_pending (s : State) (n f) : (s.modNs n f).pending = s.pending := rfl
@[simp] theorem State.modNs_out (s : State) (n f) : (s.modNs n f).out = s.out := rfl
@[simp] theorem State.modNs_free (s : State) (n f) : (s.modNs n f).free = s.free := rfl
@[simp] theorem State.modNs_clock (s : State) (n f) : (s.modNs n f).clock = s.clock := rfl
@[simp] theorem State.modNs_sys (s : State) (n f) : (s.modNs n f).sys = s.sys := rfl
@[simp] theorem State.modNs_time (s : State) (n f) : (s.modNs n f).time = s.time := rfl
@[simp] theorem State.modNs_tregs (s : State) (n f) : (s.modNs n f).tregs = s.tregs := rfl
@[simp] theorem State.modNs_par (s : State) (n f) : (s.modNs n f).par = s.par := rfl
@[simp] theorem State.modNs_mbx (s : State) (n f) : (s.modNs n f).mbx = s.mbx := rfl
@[simp] theorem State.modNs_fw (s : State) (n f) : (s.modNs n f).fw = s.fw := rfl
@[simp] theorem State.modNs_ep (s : State) (n f) : (s.modNs n f).ep = s.ep := rfl
@[simp] theorem State.modNs_pwr (s : State) (n f) : (s.modNs n f).pwr = s.pwr := rfl
@[simp] theorem State.modNs_mode (s : State) (n f) : (s.modNs n f).mode = s.mode := rfl
@[simp] theorem State.modNs_bbx (s : State) (n f) : (s.modNs n f).bbx = s.bbx := rfl
@[simp] theorem State.modNs_fuse (s : State) (n f) : (s.modNs n f).fuse = s.fuse := rfl
@[simp] theorem State.modNs_flush (s : State) (n f) : (s.modNs n f).flush = s.flush := rfl
@[simp] theorem State.modNs_pins (s : State) (n f) : (s.modNs n f).pins = s.pins := rfl
@[simp] theorem State.modNs_groups (s : State) (n f) : (s.modNs n f).groups = s.groups := rfl
@[simp] theorem State.modNs_flash (s : State) (n f) : (s.modNs n f).flash = s.flash := rfl
@[simp] theorem State.modNs_net (s : State) (n f) : (s.modNs n f).net = s.net := rfl
@[simp] theorem State.modNs_scrim (s : State) (n f) : (s.modNs n f).scrim = s.scrim := rfl
@[simp] theorem State.modNs_wit (s : State) (n f) : (s.modNs n f).wit = s.wit := rfl
@[simp] theorem State.modNs_ciph (s : State) (n f) : (s.modNs n f).ciph = s.ciph := rfl

/-! ### modFlash -/

@[simp] theorem State.modFlash_pending (s : State) (f) : (s.modFlash f).pending = s.pending := rfl
@[simp] theorem State.modFlash_out (s : State) (f) : (s.modFlash f).out = s.out := rfl
@[simp] theorem State.modFlash_free (s : State) (f) : (s.modFlash f).free = s.free := rfl
@[simp] theorem State.modFlash_clock (s : State) (f) : (s.modFlash f).clock = s.clock := rfl
@[simp] theorem State.modFlash_sys (s : State) (f) : (s.modFlash f).sys = s.sys := rfl
@[simp] theorem State.modFlash_time (s : State) (f) : (s.modFlash f).time = s.time := rfl
@[simp] theorem State.modFlash_tregs (s : State) (f) : (s.modFlash f).tregs = s.tregs := rfl
@[simp] theorem State.modFlash_par (s : State) (f) : (s.modFlash f).par = s.par := rfl
@[simp] theorem State.modFlash_mbx (s : State) (f) : (s.modFlash f).mbx = s.mbx := rfl
@[simp] theorem State.modFlash_fw (s : State) (f) : (s.modFlash f).fw = s.fw := rfl
@[simp] theorem State.modFlash_ep (s : State) (f) : (s.modFlash f).ep = s.ep := rfl
@[simp] theorem State.modFlash_pwr (s : State) (f) : (s.modFlash f).pwr = s.pwr := rfl
@[simp] theorem State.modFlash_mode (s : State) (f) : (s.modFlash f).mode = s.mode := rfl
@[simp] theorem State.modFlash_bbx (s : State) (f) : (s.modFlash f).bbx = s.bbx := rfl
@[simp] theorem State.modFlash_fuse (s : State) (f) : (s.modFlash f).fuse = s.fuse := rfl
@[simp] theorem State.modFlash_flush (s : State) (f) : (s.modFlash f).flush = s.flush := rfl
@[simp] theorem State.modFlash_pins (s : State) (f) : (s.modFlash f).pins = s.pins := rfl
@[simp] theorem State.modFlash_groups (s : State) (f) : (s.modFlash f).groups = s.groups := rfl
@[simp] theorem State.modFlash_flash (s : State) (f) : (s.modFlash f).flash = f s.flash := rfl
@[simp] theorem State.modFlash_host (s : State) (f) : (s.modFlash f).host = s.host := rfl
@[simp] theorem State.modFlash_net (s : State) (f) : (s.modFlash f).net = s.net := rfl
@[simp] theorem State.modFlash_scrim (s : State) (f) : (s.modFlash f).scrim = s.scrim := rfl
@[simp] theorem State.modFlash_wit (s : State) (f) : (s.modFlash f).wit = s.wit := rfl
@[simp] theorem State.modFlash_ciph (s : State) (f) : (s.modFlash f).ciph = s.ciph := rfl

/-! ### modBuf -/

@[simp] theorem State.modBuf_pending (s : State) (n f) : (s.modBuf n f).pending = s.pending := rfl
@[simp] theorem State.modBuf_out (s : State) (n f) : (s.modBuf n f).out = s.out := rfl
@[simp] theorem State.modBuf_free (s : State) (n f) : (s.modBuf n f).free = s.free := rfl
@[simp] theorem State.modBuf_clock (s : State) (n f) : (s.modBuf n f).clock = s.clock := rfl
@[simp] theorem State.modBuf_sys (s : State) (n f) : (s.modBuf n f).sys = s.sys := rfl
@[simp] theorem State.modBuf_time (s : State) (n f) : (s.modBuf n f).time = s.time := rfl
@[simp] theorem State.modBuf_tregs (s : State) (n f) : (s.modBuf n f).tregs = s.tregs := rfl
@[simp] theorem State.modBuf_par (s : State) (n f) : (s.modBuf n f).par = s.par := rfl
@[simp] theorem State.modBuf_mbx (s : State) (n f) : (s.modBuf n f).mbx = s.mbx := rfl
@[simp] theorem State.modBuf_fw (s : State) (n f) : (s.modBuf n f).fw = s.fw := rfl
@[simp] theorem State.modBuf_ep (s : State) (n f) : (s.modBuf n f).ep = s.ep := rfl
@[simp] theorem State.modBuf_pwr (s : State) (n f) : (s.modBuf n f).pwr = s.pwr := rfl
@[simp] theorem State.modBuf_mode (s : State) (n f) : (s.modBuf n f).mode = s.mode := rfl
@[simp] theorem State.modBuf_bbx (s : State) (n f) : (s.modBuf n f).bbx = s.bbx := rfl
@[simp] theorem State.modBuf_fuse (s : State) (n f) : (s.modBuf n f).fuse = s.fuse := rfl
@[simp] theorem State.modBuf_flush (s : State) (n f) : (s.modBuf n f).flush = s.flush := rfl
@[simp] theorem State.modBuf_pins (s : State) (n f) : (s.modBuf n f).pins = s.pins := rfl
@[simp] theorem State.modBuf_groups (s : State) (n f) : (s.modBuf n f).groups = s.groups := rfl
@[simp] theorem State.modBuf_host (s : State) (n f) : (s.modBuf n f).host = s.host := rfl
@[simp] theorem State.modBuf_net (s : State) (n f) : (s.modBuf n f).net = s.net := rfl
@[simp] theorem State.modBuf_scrim (s : State) (n f) : (s.modBuf n f).scrim = s.scrim := rfl
@[simp] theorem State.modBuf_wit (s : State) (n f) : (s.modBuf n f).wit = s.wit := rfl
@[simp] theorem State.modBuf_ciph (s : State) (n f) : (s.modBuf n f).ciph = s.ciph := rfl

/-! ### modOp -/

@[simp] theorem State.modOp_pending (s : State) (n f) : (s.modOp n f).pending = s.pending := rfl
@[simp] theorem State.modOp_out (s : State) (n f) : (s.modOp n f).out = s.out := rfl
@[simp] theorem State.modOp_free (s : State) (n f) : (s.modOp n f).free = s.free := rfl
@[simp] theorem State.modOp_clock (s : State) (n f) : (s.modOp n f).clock = s.clock := rfl
@[simp] theorem State.modOp_sys (s : State) (n f) : (s.modOp n f).sys = s.sys := rfl
@[simp] theorem State.modOp_time (s : State) (n f) : (s.modOp n f).time = s.time := rfl
@[simp] theorem State.modOp_tregs (s : State) (n f) : (s.modOp n f).tregs = s.tregs := rfl
@[simp] theorem State.modOp_par (s : State) (n f) : (s.modOp n f).par = s.par := rfl
@[simp] theorem State.modOp_mbx (s : State) (n f) : (s.modOp n f).mbx = s.mbx := rfl
@[simp] theorem State.modOp_fw (s : State) (n f) : (s.modOp n f).fw = s.fw := rfl
@[simp] theorem State.modOp_ep (s : State) (n f) : (s.modOp n f).ep = s.ep := rfl
@[simp] theorem State.modOp_pwr (s : State) (n f) : (s.modOp n f).pwr = s.pwr := rfl
@[simp] theorem State.modOp_mode (s : State) (n f) : (s.modOp n f).mode = s.mode := rfl
@[simp] theorem State.modOp_bbx (s : State) (n f) : (s.modOp n f).bbx = s.bbx := rfl
@[simp] theorem State.modOp_fuse (s : State) (n f) : (s.modOp n f).fuse = s.fuse := rfl
@[simp] theorem State.modOp_flush (s : State) (n f) : (s.modOp n f).flush = s.flush := rfl
@[simp] theorem State.modOp_pins (s : State) (n f) : (s.modOp n f).pins = s.pins := rfl
@[simp] theorem State.modOp_groups (s : State) (n f) : (s.modOp n f).groups = s.groups := rfl
@[simp] theorem State.modOp_host (s : State) (n f) : (s.modOp n f).host = s.host := rfl
@[simp] theorem State.modOp_net (s : State) (n f) : (s.modOp n f).net = s.net := rfl
@[simp] theorem State.modOp_scrim (s : State) (n f) : (s.modOp n f).scrim = s.scrim := rfl
@[simp] theorem State.modOp_wit (s : State) (n f) : (s.modOp n f).wit = s.wit := rfl
@[simp] theorem State.modOp_ciph (s : State) (n f) : (s.modOp n f).ciph = s.ciph := rfl

/-! ### modSlot -/

@[simp] theorem State.modSlot_pending (s : State) (n f) : (s.modSlot n f).pending = s.pending := rfl
@[simp] theorem State.modSlot_out (s : State) (n f) : (s.modSlot n f).out = s.out := rfl
@[simp] theorem State.modSlot_free (s : State) (n f) : (s.modSlot n f).free = s.free := rfl
@[simp] theorem State.modSlot_clock (s : State) (n f) : (s.modSlot n f).clock = s.clock := rfl
@[simp] theorem State.modSlot_sys (s : State) (n f) : (s.modSlot n f).sys = s.sys := rfl
@[simp] theorem State.modSlot_time (s : State) (n f) : (s.modSlot n f).time = s.time := rfl
@[simp] theorem State.modSlot_tregs (s : State) (n f) : (s.modSlot n f).tregs = s.tregs := rfl
@[simp] theorem State.modSlot_par (s : State) (n f) : (s.modSlot n f).par = s.par := rfl
@[simp] theorem State.modSlot_mbx (s : State) (n f) : (s.modSlot n f).mbx = s.mbx := rfl
@[simp] theorem State.modSlot_fw (s : State) (n f) : (s.modSlot n f).fw = s.fw := rfl
@[simp] theorem State.modSlot_ep (s : State) (n f) : (s.modSlot n f).ep = s.ep := rfl
@[simp] theorem State.modSlot_pwr (s : State) (n f) : (s.modSlot n f).pwr = s.pwr := rfl
@[simp] theorem State.modSlot_mode (s : State) (n f) : (s.modSlot n f).mode = s.mode := rfl
@[simp] theorem State.modSlot_bbx (s : State) (n f) : (s.modSlot n f).bbx = s.bbx := rfl
@[simp] theorem State.modSlot_fuse (s : State) (n f) : (s.modSlot n f).fuse = s.fuse := rfl
@[simp] theorem State.modSlot_flush (s : State) (n f) : (s.modSlot n f).flush = s.flush := rfl
@[simp] theorem State.modSlot_pins (s : State) (n f) : (s.modSlot n f).pins = s.pins := rfl
@[simp] theorem State.modSlot_groups (s : State) (n f) : (s.modSlot n f).groups = s.groups := rfl
@[simp] theorem State.modSlot_host (s : State) (n f) : (s.modSlot n f).host = s.host := rfl
@[simp] theorem State.modSlot_net (s : State) (n f) : (s.modSlot n f).net = s.net := rfl
@[simp] theorem State.modSlot_scrim (s : State) (n f) : (s.modSlot n f).scrim = s.scrim := rfl
@[simp] theorem State.modSlot_wit (s : State) (n f) : (s.modSlot n f).wit = s.wit := rfl
@[simp] theorem State.modSlot_ciph (s : State) (n f) : (s.modSlot n f).ciph = s.ciph := rfl

/-! ### modDie -/

@[simp] theorem State.modDie_pending (s : State) (b d f) : (s.modDie b d f).pending = s.pending := rfl
@[simp] theorem State.modDie_out (s : State) (b d f) : (s.modDie b d f).out = s.out := rfl
@[simp] theorem State.modDie_free (s : State) (b d f) : (s.modDie b d f).free = s.free := rfl
@[simp] theorem State.modDie_clock (s : State) (b d f) : (s.modDie b d f).clock = s.clock := rfl
@[simp] theorem State.modDie_sys (s : State) (b d f) : (s.modDie b d f).sys = s.sys := rfl
@[simp] theorem State.modDie_time (s : State) (b d f) : (s.modDie b d f).time = s.time := rfl
@[simp] theorem State.modDie_tregs (s : State) (b d f) : (s.modDie b d f).tregs = s.tregs := rfl
@[simp] theorem State.modDie_par (s : State) (b d f) : (s.modDie b d f).par = s.par := rfl
@[simp] theorem State.modDie_mbx (s : State) (b d f) : (s.modDie b d f).mbx = s.mbx := rfl
@[simp] theorem State.modDie_fw (s : State) (b d f) : (s.modDie b d f).fw = s.fw := rfl
@[simp] theorem State.modDie_ep (s : State) (b d f) : (s.modDie b d f).ep = s.ep := rfl
@[simp] theorem State.modDie_pwr (s : State) (b d f) : (s.modDie b d f).pwr = s.pwr := rfl
@[simp] theorem State.modDie_mode (s : State) (b d f) : (s.modDie b d f).mode = s.mode := rfl
@[simp] theorem State.modDie_bbx (s : State) (b d f) : (s.modDie b d f).bbx = s.bbx := rfl
@[simp] theorem State.modDie_fuse (s : State) (b d f) : (s.modDie b d f).fuse = s.fuse := rfl
@[simp] theorem State.modDie_flush (s : State) (b d f) : (s.modDie b d f).flush = s.flush := rfl
@[simp] theorem State.modDie_pins (s : State) (b d f) : (s.modDie b d f).pins = s.pins := rfl
@[simp] theorem State.modDie_groups (s : State) (b d f) : (s.modDie b d f).groups = s.groups := rfl
@[simp] theorem State.modDie_host (s : State) (b d f) : (s.modDie b d f).host = s.host := rfl
@[simp] theorem State.modDie_net (s : State) (b d f) : (s.modDie b d f).net = s.net := rfl
@[simp] theorem State.modDie_scrim (s : State) (b d f) : (s.modDie b d f).scrim = s.scrim := rfl
@[simp] theorem State.modDie_wit (s : State) (b d f) : (s.modDie b d f).wit = s.wit := rfl
@[simp] theorem State.modDie_ciph (s : State) (b d f) : (s.modDie b d f).ciph = s.ciph := rfl

/-! ### modBay -/

@[simp] theorem State.modBay_pending (s : State) (n f) : (s.modBay n f).pending = s.pending := rfl
@[simp] theorem State.modBay_out (s : State) (n f) : (s.modBay n f).out = s.out := rfl
@[simp] theorem State.modBay_free (s : State) (n f) : (s.modBay n f).free = s.free := rfl
@[simp] theorem State.modBay_clock (s : State) (n f) : (s.modBay n f).clock = s.clock := rfl
@[simp] theorem State.modBay_sys (s : State) (n f) : (s.modBay n f).sys = s.sys := rfl
@[simp] theorem State.modBay_time (s : State) (n f) : (s.modBay n f).time = s.time := rfl
@[simp] theorem State.modBay_tregs (s : State) (n f) : (s.modBay n f).tregs = s.tregs := rfl
@[simp] theorem State.modBay_par (s : State) (n f) : (s.modBay n f).par = s.par := rfl
@[simp] theorem State.modBay_mbx (s : State) (n f) : (s.modBay n f).mbx = s.mbx := rfl
@[simp] theorem State.modBay_fw (s : State) (n f) : (s.modBay n f).fw = s.fw := rfl
@[simp] theorem State.modBay_ep (s : State) (n f) : (s.modBay n f).ep = s.ep := rfl
@[simp] theorem State.modBay_pwr (s : State) (n f) : (s.modBay n f).pwr = s.pwr := rfl
@[simp] theorem State.modBay_mode (s : State) (n f) : (s.modBay n f).mode = s.mode := rfl
@[simp] theorem State.modBay_bbx (s : State) (n f) : (s.modBay n f).bbx = s.bbx := rfl
@[simp] theorem State.modBay_fuse (s : State) (n f) : (s.modBay n f).fuse = s.fuse := rfl
@[simp] theorem State.modBay_flush (s : State) (n f) : (s.modBay n f).flush = s.flush := rfl
@[simp] theorem State.modBay_pins (s : State) (n f) : (s.modBay n f).pins = s.pins := rfl
@[simp] theorem State.modBay_groups (s : State) (n f) : (s.modBay n f).groups = s.groups := rfl
@[simp] theorem State.modBay_host (s : State) (n f) : (s.modBay n f).host = s.host := rfl
@[simp] theorem State.modBay_net (s : State) (n f) : (s.modBay n f).net = s.net := rfl
@[simp] theorem State.modBay_scrim (s : State) (n f) : (s.modBay n f).scrim = s.scrim := rfl
@[simp] theorem State.modBay_wit (s : State) (n f) : (s.modBay n f).wit = s.wit := rfl
@[simp] theorem State.modBay_ciph (s : State) (n f) : (s.modBay n f).ciph = s.ciph := rfl

/-! ### modGroup -/

@[simp] theorem State.modGroup_pending (s : State) (g f) : (s.modGroup g f).pending = s.pending := rfl
@[simp] theorem State.modGroup_out (s : State) (g f) : (s.modGroup g f).out = s.out := rfl
@[simp] theorem State.modGroup_free (s : State) (g f) : (s.modGroup g f).free = s.free := rfl
@[simp] theorem State.modGroup_clock (s : State) (g f) : (s.modGroup g f).clock = s.clock := rfl
@[simp] theorem State.modGroup_sys (s : State) (g f) : (s.modGroup g f).sys = s.sys := rfl
@[simp] theorem State.modGroup_time (s : State) (g f) : (s.modGroup g f).time = s.time := rfl
@[simp] theorem State.modGroup_tregs (s : State) (g f) : (s.modGroup g f).tregs = s.tregs := rfl
@[simp] theorem State.modGroup_par (s : State) (g f) : (s.modGroup g f).par = s.par := rfl
@[simp] theorem State.modGroup_mbx (s : State) (g f) : (s.modGroup g f).mbx = s.mbx := rfl
@[simp] theorem State.modGroup_fw (s : State) (g f) : (s.modGroup g f).fw = s.fw := rfl
@[simp] theorem State.modGroup_ep (s : State) (g f) : (s.modGroup g f).ep = s.ep := rfl
@[simp] theorem State.modGroup_pwr (s : State) (g f) : (s.modGroup g f).pwr = s.pwr := rfl
@[simp] theorem State.modGroup_mode (s : State) (g f) : (s.modGroup g f).mode = s.mode := rfl
@[simp] theorem State.modGroup_bbx (s : State) (g f) : (s.modGroup g f).bbx = s.bbx := rfl
@[simp] theorem State.modGroup_fuse (s : State) (g f) : (s.modGroup g f).fuse = s.fuse := rfl
@[simp] theorem State.modGroup_flush (s : State) (g f) : (s.modGroup g f).flush = s.flush := rfl
@[simp] theorem State.modGroup_pins (s : State) (g f) : (s.modGroup g f).pins = s.pins := rfl
@[simp] theorem State.modGroup_groups (s : State) (g f) : (s.modGroup g f).groups = upd s.groups g f := rfl
@[simp] theorem State.modGroup_flash (s : State) (g f) : (s.modGroup g f).flash = s.flash := rfl
@[simp] theorem State.modGroup_host (s : State) (g f) : (s.modGroup g f).host = s.host := rfl
@[simp] theorem State.modGroup_net (s : State) (g f) : (s.modGroup g f).net = s.net := rfl
@[simp] theorem State.modGroup_scrim (s : State) (g f) : (s.modGroup g f).scrim = s.scrim := rfl
@[simp] theorem State.modGroup_wit (s : State) (g f) : (s.modGroup g f).wit = s.wit := rfl
@[simp] theorem State.modGroup_ciph (s : State) (g f) : (s.modGroup g f).ciph = s.ciph := rfl

/-! ### modCtrs -/

@[simp] theorem State.modCtrs_pending (s : State) (g f) : (s.modCtrs g f).pending = s.pending := rfl
@[simp] theorem State.modCtrs_out (s : State) (g f) : (s.modCtrs g f).out = s.out := rfl
@[simp] theorem State.modCtrs_free (s : State) (g f) : (s.modCtrs g f).free = s.free := rfl
@[simp] theorem State.modCtrs_clock (s : State) (g f) : (s.modCtrs g f).clock = s.clock := rfl
@[simp] theorem State.modCtrs_sys (s : State) (g f) : (s.modCtrs g f).sys = s.sys := rfl
@[simp] theorem State.modCtrs_time (s : State) (g f) : (s.modCtrs g f).time = s.time := rfl
@[simp] theorem State.modCtrs_tregs (s : State) (g f) : (s.modCtrs g f).tregs = s.tregs := rfl
@[simp] theorem State.modCtrs_par (s : State) (g f) : (s.modCtrs g f).par = s.par := rfl
@[simp] theorem State.modCtrs_mbx (s : State) (g f) : (s.modCtrs g f).mbx = s.mbx := rfl
@[simp] theorem State.modCtrs_fw (s : State) (g f) : (s.modCtrs g f).fw = s.fw := rfl
@[simp] theorem State.modCtrs_ep (s : State) (g f) : (s.modCtrs g f).ep = s.ep := rfl
@[simp] theorem State.modCtrs_pwr (s : State) (g f) : (s.modCtrs g f).pwr = s.pwr := rfl
@[simp] theorem State.modCtrs_mode (s : State) (g f) : (s.modCtrs g f).mode = s.mode := rfl
@[simp] theorem State.modCtrs_bbx (s : State) (g f) : (s.modCtrs g f).bbx = s.bbx := rfl
@[simp] theorem State.modCtrs_fuse (s : State) (g f) : (s.modCtrs g f).fuse = s.fuse := rfl
@[simp] theorem State.modCtrs_flush (s : State) (g f) : (s.modCtrs g f).flush = s.flush := rfl
@[simp] theorem State.modCtrs_pins (s : State) (g f) : (s.modCtrs g f).pins = s.pins := rfl
@[simp] theorem State.modCtrs_flash (s : State) (g f) : (s.modCtrs g f).flash = s.flash := rfl
@[simp] theorem State.modCtrs_host (s : State) (g f) : (s.modCtrs g f).host = s.host := rfl
@[simp] theorem State.modCtrs_net (s : State) (g f) : (s.modCtrs g f).net = s.net := rfl
@[simp] theorem State.modCtrs_scrim (s : State) (g f) : (s.modCtrs g f).scrim = s.scrim := rfl
@[simp] theorem State.modCtrs_wit (s : State) (g f) : (s.modCtrs g f).wit = s.wit := rfl
@[simp] theorem State.modCtrs_ciph (s : State) (g f) : (s.modCtrs g f).ciph = s.ciph := rfl

/-! ### modPchan -/

@[simp] theorem State.modPchan_pending (s : State) (b f) : (s.modPchan b f).pending = s.pending := rfl
@[simp] theorem State.modPchan_out (s : State) (b f) : (s.modPchan b f).out = s.out := rfl
@[simp] theorem State.modPchan_free (s : State) (b f) : (s.modPchan b f).free = s.free := rfl
@[simp] theorem State.modPchan_clock (s : State) (b f) : (s.modPchan b f).clock = s.clock := rfl
@[simp] theorem State.modPchan_sys (s : State) (b f) : (s.modPchan b f).sys = s.sys := rfl
@[simp] theorem State.modPchan_time (s : State) (b f) : (s.modPchan b f).time = s.time := rfl
@[simp] theorem State.modPchan_tregs (s : State) (b f) : (s.modPchan b f).tregs = s.tregs := rfl
@[simp] theorem State.modPchan_par (s : State) (b f) : (s.modPchan b f).par = s.par := rfl
@[simp] theorem State.modPchan_mbx (s : State) (b f) : (s.modPchan b f).mbx = s.mbx := rfl
@[simp] theorem State.modPchan_fw (s : State) (b f) : (s.modPchan b f).fw = s.fw := rfl
@[simp] theorem State.modPchan_ep (s : State) (b f) : (s.modPchan b f).ep = s.ep := rfl
@[simp] theorem State.modPchan_mode (s : State) (b f) : (s.modPchan b f).mode = s.mode := rfl
@[simp] theorem State.modPchan_bbx (s : State) (b f) : (s.modPchan b f).bbx = s.bbx := rfl
@[simp] theorem State.modPchan_fuse (s : State) (b f) : (s.modPchan b f).fuse = s.fuse := rfl
@[simp] theorem State.modPchan_flush (s : State) (b f) : (s.modPchan b f).flush = s.flush := rfl
@[simp] theorem State.modPchan_pins (s : State) (b f) : (s.modPchan b f).pins = s.pins := rfl
@[simp] theorem State.modPchan_groups (s : State) (b f) : (s.modPchan b f).groups = s.groups := rfl
@[simp] theorem State.modPchan_flash (s : State) (b f) : (s.modPchan b f).flash = s.flash := rfl
@[simp] theorem State.modPchan_host (s : State) (b f) : (s.modPchan b f).host = s.host := rfl
@[simp] theorem State.modPchan_net (s : State) (b f) : (s.modPchan b f).net = s.net := rfl
@[simp] theorem State.modPchan_scrim (s : State) (b f) : (s.modPchan b f).scrim = s.scrim := rfl
@[simp] theorem State.modPchan_wit (s : State) (b f) : (s.modPchan b f).wit = s.wit := rfl
@[simp] theorem State.modPchan_ciph (s : State) (b f) : (s.modPchan b f).ciph = s.ciph := rfl

/-! ### modNet -/

@[simp] theorem State.modNet_pending (s : State) (f) : (s.modNet f).pending = s.pending := rfl
@[simp] theorem State.modNet_out (s : State) (f) : (s.modNet f).out = s.out := rfl
@[simp] theorem State.modNet_free (s : State) (f) : (s.modNet f).free = s.free := rfl
@[simp] theorem State.modNet_clock (s : State) (f) : (s.modNet f).clock = s.clock := rfl
@[simp] theorem State.modNet_sys (s : State) (f) : (s.modNet f).sys = s.sys := rfl
@[simp] theorem State.modNet_time (s : State) (f) : (s.modNet f).time = s.time := rfl
@[simp] theorem State.modNet_tregs (s : State) (f) : (s.modNet f).tregs = s.tregs := rfl
@[simp] theorem State.modNet_par (s : State) (f) : (s.modNet f).par = s.par := rfl
@[simp] theorem State.modNet_mbx (s : State) (f) : (s.modNet f).mbx = s.mbx := rfl
@[simp] theorem State.modNet_fw (s : State) (f) : (s.modNet f).fw = s.fw := rfl
@[simp] theorem State.modNet_ep (s : State) (f) : (s.modNet f).ep = s.ep := rfl
@[simp] theorem State.modNet_pwr (s : State) (f) : (s.modNet f).pwr = s.pwr := rfl
@[simp] theorem State.modNet_mode (s : State) (f) : (s.modNet f).mode = s.mode := rfl
@[simp] theorem State.modNet_bbx (s : State) (f) : (s.modNet f).bbx = s.bbx := rfl
@[simp] theorem State.modNet_fuse (s : State) (f) : (s.modNet f).fuse = s.fuse := rfl
@[simp] theorem State.modNet_flush (s : State) (f) : (s.modNet f).flush = s.flush := rfl
@[simp] theorem State.modNet_pins (s : State) (f) : (s.modNet f).pins = s.pins := rfl
@[simp] theorem State.modNet_groups (s : State) (f) : (s.modNet f).groups = s.groups := rfl
@[simp] theorem State.modNet_flash (s : State) (f) : (s.modNet f).flash = s.flash := rfl
@[simp] theorem State.modNet_host (s : State) (f) : (s.modNet f).host = s.host := rfl
@[simp] theorem State.modNet_net (s : State) (f) : (s.modNet f).net = f s.net := rfl
@[simp] theorem State.modNet_scrim (s : State) (f) : (s.modNet f).scrim = s.scrim := rfl
@[simp] theorem State.modNet_wit (s : State) (f) : (s.modNet f).wit = s.wit := rfl
@[simp] theorem State.modNet_ciph (s : State) (f) : (s.modNet f).ciph = s.ciph := rfl

/-! ### modPort -/

@[simp] theorem State.modPort_pending (s : State) (p f) : (s.modPort p f).pending = s.pending := rfl
@[simp] theorem State.modPort_out (s : State) (p f) : (s.modPort p f).out = s.out := rfl
@[simp] theorem State.modPort_free (s : State) (p f) : (s.modPort p f).free = s.free := rfl
@[simp] theorem State.modPort_clock (s : State) (p f) : (s.modPort p f).clock = s.clock := rfl
@[simp] theorem State.modPort_sys (s : State) (p f) : (s.modPort p f).sys = s.sys := rfl
@[simp] theorem State.modPort_time (s : State) (p f) : (s.modPort p f).time = s.time := rfl
@[simp] theorem State.modPort_tregs (s : State) (p f) : (s.modPort p f).tregs = s.tregs := rfl
@[simp] theorem State.modPort_par (s : State) (p f) : (s.modPort p f).par = s.par := rfl
@[simp] theorem State.modPort_mbx (s : State) (p f) : (s.modPort p f).mbx = s.mbx := rfl
@[simp] theorem State.modPort_fw (s : State) (p f) : (s.modPort p f).fw = s.fw := rfl
@[simp] theorem State.modPort_ep (s : State) (p f) : (s.modPort p f).ep = s.ep := rfl
@[simp] theorem State.modPort_pwr (s : State) (p f) : (s.modPort p f).pwr = s.pwr := rfl
@[simp] theorem State.modPort_mode (s : State) (p f) : (s.modPort p f).mode = s.mode := rfl
@[simp] theorem State.modPort_bbx (s : State) (p f) : (s.modPort p f).bbx = s.bbx := rfl
@[simp] theorem State.modPort_fuse (s : State) (p f) : (s.modPort p f).fuse = s.fuse := rfl
@[simp] theorem State.modPort_flush (s : State) (p f) : (s.modPort p f).flush = s.flush := rfl
@[simp] theorem State.modPort_pins (s : State) (p f) : (s.modPort p f).pins = s.pins := rfl
@[simp] theorem State.modPort_groups (s : State) (p f) : (s.modPort p f).groups = s.groups := rfl
@[simp] theorem State.modPort_flash (s : State) (p f) : (s.modPort p f).flash = s.flash := rfl
@[simp] theorem State.modPort_host (s : State) (p f) : (s.modPort p f).host = s.host := rfl
@[simp] theorem State.modPort_scrim (s : State) (p f) : (s.modPort p f).scrim = s.scrim := rfl
@[simp] theorem State.modPort_wit (s : State) (p f) : (s.modPort p f).wit = s.wit := rfl
@[simp] theorem State.modPort_ciph (s : State) (p f) : (s.modPort p f).ciph = s.ciph := rfl

/-! ### modSub -/

@[simp] theorem State.modSub_pending (s : State) (p i f) : (s.modSub p i f).pending = s.pending := rfl
@[simp] theorem State.modSub_out (s : State) (p i f) : (s.modSub p i f).out = s.out := rfl
@[simp] theorem State.modSub_free (s : State) (p i f) : (s.modSub p i f).free = s.free := rfl
@[simp] theorem State.modSub_clock (s : State) (p i f) : (s.modSub p i f).clock = s.clock := rfl
@[simp] theorem State.modSub_sys (s : State) (p i f) : (s.modSub p i f).sys = s.sys := rfl
@[simp] theorem State.modSub_time (s : State) (p i f) : (s.modSub p i f).time = s.time := rfl
@[simp] theorem State.modSub_tregs (s : State) (p i f) : (s.modSub p i f).tregs = s.tregs := rfl
@[simp] theorem State.modSub_par (s : State) (p i f) : (s.modSub p i f).par = s.par := rfl
@[simp] theorem State.modSub_mbx (s : State) (p i f) : (s.modSub p i f).mbx = s.mbx := rfl
@[simp] theorem State.modSub_fw (s : State) (p i f) : (s.modSub p i f).fw = s.fw := rfl
@[simp] theorem State.modSub_ep (s : State) (p i f) : (s.modSub p i f).ep = s.ep := rfl
@[simp] theorem State.modSub_pwr (s : State) (p i f) : (s.modSub p i f).pwr = s.pwr := rfl
@[simp] theorem State.modSub_mode (s : State) (p i f) : (s.modSub p i f).mode = s.mode := rfl
@[simp] theorem State.modSub_bbx (s : State) (p i f) : (s.modSub p i f).bbx = s.bbx := rfl
@[simp] theorem State.modSub_fuse (s : State) (p i f) : (s.modSub p i f).fuse = s.fuse := rfl
@[simp] theorem State.modSub_flush (s : State) (p i f) : (s.modSub p i f).flush = s.flush := rfl
@[simp] theorem State.modSub_pins (s : State) (p i f) : (s.modSub p i f).pins = s.pins := rfl
@[simp] theorem State.modSub_groups (s : State) (p i f) : (s.modSub p i f).groups = s.groups := rfl
@[simp] theorem State.modSub_flash (s : State) (p i f) : (s.modSub p i f).flash = s.flash := rfl
@[simp] theorem State.modSub_host (s : State) (p i f) : (s.modSub p i f).host = s.host := rfl
@[simp] theorem State.modSub_scrim (s : State) (p i f) : (s.modSub p i f).scrim = s.scrim := rfl
@[simp] theorem State.modSub_wit (s : State) (p i f) : (s.modSub p i f).wit = s.wit := rfl
@[simp] theorem State.modSub_ciph (s : State) (p i f) : (s.modSub p i f).ciph = s.ciph := rfl

/-! ### modScrim -/

@[simp] theorem State.modScrim_pending (s : State) (f) : (s.modScrim f).pending = s.pending := rfl
@[simp] theorem State.modScrim_out (s : State) (f) : (s.modScrim f).out = s.out := rfl
@[simp] theorem State.modScrim_free (s : State) (f) : (s.modScrim f).free = s.free := rfl
@[simp] theorem State.modScrim_clock (s : State) (f) : (s.modScrim f).clock = s.clock := rfl
@[simp] theorem State.modScrim_sys (s : State) (f) : (s.modScrim f).sys = s.sys := rfl
@[simp] theorem State.modScrim_time (s : State) (f) : (s.modScrim f).time = s.time := rfl
@[simp] theorem State.modScrim_tregs (s : State) (f) : (s.modScrim f).tregs = s.tregs := rfl
@[simp] theorem State.modScrim_par (s : State) (f) : (s.modScrim f).par = s.par := rfl
@[simp] theorem State.modScrim_mbx (s : State) (f) : (s.modScrim f).mbx = s.mbx := rfl
@[simp] theorem State.modScrim_fw (s : State) (f) : (s.modScrim f).fw = s.fw := rfl
@[simp] theorem State.modScrim_ep (s : State) (f) : (s.modScrim f).ep = s.ep := rfl
@[simp] theorem State.modScrim_pwr (s : State) (f) : (s.modScrim f).pwr = s.pwr := rfl
@[simp] theorem State.modScrim_mode (s : State) (f) : (s.modScrim f).mode = s.mode := rfl
@[simp] theorem State.modScrim_bbx (s : State) (f) : (s.modScrim f).bbx = s.bbx := rfl
@[simp] theorem State.modScrim_fuse (s : State) (f) : (s.modScrim f).fuse = s.fuse := rfl
@[simp] theorem State.modScrim_flush (s : State) (f) : (s.modScrim f).flush = s.flush := rfl
@[simp] theorem State.modScrim_pins (s : State) (f) : (s.modScrim f).pins = s.pins := rfl
@[simp] theorem State.modScrim_groups (s : State) (f) : (s.modScrim f).groups = s.groups := rfl
@[simp] theorem State.modScrim_flash (s : State) (f) : (s.modScrim f).flash = s.flash := rfl
@[simp] theorem State.modScrim_host (s : State) (f) : (s.modScrim f).host = s.host := rfl
@[simp] theorem State.modScrim_net (s : State) (f) : (s.modScrim f).net = s.net := rfl
@[simp] theorem State.modScrim_scrim (s : State) (f) : (s.modScrim f).scrim = f s.scrim := rfl
@[simp] theorem State.modScrim_wit (s : State) (f) : (s.modScrim f).wit = s.wit := rfl
@[simp] theorem State.modScrim_ciph (s : State) (f) : (s.modScrim f).ciph = s.ciph := rfl

/-! ### modAdj -/

@[simp] theorem State.modAdj_pending (s : State) (p f) : (s.modAdj p f).pending = s.pending := rfl
@[simp] theorem State.modAdj_out (s : State) (p f) : (s.modAdj p f).out = s.out := rfl
@[simp] theorem State.modAdj_free (s : State) (p f) : (s.modAdj p f).free = s.free := rfl
@[simp] theorem State.modAdj_clock (s : State) (p f) : (s.modAdj p f).clock = s.clock := rfl
@[simp] theorem State.modAdj_sys (s : State) (p f) : (s.modAdj p f).sys = s.sys := rfl
@[simp] theorem State.modAdj_time (s : State) (p f) : (s.modAdj p f).time = s.time := rfl
@[simp] theorem State.modAdj_tregs (s : State) (p f) : (s.modAdj p f).tregs = s.tregs := rfl
@[simp] theorem State.modAdj_par (s : State) (p f) : (s.modAdj p f).par = s.par := rfl
@[simp] theorem State.modAdj_mbx (s : State) (p f) : (s.modAdj p f).mbx = s.mbx := rfl
@[simp] theorem State.modAdj_fw (s : State) (p f) : (s.modAdj p f).fw = s.fw := rfl
@[simp] theorem State.modAdj_ep (s : State) (p f) : (s.modAdj p f).ep = s.ep := rfl
@[simp] theorem State.modAdj_pwr (s : State) (p f) : (s.modAdj p f).pwr = s.pwr := rfl
@[simp] theorem State.modAdj_mode (s : State) (p f) : (s.modAdj p f).mode = s.mode := rfl
@[simp] theorem State.modAdj_bbx (s : State) (p f) : (s.modAdj p f).bbx = s.bbx := rfl
@[simp] theorem State.modAdj_fuse (s : State) (p f) : (s.modAdj p f).fuse = s.fuse := rfl
@[simp] theorem State.modAdj_flush (s : State) (p f) : (s.modAdj p f).flush = s.flush := rfl
@[simp] theorem State.modAdj_pins (s : State) (p f) : (s.modAdj p f).pins = s.pins := rfl
@[simp] theorem State.modAdj_groups (s : State) (p f) : (s.modAdj p f).groups = s.groups := rfl
@[simp] theorem State.modAdj_flash (s : State) (p f) : (s.modAdj p f).flash = s.flash := rfl
@[simp] theorem State.modAdj_host (s : State) (p f) : (s.modAdj p f).host = s.host := rfl
@[simp] theorem State.modAdj_net (s : State) (p f) : (s.modAdj p f).net = s.net := rfl
@[simp] theorem State.modAdj_wit (s : State) (p f) : (s.modAdj p f).wit = s.wit := rfl
@[simp] theorem State.modAdj_ciph (s : State) (p f) : (s.modAdj p f).ciph = s.ciph := rfl

/-! ### modEp -/

@[simp] theorem State.modEp_pending (s : State) (f) : (s.modEp f).pending = s.pending := rfl
@[simp] theorem State.modEp_out (s : State) (f) : (s.modEp f).out = s.out := rfl
@[simp] theorem State.modEp_free (s : State) (f) : (s.modEp f).free = s.free := rfl
@[simp] theorem State.modEp_clock (s : State) (f) : (s.modEp f).clock = s.clock := rfl
@[simp] theorem State.modEp_sys (s : State) (f) : (s.modEp f).sys = s.sys := rfl
@[simp] theorem State.modEp_time (s : State) (f) : (s.modEp f).time = s.time := rfl
@[simp] theorem State.modEp_tregs (s : State) (f) : (s.modEp f).tregs = s.tregs := rfl
@[simp] theorem State.modEp_par (s : State) (f) : (s.modEp f).par = s.par := rfl
@[simp] theorem State.modEp_mbx (s : State) (f) : (s.modEp f).mbx = s.mbx := rfl
@[simp] theorem State.modEp_fw (s : State) (f) : (s.modEp f).fw = s.fw := rfl
@[simp] theorem State.modEp_ep (s : State) (f) : (s.modEp f).ep = f s.ep := rfl
@[simp] theorem State.modEp_pwr (s : State) (f) : (s.modEp f).pwr = s.pwr := rfl
@[simp] theorem State.modEp_mode (s : State) (f) : (s.modEp f).mode = s.mode := rfl
@[simp] theorem State.modEp_bbx (s : State) (f) : (s.modEp f).bbx = s.bbx := rfl
@[simp] theorem State.modEp_fuse (s : State) (f) : (s.modEp f).fuse = s.fuse := rfl
@[simp] theorem State.modEp_flush (s : State) (f) : (s.modEp f).flush = s.flush := rfl
@[simp] theorem State.modEp_pins (s : State) (f) : (s.modEp f).pins = s.pins := rfl
@[simp] theorem State.modEp_groups (s : State) (f) : (s.modEp f).groups = s.groups := rfl
@[simp] theorem State.modEp_flash (s : State) (f) : (s.modEp f).flash = s.flash := rfl
@[simp] theorem State.modEp_host (s : State) (f) : (s.modEp f).host = s.host := rfl
@[simp] theorem State.modEp_net (s : State) (f) : (s.modEp f).net = s.net := rfl
@[simp] theorem State.modEp_scrim (s : State) (f) : (s.modEp f).scrim = s.scrim := rfl
@[simp] theorem State.modEp_wit (s : State) (f) : (s.modEp f).wit = s.wit := rfl
@[simp] theorem State.modEp_ciph (s : State) (f) : (s.modEp f).ciph = s.ciph := rfl

/-! ### modCfg -/

@[simp] theorem State.modCfg_pending (s : State) (f) : (s.modCfg f).pending = s.pending := rfl
@[simp] theorem State.modCfg_out (s : State) (f) : (s.modCfg f).out = s.out := rfl
@[simp] theorem State.modCfg_free (s : State) (f) : (s.modCfg f).free = s.free := rfl
@[simp] theorem State.modCfg_clock (s : State) (f) : (s.modCfg f).clock = s.clock := rfl
@[simp] theorem State.modCfg_sys (s : State) (f) : (s.modCfg f).sys = s.sys := rfl
@[simp] theorem State.modCfg_time (s : State) (f) : (s.modCfg f).time = s.time := rfl
@[simp] theorem State.modCfg_tregs (s : State) (f) : (s.modCfg f).tregs = s.tregs := rfl
@[simp] theorem State.modCfg_par (s : State) (f) : (s.modCfg f).par = s.par := rfl
@[simp] theorem State.modCfg_mbx (s : State) (f) : (s.modCfg f).mbx = s.mbx := rfl
@[simp] theorem State.modCfg_fw (s : State) (f) : (s.modCfg f).fw = s.fw := rfl
@[simp] theorem State.modCfg_pwr (s : State) (f) : (s.modCfg f).pwr = s.pwr := rfl
@[simp] theorem State.modCfg_mode (s : State) (f) : (s.modCfg f).mode = s.mode := rfl
@[simp] theorem State.modCfg_bbx (s : State) (f) : (s.modCfg f).bbx = s.bbx := rfl
@[simp] theorem State.modCfg_fuse (s : State) (f) : (s.modCfg f).fuse = s.fuse := rfl
@[simp] theorem State.modCfg_flush (s : State) (f) : (s.modCfg f).flush = s.flush := rfl
@[simp] theorem State.modCfg_pins (s : State) (f) : (s.modCfg f).pins = s.pins := rfl
@[simp] theorem State.modCfg_groups (s : State) (f) : (s.modCfg f).groups = s.groups := rfl
@[simp] theorem State.modCfg_flash (s : State) (f) : (s.modCfg f).flash = s.flash := rfl
@[simp] theorem State.modCfg_host (s : State) (f) : (s.modCfg f).host = s.host := rfl
@[simp] theorem State.modCfg_net (s : State) (f) : (s.modCfg f).net = s.net := rfl
@[simp] theorem State.modCfg_scrim (s : State) (f) : (s.modCfg f).scrim = s.scrim := rfl
@[simp] theorem State.modCfg_wit (s : State) (f) : (s.modCfg f).wit = s.wit := rfl
@[simp] theorem State.modCfg_ciph (s : State) (f) : (s.modCfg f).ciph = s.ciph := rfl

/-! ### modFuse -/

@[simp] theorem State.modFuse_pending (s : State) (f) : (s.modFuse f).pending = s.pending := rfl
@[simp] theorem State.modFuse_out (s : State) (f) : (s.modFuse f).out = s.out := rfl
@[simp] theorem State.modFuse_free (s : State) (f) : (s.modFuse f).free = s.free := rfl
@[simp] theorem State.modFuse_clock (s : State) (f) : (s.modFuse f).clock = s.clock := rfl
@[simp] theorem State.modFuse_sys (s : State) (f) : (s.modFuse f).sys = s.sys := rfl
@[simp] theorem State.modFuse_time (s : State) (f) : (s.modFuse f).time = s.time := rfl
@[simp] theorem State.modFuse_tregs (s : State) (f) : (s.modFuse f).tregs = s.tregs := rfl
@[simp] theorem State.modFuse_par (s : State) (f) : (s.modFuse f).par = s.par := rfl
@[simp] theorem State.modFuse_mbx (s : State) (f) : (s.modFuse f).mbx = s.mbx := rfl
@[simp] theorem State.modFuse_fw (s : State) (f) : (s.modFuse f).fw = s.fw := rfl
@[simp] theorem State.modFuse_ep (s : State) (f) : (s.modFuse f).ep = s.ep := rfl
@[simp] theorem State.modFuse_pwr (s : State) (f) : (s.modFuse f).pwr = s.pwr := rfl
@[simp] theorem State.modFuse_mode (s : State) (f) : (s.modFuse f).mode = s.mode := rfl
@[simp] theorem State.modFuse_bbx (s : State) (f) : (s.modFuse f).bbx = s.bbx := rfl
@[simp] theorem State.modFuse_fuse (s : State) (f) : (s.modFuse f).fuse = f s.fuse := rfl
@[simp] theorem State.modFuse_flush (s : State) (f) : (s.modFuse f).flush = s.flush := rfl
@[simp] theorem State.modFuse_pins (s : State) (f) : (s.modFuse f).pins = s.pins := rfl
@[simp] theorem State.modFuse_groups (s : State) (f) : (s.modFuse f).groups = s.groups := rfl
@[simp] theorem State.modFuse_flash (s : State) (f) : (s.modFuse f).flash = s.flash := rfl
@[simp] theorem State.modFuse_host (s : State) (f) : (s.modFuse f).host = s.host := rfl
@[simp] theorem State.modFuse_net (s : State) (f) : (s.modFuse f).net = s.net := rfl
@[simp] theorem State.modFuse_scrim (s : State) (f) : (s.modFuse f).scrim = s.scrim := rfl
@[simp] theorem State.modFuse_wit (s : State) (f) : (s.modFuse f).wit = s.wit := rfl
@[simp] theorem State.modFuse_ciph (s : State) (f) : (s.modFuse f).ciph = s.ciph := rfl

/-! ### modChan -/

@[simp] theorem State.modChan_pending (s : State) (c f) : (s.modChan c f).pending = s.pending := rfl
@[simp] theorem State.modChan_out (s : State) (c f) : (s.modChan c f).out = s.out := rfl
@[simp] theorem State.modChan_free (s : State) (c f) : (s.modChan c f).free = s.free := rfl
@[simp] theorem State.modChan_clock (s : State) (c f) : (s.modChan c f).clock = s.clock := rfl
@[simp] theorem State.modChan_sys (s : State) (c f) : (s.modChan c f).sys = s.sys := rfl
@[simp] theorem State.modChan_time (s : State) (c f) : (s.modChan c f).time = s.time := rfl
@[simp] theorem State.modChan_tregs (s : State) (c f) : (s.modChan c f).tregs = s.tregs := rfl
@[simp] theorem State.modChan_par (s : State) (c f) : (s.modChan c f).par = s.par := rfl
@[simp] theorem State.modChan_fw (s : State) (c f) : (s.modChan c f).fw = s.fw := rfl
@[simp] theorem State.modChan_ep (s : State) (c f) : (s.modChan c f).ep = s.ep := rfl
@[simp] theorem State.modChan_pwr (s : State) (c f) : (s.modChan c f).pwr = s.pwr := rfl
@[simp] theorem State.modChan_mode (s : State) (c f) : (s.modChan c f).mode = s.mode := rfl
@[simp] theorem State.modChan_bbx (s : State) (c f) : (s.modChan c f).bbx = s.bbx := rfl
@[simp] theorem State.modChan_fuse (s : State) (c f) : (s.modChan c f).fuse = s.fuse := rfl
@[simp] theorem State.modChan_flush (s : State) (c f) : (s.modChan c f).flush = s.flush := rfl
@[simp] theorem State.modChan_pins (s : State) (c f) : (s.modChan c f).pins = s.pins := rfl
@[simp] theorem State.modChan_groups (s : State) (c f) : (s.modChan c f).groups = s.groups := rfl
@[simp] theorem State.modChan_flash (s : State) (c f) : (s.modChan c f).flash = s.flash := rfl
@[simp] theorem State.modChan_host (s : State) (c f) : (s.modChan c f).host = s.host := rfl
@[simp] theorem State.modChan_net (s : State) (c f) : (s.modChan c f).net = s.net := rfl
@[simp] theorem State.modChan_scrim (s : State) (c f) : (s.modChan c f).scrim = s.scrim := rfl
@[simp] theorem State.modChan_wit (s : State) (c f) : (s.modChan c f).wit = s.wit := rfl
@[simp] theorem State.modChan_ciph (s : State) (c f) : (s.modChan c f).ciph = s.ciph := rfl

/-! ### setAdmit -/

@[simp] theorem State.setAdmit_pending (s : State) (i v) : (s.setAdmit i v).pending = s.pending := rfl
@[simp] theorem State.setAdmit_out (s : State) (i v) : (s.setAdmit i v).out = s.out := rfl
@[simp] theorem State.setAdmit_free (s : State) (i v) : (s.setAdmit i v).free = s.free := rfl
@[simp] theorem State.setAdmit_clock (s : State) (i v) : (s.setAdmit i v).clock = s.clock := rfl
@[simp] theorem State.setAdmit_sys (s : State) (i v) : (s.setAdmit i v).sys = s.sys := rfl
@[simp] theorem State.setAdmit_time (s : State) (i v) : (s.setAdmit i v).time = s.time := rfl
@[simp] theorem State.setAdmit_tregs (s : State) (i v) : (s.setAdmit i v).tregs = s.tregs := rfl
@[simp] theorem State.setAdmit_par (s : State) (i v) : (s.setAdmit i v).par = s.par := rfl
@[simp] theorem State.setAdmit_mbx (s : State) (i v) : (s.setAdmit i v).mbx = s.mbx := rfl
@[simp] theorem State.setAdmit_fw (s : State) (i v) : (s.setAdmit i v).fw = s.fw := rfl
@[simp] theorem State.setAdmit_ep (s : State) (i v) : (s.setAdmit i v).ep = s.ep := rfl
@[simp] theorem State.setAdmit_pwr (s : State) (i v) : (s.setAdmit i v).pwr = s.pwr := rfl
@[simp] theorem State.setAdmit_mode (s : State) (i v) : (s.setAdmit i v).mode = s.mode := rfl
@[simp] theorem State.setAdmit_bbx (s : State) (i v) : (s.setAdmit i v).bbx = s.bbx := rfl
@[simp] theorem State.setAdmit_fuse (s : State) (i v) : (s.setAdmit i v).fuse = s.fuse := rfl
@[simp] theorem State.setAdmit_flush (s : State) (i v) : (s.setAdmit i v).flush = s.flush := rfl
@[simp] theorem State.setAdmit_pins (s : State) (i v) : (s.setAdmit i v).pins = s.pins := rfl
@[simp] theorem State.setAdmit_groups (s : State) (i v) : (s.setAdmit i v).groups = s.groups := rfl
@[simp] theorem State.setAdmit_host (s : State) (i v) : (s.setAdmit i v).host = s.host := rfl
@[simp] theorem State.setAdmit_net (s : State) (i v) : (s.setAdmit i v).net = s.net := rfl
@[simp] theorem State.setAdmit_scrim (s : State) (i v) : (s.setAdmit i v).scrim = s.scrim := rfl
@[simp] theorem State.setAdmit_wit (s : State) (i v) : (s.setAdmit i v).wit = s.wit := rfl
@[simp] theorem State.setAdmit_ciph (s : State) (i v) : (s.setAdmit i v).ciph = s.ciph := rfl

/-! ### emit -/

@[simp] theorem State.emit_pending (s : State) (o) : (s.emit o).pending = s.pending := rfl
@[simp] theorem State.emit_out (s : State) (o) : (s.emit o).out = s.out ++ [o] := rfl
@[simp] theorem State.emit_free (s : State) (o) : (s.emit o).free = s.free := rfl
@[simp] theorem State.emit_clock (s : State) (o) : (s.emit o).clock = s.clock := rfl
@[simp] theorem State.emit_sys (s : State) (o) : (s.emit o).sys = s.sys := rfl
@[simp] theorem State.emit_time (s : State) (o) : (s.emit o).time = s.time := rfl
@[simp] theorem State.emit_tregs (s : State) (o) : (s.emit o).tregs = s.tregs := rfl
@[simp] theorem State.emit_par (s : State) (o) : (s.emit o).par = s.par := rfl
@[simp] theorem State.emit_mbx (s : State) (o) : (s.emit o).mbx = s.mbx := rfl
@[simp] theorem State.emit_fw (s : State) (o) : (s.emit o).fw = s.fw := rfl
@[simp] theorem State.emit_ep (s : State) (o) : (s.emit o).ep = s.ep := rfl
@[simp] theorem State.emit_pwr (s : State) (o) : (s.emit o).pwr = s.pwr := rfl
@[simp] theorem State.emit_mode (s : State) (o) : (s.emit o).mode = s.mode := rfl
@[simp] theorem State.emit_bbx (s : State) (o) : (s.emit o).bbx = s.bbx := rfl
@[simp] theorem State.emit_fuse (s : State) (o) : (s.emit o).fuse = s.fuse := rfl
@[simp] theorem State.emit_flush (s : State) (o) : (s.emit o).flush = s.flush := rfl
@[simp] theorem State.emit_pins (s : State) (o) : (s.emit o).pins = s.pins := rfl
@[simp] theorem State.emit_groups (s : State) (o) : (s.emit o).groups = s.groups := rfl
@[simp] theorem State.emit_flash (s : State) (o) : (s.emit o).flash = s.flash := rfl
@[simp] theorem State.emit_host (s : State) (o) : (s.emit o).host = s.host := rfl
@[simp] theorem State.emit_net (s : State) (o) : (s.emit o).net = s.net := rfl
@[simp] theorem State.emit_scrim (s : State) (o) : (s.emit o).scrim = s.scrim := rfl
@[simp] theorem State.emit_wit (s : State) (o) : (s.emit o).wit = s.wit := rfl
@[simp] theorem State.emit_ciph (s : State) (o) : (s.emit o).ciph = s.ciph := rfl

/-! ### drew -/

@[simp] theorem State.drew_pending (s : State) : (s.drew).pending = s.pending := rfl
@[simp] theorem State.drew_out (s : State) : (s.drew).out = s.out := rfl
@[simp] theorem State.drew_free (s : State) : (s.drew).free = s.free + 1 := rfl
@[simp] theorem State.drew_clock (s : State) : (s.drew).clock = s.clock := rfl
@[simp] theorem State.drew_sys (s : State) : (s.drew).sys = s.sys := rfl
@[simp] theorem State.drew_time (s : State) : (s.drew).time = s.time := rfl
@[simp] theorem State.drew_tregs (s : State) : (s.drew).tregs = s.tregs := rfl
@[simp] theorem State.drew_par (s : State) : (s.drew).par = s.par := rfl
@[simp] theorem State.drew_mbx (s : State) : (s.drew).mbx = s.mbx := rfl
@[simp] theorem State.drew_fw (s : State) : (s.drew).fw = s.fw := rfl
@[simp] theorem State.drew_ep (s : State) : (s.drew).ep = s.ep := rfl
@[simp] theorem State.drew_pwr (s : State) : (s.drew).pwr = s.pwr := rfl
@[simp] theorem State.drew_mode (s : State) : (s.drew).mode = s.mode := rfl
@[simp] theorem State.drew_bbx (s : State) : (s.drew).bbx = s.bbx := rfl
@[simp] theorem State.drew_fuse (s : State) : (s.drew).fuse = s.fuse := rfl
@[simp] theorem State.drew_flush (s : State) : (s.drew).flush = s.flush := rfl
@[simp] theorem State.drew_pins (s : State) : (s.drew).pins = s.pins := rfl
@[simp] theorem State.drew_groups (s : State) : (s.drew).groups = s.groups := rfl
@[simp] theorem State.drew_flash (s : State) : (s.drew).flash = s.flash := rfl
@[simp] theorem State.drew_host (s : State) : (s.drew).host = s.host := rfl
@[simp] theorem State.drew_net (s : State) : (s.drew).net = s.net := rfl
@[simp] theorem State.drew_scrim (s : State) : (s.drew).scrim = s.scrim := rfl
@[simp] theorem State.drew_wit (s : State) : (s.drew).wit = s.wit := rfl
@[simp] theorem State.drew_ciph (s : State) : (s.drew).ciph = s.ciph := rfl

end Sys2Proof.Machine
end

