-- ==== Sys2Proof/Laws/Ops.lean ====
section
/-! SUPPORT. What telling an event, a record or a response can do: it touches the mailbox block, the endpoint, the black box and
what has left the block, and, where a response goes over the Scrim, what that frame costs; what it does there; and what serving a
mailbox request amounts to. -/

namespace Sys2Proof.Machine

theorem hush_refl (s : State) : s.hush s = s := rfl

theorem hush_hush (u t s : State) : (u.hush t).hush s = u.hush s := rfl

theorem hush_trans {s t u : State} (a : OnlyTells s t) (b : OnlyTells t u) : OnlyTells s u := by
  unfold OnlyTells at *
  rw [← hush_hush u t s, b, a]

/-- Any change of the components that telling may touch. -/
theorem onlyTells_upd {s t : State} (h : OnlyTells s t) {mbx ep bbx out free adjs ctrs cache work} :
    OnlyTells s { t with mbx := mbx, ep := ep, bbx := bbx, out := out, free := free
                         scrim := { t.scrim with adjs := adjs, ctrs := ctrs }
                         ciph := { t.ciph with cache := cache, ctrs := work } } := by
  unfold OnlyTells State.hush at *
  exact h

theorem onlyTells_ite {s a b : State} {c : Prop} [Decidable c] (ha : OnlyTells s a) (hb : OnlyTells s b) :
    OnlyTells s (if c then a else b) := by split <;> assumption

theorem irqRise_tells (n : Nat) (s : State) : OnlyTells s (irqRise n s) := by
  unfold irqRise State.emit
  dsimp only
  repeat' split
  all_goals rfl

theorem pmeRaise_tells (s : State) : OnlyTells s (pmeRaise s) := by
  unfold pmeRaise State.emit
  dsimp only
  repeat' split
  all_goals rfl

theorem useKey_tells (slot : Nat) (s : State) : OnlyTells s (useKey slot s) := by
  unfold useKey State.modCiph
  dsimp only
  repeat' split
  all_goals rfl

theorem sendOn_tells (p : Nat) (h : RouteHead) (s : State) : OnlyTells s (sendOn p h s) := by
  unfold sendOn sealOn
  split
  · exact hush_refl _
  · dsimp only
    generalize hm : (s.modAdj p fun a => { a with txPn := a.txPn + 1 }) = m
    have h1 : OnlyTells s m := by rw [← hm]; rfl
    have h2 := hush_trans h1 (useKey_tells (3076 + 2 * p) m)
    generalize useKey (3076 + 2 * p) m = k at h2 ⊢
    exact hush_trans h2 (by rfl)

theorem scrimSend_tells (d ty f a : Nat) (b : List Byte) (s : State) : OnlyTells s (scrimSend d ty f a b s) := by
  unfold scrimSend
  split
  · exact hush_refl _
  · split
    · exact sendOn_tells _ _ _
    · rfl

theorem deliver_tells (c : Nat) (r : List Byte) (s : State) : OnlyTells s (deliver c r s) := by
  unfold deliver State.emit State.modChan
  dsimp only
  split
  · refine hush_trans ?_ (pmeRaise_tells _)
    split
    · exact hush_trans (by rfl) (irqRise_tells _ _)
    · rfl
  · split
    · rfl
    · split
      · rfl
      · split
        · exact hush_trans (by rfl) (scrimSend_tells _ _ _ _ _ _)
        · rfl

theorem answer_tells (c st d : Nat) (b : List Byte) (s : State) : OnlyTells s (answer c st d b s) := deliver_tells _ _ _

theorem serveWait_tells (c : Nat) (s : State) : OnlyTells s (serveWait c s) := by
  unfold serveWait
  dsimp only
  split
  · exact answer_tells _ _ _ _ _
  · exact hush_refl _

theorem serveWaits_tells (s : State) : OnlyTells s (serveWaits s) := by
  unfold serveWaits
  generalize List.range 64 = l
  have : ∀ t, OnlyTells s t → OnlyTells s (l.foldl (fun s c => serveWait c s) t) := by
    induction l with
    | nil => intro t h; exact h
    | cons c l ih => intro t h; exact ih _ (hush_trans h (serveWait_tells c t))
  exact this s (hush_refl s)

theorem evtIrq_tells (s : State) : OnlyTells s (evtIrq s) := by
  unfold evtIrq
  split
  · exact hush_trans (by rfl) (irqRise_tells _ _)
  · exact hush_refl _

theorem raiseOnly_tells (code kind subj : Nat) (d : List Int) (s : State) : OnlyTells s (raiseOnly code kind subj d s) := by
  unfold raiseOnly
  dsimp only
  split
  · exact hush_refl _
  · have h1 : OnlyTells s (evtIrq { s with mbx := s.mbx.push (s.eventRec code kind subj d) }) :=
      hush_trans (by rfl) (evtIrq_tells _)
    have h2 : ∀ u, OnlyTells s u → OnlyTells s (if (u.paramN 0x1202).testBit (code / 256) = true then pmeRaise u else u) := by
      intro u h
      split
      · exact hush_trans h (pmeRaise_tells _)
      · exact h
    have h3 : ∀ u, OnlyTells s u → OnlyTells s (if u.mbx.chans.any Chan.waiting = true then serveWaits u else u) := by
      intro u h
      split
      · exact hush_trans h (serveWaits_tells _)
      · exact h
    exact h3 _ (h2 _ h1)

theorem bbxAccept_tells (r : BbxRec) (s : State) : OnlyTells s (bbxAccept r s) := rfl

theorem bbx_tells (origin code kind subj : Nat) (d : List Int) (s : State) : OnlyTells s (bbx origin code kind subj d s) := by
  unfold bbx
  dsimp only
  split
  · split
    · split
      · exact hush_trans (by rfl) (raiseOnly_tells _ _ _ _ _)
      · rfl
    · exact hush_trans (by rfl) (bbxAccept_tells _ _)
  · exact bbxAccept_tells _ _

theorem raise_tells (code kind subj : Nat) (d : List Int) (s : State) : OnlyTells s (raise code kind subj d s) := by
  unfold raise
  dsimp only
  split
  · exact hush_trans (raiseOnly_tells _ _ _ _ _) (bbx_tells _ _ _ _ _ _)
  · exact raiseOnly_tells _ _ _ _ _

/-! ### Every component that telling leaves alone -/

theorem OnlyTells.pending {s t : State} (h : OnlyTells s t) : t.pending = s.pending := by
  have e : (t.hush s).pending = s.pending := by rw [show t.hush s = s from h]
  exact e
theorem OnlyTells.clock {s t : State} (h : OnlyTells s t) : t.clock = s.clock := by
  have e : (t.hush s).clock = s.clock := by rw [show t.hush s = s from h]
  exact e
theorem OnlyTells.sys {s t : State} (h : OnlyTells s t) : t.sys = s.sys := by
  have e : (t.hush s).sys = s.sys := by rw [show t.hush s = s from h]
  exact e
theorem OnlyTells.time {s t : State} (h : OnlyTells s t) : t.time = s.time := by
  have e : (t.hush s).time = s.time := by rw [show t.hush s = s from h]
  exact e
theorem OnlyTells.tregs {s t : State} (h : OnlyTells s t) : t.tregs = s.tregs := by
  have e : (t.hush s).tregs = s.tregs := by rw [show t.hush s = s from h]
  exact e
theorem OnlyTells.par {s t : State} (h : OnlyTells s t) : t.par = s.par := by
  have e : (t.hush s).par = s.par := by rw [show t.hush s = s from h]
  exact e
theorem OnlyTells.fw {s t : State} (h : OnlyTells s t) : t.fw = s.fw := by
  have e : (t.hush s).fw = s.fw := by rw [show t.hush s = s from h]
  exact e
theorem OnlyTells.pwr {s t : State} (h : OnlyTells s t) : t.pwr = s.pwr := by
  have e : (t.hush s).pwr = s.pwr := by rw [show t.hush s = s from h]
  exact e
theorem OnlyTells.mode {s t : State} (h : OnlyTells s t) : t.mode = s.mode := by
  have e : (t.hush s).mode = s.mode := by rw [show t.hush s = s from h]
  exact e
theorem OnlyTells.fuse {s t : State} (h : OnlyTells s t) : t.fuse = s.fuse := by
  have e : (t.hush s).fuse = s.fuse := by rw [show t.hush s = s from h]
  exact e
theorem OnlyTells.flush {s t : State} (h : OnlyTells s t) : t.flush = s.flush := by
  have e : (t.hush s).flush = s.flush := by rw [show t.hush s = s from h]
  exact e
theorem OnlyTells.pins {s t : State} (h : OnlyTells s t) : t.pins = s.pins := by
  have e : (t.hush s).pins = s.pins := by rw [show t.hush s = s from h]
  exact e
theorem OnlyTells.groups {s t : State} (h : OnlyTells s t) : t.groups = s.groups := by
  have e : (t.hush s).groups = s.groups := by rw [show t.hush s = s from h]
  exact e
theorem OnlyTells.flash {s t : State} (h : OnlyTells s t) : t.flash = s.flash := by
  have e : (t.hush s).flash = s.flash := by rw [show t.hush s = s from h]
  exact e
theorem OnlyTells.host {s t : State} (h : OnlyTells s t) : t.host = s.host := by
  have e : (t.hush s).host = s.host := by rw [show t.hush s = s from h]
  exact e
theorem OnlyTells.net {s t : State} (h : OnlyTells s t) : t.net = s.net := by
  have e : (t.hush s).net = s.net := by rw [show t.hush s = s from h]
  exact e
theorem OnlyTells.wit {s t : State} (h : OnlyTells s t) : t.wit = s.wit := by
  have e : (t.hush s).wit = s.wit := by rw [show t.hush s = s from h]
  exact e
theorem OnlyTells.scrim_addr {s t : State} (h : OnlyTells s t) : t.scrim.addr = s.scrim.addr := by
  have e : (t.hush s).scrim.addr = s.scrim.addr := by rw [show t.hush s = s from h]
  exact e
theorem OnlyTells.scrim_claimed {s t : State} (h : OnlyTells s t) : t.scrim.claimed = s.scrim.claimed := by
  have e : (t.hush s).scrim.claimed = s.scrim.claimed := by rw [show t.hush s = s from h]
  exact e
theorem OnlyTells.scrim_lsdb {s t : State} (h : OnlyTells s t) : t.scrim.lsdb = s.scrim.lsdb := by
  have e : (t.hush s).scrim.lsdb = s.scrim.lsdb := by rw [show t.hush s = s from h]
  exact e
theorem OnlyTells.scrim_contained {s t : State} (h : OnlyTells s t) : t.scrim.contained = s.scrim.contained := by
  have e : (t.hush s).scrim.contained = s.scrim.contained := by rw [show t.hush s = s from h]
  exact e
theorem OnlyTells.ciph_labels {s t : State} (h : OnlyTells s t) : t.ciph.labels = s.ciph.labels := by
  have e : (t.hush s).ciph.labels = s.ciph.labels := by rw [show t.hush s = s from h]
  exact e
theorem OnlyTells.ciph_recs {s t : State} (h : OnlyTells s t) : t.ciph.recs = s.ciph.recs := by
  have e : (t.hush s).ciph.recs = s.ciph.recs := by rw [show t.hush s = s from h]
  exact e

/-! ### irqRise -/

@[simp] theorem irqRise_pending (n : Nat) (s : State) : (irqRise n s).pending = s.pending := (irqRise_tells n s).pending
@[simp] theorem irqRise_clock (n : Nat) (s : State) : (irqRise n s).clock = s.clock := (irqRise_tells n s).clock
@[simp] theorem irqRise_sys (n : Nat) (s : State) : (irqRise n s).sys = s.sys := (irqRise_tells n s).sys
@[simp] theorem irqRise_time (n : Nat) (s : State) : (irqRise n s).time = s.time := (irqRise_tells n s).time
@[simp] theorem irqRise_tregs (n : Nat) (s : State) : (irqRise n s).tregs = s.tregs := (irqRise_tells n s).tregs
@[simp] theorem irqRise_par (n : Nat) (s : State) : (irqRise n s).par = s.par := (irqRise_tells n s).par
@[simp] theorem irqRise_fw (n : Nat) (s : State) : (irqRise n s).fw = s.fw := (irqRise_tells n s).fw
@[simp] theorem irqRise_pwr (n : Nat) (s : State) : (irqRise n s).pwr = s.pwr := (irqRise_tells n s).pwr
@[simp] theorem irqRise_mode (n : Nat) (s : State) : (irqRise n s).mode = s.mode := (irqRise_tells n s).mode
@[simp] theorem irqRise_fuse (n : Nat) (s : State) : (irqRise n s).fuse = s.fuse := (irqRise_tells n s).fuse
@[simp] theorem irqRise_flush (n : Nat) (s : State) : (irqRise n s).flush = s.flush := (irqRise_tells n s).flush
@[simp] theorem irqRise_pins (n : Nat) (s : State) : (irqRise n s).pins = s.pins := (irqRise_tells n s).pins
@[simp] theorem irqRise_groups (n : Nat) (s : State) : (irqRise n s).groups = s.groups := (irqRise_tells n s).groups
@[simp] theorem irqRise_flash (n : Nat) (s : State) : (irqRise n s).flash = s.flash := (irqRise_tells n s).flash
@[simp] theorem irqRise_host (n : Nat) (s : State) : (irqRise n s).host = s.host := (irqRise_tells n s).host
@[simp] theorem irqRise_net (n : Nat) (s : State) : (irqRise n s).net = s.net := (irqRise_tells n s).net
@[simp] theorem irqRise_wit (n : Nat) (s : State) : (irqRise n s).wit = s.wit := (irqRise_tells n s).wit
@[simp] theorem irqRise_scrim_addr (n : Nat) (s : State) : (irqRise n s).scrim.addr = s.scrim.addr := (irqRise_tells n s).scrim_addr
@[simp] theorem irqRise_scrim_claimed (n : Nat) (s : State) : (irqRise n s).scrim.claimed = s.scrim.claimed := (irqRise_tells n s).scrim_claimed
@[simp] theorem irqRise_scrim_lsdb (n : Nat) (s : State) : (irqRise n s).scrim.lsdb = s.scrim.lsdb := (irqRise_tells n s).scrim_lsdb
@[simp] theorem irqRise_scrim_contained (n : Nat) (s : State) : (irqRise n s).scrim.contained = s.scrim.contained := (irqRise_tells n s).scrim_contained
@[simp] theorem irqRise_ciph_labels (n : Nat) (s : State) : (irqRise n s).ciph.labels = s.ciph.labels := (irqRise_tells n s).ciph_labels
@[simp] theorem irqRise_ciph_recs (n : Nat) (s : State) : (irqRise n s).ciph.recs = s.ciph.recs := (irqRise_tells n s).ciph_recs

/-! ### pmeRaise -/

@[simp] theorem pmeRaise_pending (s : State) : (pmeRaise s).pending = s.pending := (pmeRaise_tells s).pending
@[simp] theorem pmeRaise_clock (s : State) : (pmeRaise s).clock = s.clock := (pmeRaise_tells s).clock
@[simp] theorem pmeRaise_sys (s : State) : (pmeRaise s).sys = s.sys := (pmeRaise_tells s).sys
@[simp] theorem pmeRaise_time (s : State) : (pmeRaise s).time = s.time := (pmeRaise_tells s).time
@[simp] theorem pmeRaise_tregs (s : State) : (pmeRaise s).tregs = s.tregs := (pmeRaise_tells s).tregs
@[simp] theorem pmeRaise_par (s : State) : (pmeRaise s).par = s.par := (pmeRaise_tells s).par
@[simp] theorem pmeRaise_fw (s : State) : (pmeRaise s).fw = s.fw := (pmeRaise_tells s).fw
@[simp] theorem pmeRaise_pwr (s : State) : (pmeRaise s).pwr = s.pwr := (pmeRaise_tells s).pwr
@[simp] theorem pmeRaise_mode (s : State) : (pmeRaise s).mode = s.mode := (pmeRaise_tells s).mode
@[simp] theorem pmeRaise_fuse (s : State) : (pmeRaise s).fuse = s.fuse := (pmeRaise_tells s).fuse
@[simp] theorem pmeRaise_flush (s : State) : (pmeRaise s).flush = s.flush := (pmeRaise_tells s).flush
@[simp] theorem pmeRaise_pins (s : State) : (pmeRaise s).pins = s.pins := (pmeRaise_tells s).pins
@[simp] theorem pmeRaise_groups (s : State) : (pmeRaise s).groups = s.groups := (pmeRaise_tells s).groups
@[simp] theorem pmeRaise_flash (s : State) : (pmeRaise s).flash = s.flash := (pmeRaise_tells s).flash
@[simp] theorem pmeRaise_host (s : State) : (pmeRaise s).host = s.host := (pmeRaise_tells s).host
@[simp] theorem pmeRaise_net (s : State) : (pmeRaise s).net = s.net := (pmeRaise_tells s).net
@[simp] theorem pmeRaise_wit (s : State) : (pmeRaise s).wit = s.wit := (pmeRaise_tells s).wit
@[simp] theorem pmeRaise_scrim_addr (s : State) : (pmeRaise s).scrim.addr = s.scrim.addr := (pmeRaise_tells s).scrim_addr
@[simp] theorem pmeRaise_scrim_claimed (s : State) : (pmeRaise s).scrim.claimed = s.scrim.claimed := (pmeRaise_tells s).scrim_claimed
@[simp] theorem pmeRaise_scrim_lsdb (s : State) : (pmeRaise s).scrim.lsdb = s.scrim.lsdb := (pmeRaise_tells s).scrim_lsdb
@[simp] theorem pmeRaise_scrim_contained (s : State) : (pmeRaise s).scrim.contained = s.scrim.contained := (pmeRaise_tells s).scrim_contained
@[simp] theorem pmeRaise_ciph_labels (s : State) : (pmeRaise s).ciph.labels = s.ciph.labels := (pmeRaise_tells s).ciph_labels
@[simp] theorem pmeRaise_ciph_recs (s : State) : (pmeRaise s).ciph.recs = s.ciph.recs := (pmeRaise_tells s).ciph_recs

/-! ### deliver -/

@[simp] theorem deliver_pending (c : Nat) (r : List Byte) (s : State) : (deliver c r s).pending = s.pending := (deliver_tells c r s).pending
@[simp] theorem deliver_clock (c : Nat) (r : List Byte) (s : State) : (deliver c r s).clock = s.clock := (deliver_tells c r s).clock
@[simp] theorem deliver_sys (c : Nat) (r : List Byte) (s : State) : (deliver c r s).sys = s.sys := (deliver_tells c r s).sys
@[simp] theorem deliver_time (c : Nat) (r : List Byte) (s : State) : (deliver c r s).time = s.time := (deliver_tells c r s).time
@[simp] theorem deliver_tregs (c : Nat) (r : List Byte) (s : State) : (deliver c r s).tregs = s.tregs := (deliver_tells c r s).tregs
@[simp] theorem deliver_par (c : Nat) (r : List Byte) (s : State) : (deliver c r s).par = s.par := (deliver_tells c r s).par
@[simp] theorem deliver_fw (c : Nat) (r : List Byte) (s : State) : (deliver c r s).fw = s.fw := (deliver_tells c r s).fw
@[simp] theorem deliver_pwr (c : Nat) (r : List Byte) (s : State) : (deliver c r s).pwr = s.pwr := (deliver_tells c r s).pwr
@[simp] theorem deliver_mode (c : Nat) (r : List Byte) (s : State) : (deliver c r s).mode = s.mode := (deliver_tells c r s).mode
@[simp] theorem deliver_fuse (c : Nat) (r : List Byte) (s : State) : (deliver c r s).fuse = s.fuse := (deliver_tells c r s).fuse
@[simp] theorem deliver_flush (c : Nat) (r : List Byte) (s : State) : (deliver c r s).flush = s.flush := (deliver_tells c r s).flush
@[simp] theorem deliver_pins (c : Nat) (r : List Byte) (s : State) : (deliver c r s).pins = s.pins := (deliver_tells c r s).pins
@[simp] theorem deliver_groups (c : Nat) (r : List Byte) (s : State) : (deliver c r s).groups = s.groups := (deliver_tells c r s).groups
@[simp] theorem deliver_flash (c : Nat) (r : List Byte) (s : State) : (deliver c r s).flash = s.flash := (deliver_tells c r s).flash
@[simp] theorem deliver_host (c : Nat) (r : List Byte) (s : State) : (deliver c r s).host = s.host := (deliver_tells c r s).host
@[simp] theorem deliver_net (c : Nat) (r : List Byte) (s : State) : (deliver c r s).net = s.net := (deliver_tells c r s).net
@[simp] theorem deliver_wit (c : Nat) (r : List Byte) (s : State) : (deliver c r s).wit = s.wit := (deliver_tells c r s).wit
@[simp] theorem deliver_scrim_addr (c : Nat) (r : List Byte) (s : State) : (deliver c r s).scrim.addr = s.scrim.addr := (deliver_tells c r s).scrim_addr
@[simp] theorem deliver_scrim_claimed (c : Nat) (r : List Byte) (s : State) : (deliver c r s).scrim.claimed = s.scrim.claimed := (deliver_tells c r s).scrim_claimed
@[simp] theorem deliver_scrim_lsdb (c : Nat) (r : List Byte) (s : State) : (deliver c r s).scrim.lsdb = s.scrim.lsdb := (deliver_tells c r s).scrim_lsdb
@[simp] theorem deliver_scrim_contained (c : Nat) (r : List Byte) (s : State) : (deliver c r s).scrim.contained = s.scrim.contained := (deliver_tells c r s).scrim_contained
@[simp] theorem deliver_ciph_labels (c : Nat) (r : List Byte) (s : State) : (deliver c r s).ciph.labels = s.ciph.labels := (deliver_tells c r s).ciph_labels
@[simp] theorem deliver_ciph_recs (c : Nat) (r : List Byte) (s : State) : (deliver c r s).ciph.recs = s.ciph.recs := (deliver_tells c r s).ciph_recs

/-! ### answer -/

@[simp] theorem answer_pending (c st d : Nat) (b : List Byte) (s : State) : (answer c st d b s).pending = s.pending := (answer_tells c st d b s).pending
@[simp] theorem answer_clock (c st d : Nat) (b : List Byte) (s : State) : (answer c st d b s).clock = s.clock := (answer_tells c st d b s).clock
@[simp] theorem answer_sys (c st d : Nat) (b : List Byte) (s : State) : (answer c st d b s).sys = s.sys := (answer_tells c st d b s).sys
@[simp] theorem answer_time (c st d : Nat) (b : List Byte) (s : State) : (answer c st d b s).time = s.time := (answer_tells c st d b s).time
@[simp] theorem answer_tregs (c st d : Nat) (b : List Byte) (s : State) : (answer c st d b s).tregs = s.tregs := (answer_tells c st d b s).tregs
@[simp] theorem answer_par (c st d : Nat) (b : List Byte) (s : State) : (answer c st d b s).par = s.par := (answer_tells c st d b s).par
@[simp] theorem answer_fw (c st d : Nat) (b : List Byte) (s : State) : (answer c st d b s).fw = s.fw := (answer_tells c st d b s).fw
@[simp] theorem answer_pwr (c st d : Nat) (b : List Byte) (s : State) : (answer c st d b s).pwr = s.pwr := (answer_tells c st d b s).pwr
@[simp] theorem answer_mode (c st d : Nat) (b : List Byte) (s : State) : (answer c st d b s).mode = s.mode := (answer_tells c st d b s).mode
@[simp] theorem answer_fuse (c st d : Nat) (b : List Byte) (s : State) : (answer c st d b s).fuse = s.fuse := (answer_tells c st d b s).fuse
@[simp] theorem answer_flush (c st d : Nat) (b : List Byte) (s : State) : (answer c st d b s).flush = s.flush := (answer_tells c st d b s).flush
@[simp] theorem answer_pins (c st d : Nat) (b : List Byte) (s : State) : (answer c st d b s).pins = s.pins := (answer_tells c st d b s).pins
@[simp] theorem answer_groups (c st d : Nat) (b : List Byte) (s : State) : (answer c st d b s).groups = s.groups := (answer_tells c st d b s).groups
@[simp] theorem answer_flash (c st d : Nat) (b : List Byte) (s : State) : (answer c st d b s).flash = s.flash := (answer_tells c st d b s).flash
@[simp] theorem answer_host (c st d : Nat) (b : List Byte) (s : State) : (answer c st d b s).host = s.host := (answer_tells c st d b s).host
@[simp] theorem answer_net (c st d : Nat) (b : List Byte) (s : State) : (answer c st d b s).net = s.net := (answer_tells c st d b s).net
@[simp] theorem answer_wit (c st d : Nat) (b : List Byte) (s : State) : (answer c st d b s).wit = s.wit := (answer_tells c st d b s).wit
@[simp] theorem answer_scrim_addr (c st d : Nat) (b : List Byte) (s : State) : (answer c st d b s).scrim.addr = s.scrim.addr := (answer_tells c st d b s).scrim_addr
@[simp] theorem answer_scrim_claimed (c st d : Nat) (b : List Byte) (s : State) : (answer c st d b s).scrim.claimed = s.scrim.claimed := (answer_tells c st d b s).scrim_claimed
@[simp] theorem answer_scrim_lsdb (c st d : Nat) (b : List Byte) (s : State) : (answer c st d b s).scrim.lsdb = s.scrim.lsdb := (answer_tells c st d b s).scrim_lsdb
@[simp] theorem answer_scrim_contained (c st d : Nat) (b : List Byte) (s : State) : (answer c st d b s).scrim.contained = s.scrim.contained := (answer_tells c st d b s).scrim_contained
@[simp] theorem answer_ciph_labels (c st d : Nat) (b : List Byte) (s : State) : (answer c st d b s).ciph.labels = s.ciph.labels := (answer_tells c st d b s).ciph_labels
@[simp] theorem answer_ciph_recs (c st d : Nat) (b : List Byte) (s : State) : (answer c st d b s).ciph.recs = s.ciph.recs := (answer_tells c st d b s).ciph_recs

/-! ### raiseOnly -/

@[simp] theorem raiseOnly_pending (c k n : Nat) (d : List Int) (s : State) : (raiseOnly c k n d s).pending = s.pending := (raiseOnly_tells c k n d s).pending
@[simp] theorem raiseOnly_clock (c k n : Nat) (d : List Int) (s : State) : (raiseOnly c k n d s).clock = s.clock := (raiseOnly_tells c k n d s).clock
@[simp] theorem raiseOnly_sys (c k n : Nat) (d : List Int) (s : State) : (raiseOnly c k n d s).sys = s.sys := (raiseOnly_tells c k n d s).sys
@[simp] theorem raiseOnly_time (c k n : Nat) (d : List Int) (s : State) : (raiseOnly c k n d s).time = s.time := (raiseOnly_tells c k n d s).time
@[simp] theorem raiseOnly_tregs (c k n : Nat) (d : List Int) (s : State) : (raiseOnly c k n d s).tregs = s.tregs := (raiseOnly_tells c k n d s).tregs
@[simp] theorem raiseOnly_par (c k n : Nat) (d : List Int) (s : State) : (raiseOnly c k n d s).par = s.par := (raiseOnly_tells c k n d s).par
@[simp] theorem raiseOnly_fw (c k n : Nat) (d : List Int) (s : State) : (raiseOnly c k n d s).fw = s.fw := (raiseOnly_tells c k n d s).fw
@[simp] theorem raiseOnly_pwr (c k n : Nat) (d : List Int) (s : State) : (raiseOnly c k n d s).pwr = s.pwr := (raiseOnly_tells c k n d s).pwr
@[simp] theorem raiseOnly_mode (c k n : Nat) (d : List Int) (s : State) : (raiseOnly c k n d s).mode = s.mode := (raiseOnly_tells c k n d s).mode
@[simp] theorem raiseOnly_fuse (c k n : Nat) (d : List Int) (s : State) : (raiseOnly c k n d s).fuse = s.fuse := (raiseOnly_tells c k n d s).fuse
@[simp] theorem raiseOnly_flush (c k n : Nat) (d : List Int) (s : State) : (raiseOnly c k n d s).flush = s.flush := (raiseOnly_tells c k n d s).flush
@[simp] theorem raiseOnly_pins (c k n : Nat) (d : List Int) (s : State) : (raiseOnly c k n d s).pins = s.pins := (raiseOnly_tells c k n d s).pins
@[simp] theorem raiseOnly_groups (c k n : Nat) (d : List Int) (s : State) : (raiseOnly c k n d s).groups = s.groups := (raiseOnly_tells c k n d s).groups
@[simp] theorem raiseOnly_flash (c k n : Nat) (d : List Int) (s : State) : (raiseOnly c k n d s).flash = s.flash := (raiseOnly_tells c k n d s).flash
@[simp] theorem raiseOnly_host (c k n : Nat) (d : List Int) (s : State) : (raiseOnly c k n d s).host = s.host := (raiseOnly_tells c k n d s).host
@[simp] theorem raiseOnly_net (c k n : Nat) (d : List Int) (s : State) : (raiseOnly c k n d s).net = s.net := (raiseOnly_tells c k n d s).net
@[simp] theorem raiseOnly_wit (c k n : Nat) (d : List Int) (s : State) : (raiseOnly c k n d s).wit = s.wit := (raiseOnly_tells c k n d s).wit
@[simp] theorem raiseOnly_scrim_addr (c k n : Nat) (d : List Int) (s : State) : (raiseOnly c k n d s).scrim.addr = s.scrim.addr := (raiseOnly_tells c k n d s).scrim_addr
@[simp] theorem raiseOnly_scrim_claimed (c k n : Nat) (d : List Int) (s : State) : (raiseOnly c k n d s).scrim.claimed = s.scrim.claimed := (raiseOnly_tells c k n d s).scrim_claimed
@[simp] theorem raiseOnly_scrim_lsdb (c k n : Nat) (d : List Int) (s : State) : (raiseOnly c k n d s).scrim.lsdb = s.scrim.lsdb := (raiseOnly_tells c k n d s).scrim_lsdb
@[simp] theorem raiseOnly_scrim_contained (c k n : Nat) (d : List Int) (s : State) : (raiseOnly c k n d s).scrim.contained = s.scrim.contained := (raiseOnly_tells c k n d s).scrim_contained
@[simp] theorem raiseOnly_ciph_labels (c k n : Nat) (d : List Int) (s : State) : (raiseOnly c k n d s).ciph.labels = s.ciph.labels := (raiseOnly_tells c k n d s).ciph_labels
@[simp] theorem raiseOnly_ciph_recs (c k n : Nat) (d : List Int) (s : State) : (raiseOnly c k n d s).ciph.recs = s.ciph.recs := (raiseOnly_tells c k n d s).ciph_recs

/-! ### bbx -/

@[simp] theorem bbx_pending (o c k n : Nat) (d : List Int) (s : State) : (bbx o c k n d s).pending = s.pending := (bbx_tells o c k n d s).pending
@[simp] theorem bbx_clock (o c k n : Nat) (d : List Int) (s : State) : (bbx o c k n d s).clock = s.clock := (bbx_tells o c k n d s).clock
@[simp] theorem bbx_sys (o c k n : Nat) (d : List Int) (s : State) : (bbx o c k n d s).sys = s.sys := (bbx_tells o c k n d s).sys
@[simp] theorem bbx_time (o c k n : Nat) (d : List Int) (s : State) : (bbx o c k n d s).time = s.time := (bbx_tells o c k n d s).time
@[simp] theorem bbx_tregs (o c k n : Nat) (d : List Int) (s : State) : (bbx o c k n d s).tregs = s.tregs := (bbx_tells o c k n d s).tregs
@[simp] theorem bbx_par (o c k n : Nat) (d : List Int) (s : State) : (bbx o c k n d s).par = s.par := (bbx_tells o c k n d s).par
@[simp] theorem bbx_fw (o c k n : Nat) (d : List Int) (s : State) : (bbx o c k n d s).fw = s.fw := (bbx_tells o c k n d s).fw
@[simp] theorem bbx_pwr (o c k n : Nat) (d : List Int) (s : State) : (bbx o c k n d s).pwr = s.pwr := (bbx_tells o c k n d s).pwr
@[simp] theorem bbx_mode (o c k n : Nat) (d : List Int) (s : State) : (bbx o c k n d s).mode = s.mode := (bbx_tells o c k n d s).mode
@[simp] theorem bbx_fuse (o c k n : Nat) (d : List Int) (s : State) : (bbx o c k n d s).fuse = s.fuse := (bbx_tells o c k n d s).fuse
@[simp] theorem bbx_flush (o c k n : Nat) (d : List Int) (s : State) : (bbx o c k n d s).flush = s.flush := (bbx_tells o c k n d s).flush
@[simp] theorem bbx_pins (o c k n : Nat) (d : List Int) (s : State) : (bbx o c k n d s).pins = s.pins := (bbx_tells o c k n d s).pins
@[simp] theorem bbx_groups (o c k n : Nat) (d : List Int) (s : State) : (bbx o c k n d s).groups = s.groups := (bbx_tells o c k n d s).groups
@[simp] theorem bbx_flash (o c k n : Nat) (d : List Int) (s : State) : (bbx o c k n d s).flash = s.flash := (bbx_tells o c k n d s).flash
@[simp] theorem bbx_host (o c k n : Nat) (d : List Int) (s : State) : (bbx o c k n d s).host = s.host := (bbx_tells o c k n d s).host
@[simp] theorem bbx_net (o c k n : Nat) (d : List Int) (s : State) : (bbx o c k n d s).net = s.net := (bbx_tells o c k n d s).net
@[simp] theorem bbx_wit (o c k n : Nat) (d : List Int) (s : State) : (bbx o c k n d s).wit = s.wit := (bbx_tells o c k n d s).wit
@[simp] theorem bbx_scrim_addr (o c k n : Nat) (d : List Int) (s : State) : (bbx o c k n d s).scrim.addr = s.scrim.addr := (bbx_tells o c k n d s).scrim_addr
@[simp] theorem bbx_scrim_claimed (o c k n : Nat) (d : List Int) (s : State) : (bbx o c k n d s).scrim.claimed = s.scrim.claimed := (bbx_tells o c k n d s).scrim_claimed
@[simp] theorem bbx_scrim_lsdb (o c k n : Nat) (d : List Int) (s : State) : (bbx o c k n d s).scrim.lsdb = s.scrim.lsdb := (bbx_tells o c k n d s).scrim_lsdb
@[simp] theorem bbx_scrim_contained (o c k n : Nat) (d : List Int) (s : State) : (bbx o c k n d s).scrim.contained = s.scrim.contained := (bbx_tells o c k n d s).scrim_contained
@[simp] theorem bbx_ciph_labels (o c k n : Nat) (d : List Int) (s : State) : (bbx o c k n d s).ciph.labels = s.ciph.labels := (bbx_tells o c k n d s).ciph_labels
@[simp] theorem bbx_ciph_recs (o c k n : Nat) (d : List Int) (s : State) : (bbx o c k n d s).ciph.recs = s.ciph.recs := (bbx_tells o c k n d s).ciph_recs

/-! ### raise -/

@[simp] theorem raise_pending (c k n : Nat) (d : List Int) (s : State) : (raise c k n d s).pending = s.pending := (raise_tells c k n d s).pending
@[simp] theorem raise_clock (c k n : Nat) (d : List Int) (s : State) : (raise c k n d s).clock = s.clock := (raise_tells c k n d s).clock
@[simp] theorem raise_sys (c k n : Nat) (d : List Int) (s : State) : (raise c k n d s).sys = s.sys := (raise_tells c k n d s).sys
@[simp] theorem raise_time (c k n : Nat) (d : List Int) (s : State) : (raise c k n d s).time = s.time := (raise_tells c k n d s).time
@[simp] theorem raise_tregs (c k n : Nat) (d : List Int) (s : State) : (raise c k n d s).tregs = s.tregs := (raise_tells c k n d s).tregs
@[simp] theorem raise_par (c k n : Nat) (d : List Int) (s : State) : (raise c k n d s).par = s.par := (raise_tells c k n d s).par
@[simp] theorem raise_fw (c k n : Nat) (d : List Int) (s : State) : (raise c k n d s).fw = s.fw := (raise_tells c k n d s).fw
@[simp] theorem raise_pwr (c k n : Nat) (d : List Int) (s : State) : (raise c k n d s).pwr = s.pwr := (raise_tells c k n d s).pwr
@[simp] theorem raise_mode (c k n : Nat) (d : List Int) (s : State) : (raise c k n d s).mode = s.mode := (raise_tells c k n d s).mode
@[simp] theorem raise_fuse (c k n : Nat) (d : List Int) (s : State) : (raise c k n d s).fuse = s.fuse := (raise_tells c k n d s).fuse
@[simp] theorem raise_flush (c k n : Nat) (d : List Int) (s : State) : (raise c k n d s).flush = s.flush := (raise_tells c k n d s).flush
@[simp] theorem raise_pins (c k n : Nat) (d : List Int) (s : State) : (raise c k n d s).pins = s.pins := (raise_tells c k n d s).pins
@[simp] theorem raise_groups (c k n : Nat) (d : List Int) (s : State) : (raise c k n d s).groups = s.groups := (raise_tells c k n d s).groups
@[simp] theorem raise_flash (c k n : Nat) (d : List Int) (s : State) : (raise c k n d s).flash = s.flash := (raise_tells c k n d s).flash
@[simp] theorem raise_host (c k n : Nat) (d : List Int) (s : State) : (raise c k n d s).host = s.host := (raise_tells c k n d s).host
@[simp] theorem raise_net (c k n : Nat) (d : List Int) (s : State) : (raise c k n d s).net = s.net := (raise_tells c k n d s).net
@[simp] theorem raise_wit (c k n : Nat) (d : List Int) (s : State) : (raise c k n d s).wit = s.wit := (raise_tells c k n d s).wit
@[simp] theorem raise_scrim_addr (c k n : Nat) (d : List Int) (s : State) : (raise c k n d s).scrim.addr = s.scrim.addr := (raise_tells c k n d s).scrim_addr
@[simp] theorem raise_scrim_claimed (c k n : Nat) (d : List Int) (s : State) : (raise c k n d s).scrim.claimed = s.scrim.claimed := (raise_tells c k n d s).scrim_claimed
@[simp] theorem raise_scrim_lsdb (c k n : Nat) (d : List Int) (s : State) : (raise c k n d s).scrim.lsdb = s.scrim.lsdb := (raise_tells c k n d s).scrim_lsdb
@[simp] theorem raise_scrim_contained (c k n : Nat) (d : List Int) (s : State) : (raise c k n d s).scrim.contained = s.scrim.contained := (raise_tells c k n d s).scrim_contained
@[simp] theorem raise_ciph_labels (c k n : Nat) (d : List Int) (s : State) : (raise c k n d s).ciph.labels = s.ciph.labels := (raise_tells c k n d s).ciph_labels
@[simp] theorem raise_ciph_recs (c k n : Nat) (d : List Int) (s : State) : (raise c k n d s).ciph.recs = s.ciph.recs := (raise_tells c k n d s).ciph_recs

/-! ### The event ring -/

@[simp] theorem irqRise_mbx (n : Nat) (s : State) : (irqRise n s).mbx = s.mbx := by
  unfold irqRise State.emit
  dsimp only
  repeat' split
  all_goals rfl

@[simp] theorem pmeRaise_mbx (s : State) : (pmeRaise s).mbx = s.mbx := by
  unfold pmeRaise State.emit
  dsimp only
  repeat' split
  all_goals rfl

@[simp] theorem irqRise_bbx (n : Nat) (s : State) : (irqRise n s).bbx = s.bbx := by
  unfold irqRise State.emit
  dsimp only
  repeat' split
  all_goals rfl

@[simp] theorem pmeRaise_bbx (s : State) : (pmeRaise s).bbx = s.bbx := by
  unfold pmeRaise State.emit
  dsimp only
  repeat' split
  all_goals rfl

/-- The ring and the black box as they were. -/
def SameRing (s t : State) : Prop := t.mbx.events = s.mbx.events ∧ t.mbx.evtHead = s.mbx.evtHead ∧ t.bbx = s.bbx

theorem sameRing_trans {s t u : State} (a : SameRing s t) (b : SameRing t u) : SameRing s u :=
  ⟨b.1.trans a.1, b.2.1.trans a.2.1, b.2.2.trans a.2.2⟩

theorem useKey_ring (slot : Nat) (s : State) : SameRing s (useKey slot s) := by
  unfold useKey State.modCiph SameRing
  dsimp only
  repeat' split
  all_goals exact ⟨rfl, rfl, rfl⟩

theorem scrimSend_ring (d ty f a : Nat) (b : List Byte) (s : State) : SameRing s (scrimSend d ty f a b s) := by
  unfold scrimSend sendOn sealOn
  split
  · exact ⟨rfl, rfl, rfl⟩
  · split
    · split
      · exact ⟨rfl, rfl, rfl⟩
      · next p _ _ =>
        dsimp only
        generalize hm : (s.modAdj p fun a => { a with txPn := a.txPn + 1 }) = m
        have h1 : SameRing s m := by rw [← hm]; exact ⟨rfl, rfl, rfl⟩
        have h2 := sameRing_trans h1 (useKey_ring (3076 + 2 * p) m)
        generalize useKey (3076 + 2 * p) m = k at h2 ⊢
        exact sameRing_trans h2 ⟨rfl, rfl, rfl⟩
    · exact ⟨rfl, rfl, rfl⟩

theorem deliver_ring (c : Nat) (r : List Byte) (s : State) : SameRing s (deliver c r s) := by
  have hu : SameRing s (s.unqueue c) := ⟨rfl, rfl, rfl⟩
  refine sameRing_trans hu ?_
  unfold deliver State.emit State.modChan
  dsimp only
  generalize s.unqueue c = u
  split
  · unfold SameRing
    split <;> simp
  · split
    · exact ⟨rfl, rfl, rfl⟩
    · split
      · exact ⟨rfl, rfl, rfl⟩
      · split
        · exact sameRing_trans ⟨rfl, rfl, rfl⟩ (scrimSend_ring _ _ _ _ _ _)
        · exact ⟨rfl, rfl, rfl⟩

theorem serveWait_ring (c : Nat) (s : State) : SameRing s (serveWait c s) := by
  unfold serveWait
  dsimp only
  split
  · exact deliver_ring _ _ _
  · exact ⟨rfl, rfl, rfl⟩

theorem serveWaits_ring (s : State) : SameRing s (serveWaits s) := by
  unfold serveWaits
  generalize List.range 64 = l
  have : ∀ t, SameRing s t → SameRing s (l.foldl (fun s c => serveWait c s) t) := by
    induction l with
    | nil => intro t h; exact h
    | cons c l ih => intro t h; exact ih _ (sameRing_trans h (serveWait_ring c t))
  exact this s ⟨rfl, rfl, rfl⟩

theorem evtIrq_ring (s : State) : SameRing s (evtIrq s) := by
  unfold evtIrq SameRing
  split <;> simp

/-- While the data die is in reset no event is told. -/
theorem raiseOnly_inReset (code kind subj : Nat) (d : List Int) {s : State} (h : s.pins.ddReset = true) :
    raiseOnly code kind subj d s = s := by
  simp [raiseOnly, h]

/-- An event told is one record pushed onto the ring. -/
theorem raiseOnly_ring (code kind subj : Nat) (d : List Int) {s : State} (h : s.pins.ddReset = false) :
    SameRing { s with mbx := s.mbx.push (s.eventRec code kind subj d) } (raiseOnly code kind subj d s) := by
  unfold raiseOnly
  rw [if_neg (by simp [h])]
  dsimp only
  generalize { s with mbx := s.mbx.push (s.eventRec code kind subj d) } = u
  have h2 : ∀ w, SameRing u w → SameRing u (if (w.paramN 0x1202).testBit (code / 256) = true then pmeRaise w else w) := by
    intro w h
    split
    · exact sameRing_trans h ⟨by simp, by simp, by simp⟩
    · exact h
  have h3 : ∀ w, SameRing u w → SameRing u (if w.mbx.chans.any Chan.waiting = true then serveWaits w else w) := by
    intro w h
    split
    · exact sameRing_trans h (serveWaits_ring w)
    · exact h
  exact h3 _ (h2 _ (evtIrq_ring u))

@[simp] theorem raiseOnly_bbx (code kind subj : Nat) (d : List Int) (s : State) : (raiseOnly code kind subj d s).bbx = s.bbx := by
  cases h : s.pins.ddReset
  · exact (raiseOnly_ring code kind subj d h).2.2
  · rw [raiseOnly_inReset code kind subj d h]

/-- The newest record after a push is the one pushed. -/
theorem push_getLast (m : MbxState) (e : EventRec) : (m.push e).events.getLast? = some e := by
  unfold MbxState.push
  dsimp only
  rw [List.getLast?_drop, if_neg (by simp <;> omega)]
  simp

/-- An event that is not copied into the black box is one ring record. -/
theorem raise_plain {code : Nat} (h : copiedEvents.contains code = false) (kind subj : Nat) (d : List Int) (s : State) :
    raise code kind subj d s = raiseOnly code kind subj d s := by
  unfold raise
  rw [h]
  simp

theorem raiseOnly_told (code kind subj : Nat) (d : List Int) {s : State} (h : s.pins.ddReset = false) :
    (raiseOnly code kind subj d s).told code subj (d.take 5) := by
  have := (raiseOnly_ring code kind subj d h).1
  refine ⟨s.eventRec code kind subj d, ?_, rfl, rfl, rfl⟩
  unfold State.newest
  rw [this]
  exact push_getLast _ _

/-- A raised event is the newest record of the ring, when it is not copied or when the black box has room. -/
theorem raise_told (code kind subj : Nat) (d : List Int) {s : State} (h : s.pins.ddReset = false)
    (room : copiedEvents.contains code = false ∨ (s.bbxTokens ≠ 0 ∧ s.bbx.queue.length < 56)) :
    (raise code kind subj d s).told code subj (d.take 5) := by
  have told := raiseOnly_told code kind subj d h
  unfold raise
  dsimp only
  split
  · rename_i hc
    have hc : copiedEvents.contains code = true := by simp at hc; simpa using hc.1
    obtain hr | ⟨h1, h2⟩ := room
    · rw [hc] at hr; cases hr
    · have e1 : (raiseOnly code kind subj d s).bbxTokens = s.bbxTokens := by simp [State.bbxTokens]
      unfold bbx
      dsimp only
      rw [if_pos rfl, if_neg (by simp [e1, h1]; omega)]
      exact told
  · exact told

/-! ### Serving a request -/

/-- A request that passes the checks is run on its body and answered. -/
theorem serve_eq {c op : Nat} {s : State} (h : s.carries c op) (run : List Byte → State → Answer × State) :
    serve c op run s = answer c (run (s.body c) s).1.status (run (s.body c) s).1.detail (run (s.body c) s).1.body (run (s.body c) s).2 := by
  simp [serve, serveThen, h.1, h.2, State.body]

/-- A request that only reads is answered from the state as it is. -/
theorem serveRead_eq {c op : Nat} {s : State} (h : s.carries c op) (f : List Byte → State → Answer) :
    serveRead c op f s = answer c (f (s.body c) s).status (f (s.body c) s).detail (f (s.body c) s).body s :=
  serve_eq h _

/-- A request whose command answers later. -/
theorem serveThen_none {c op : Nat} {s t : State} {run : List Byte → State → Option Answer × State} (h : s.carries c op)
    (hr : run (s.body c) s = (none, t)) (after : State → State) : serveThen c op run after s = t := by
  unfold State.body at hr
  simp [serveThen, h.1, h.2, hr]

/-- A request whose command answers, and what follows the answer. -/
theorem serveThen_some {c op : Nat} {s t : State} {a : Answer} {run : List Byte → State → Option Answer × State}
    (h : s.carries c op) (hr : run (s.body c) s = (some a, t)) (after : State → State) :
    serveThen c op run after s = after (answer c a.status a.detail a.body t) := by
  unfold State.body at hr
  simp [serveThen, h.1, h.2, hr]

/-- A request that fails a check of R377 is answered with that check's status, and nothing else happens. -/
theorem serveThen_error {c op st : Nat} {s : State} {run : List Byte → State → Option Answer × State}
    (h : readyFor c op s = true) (e : requestError c (s.chan c).req s = some st) (after : State → State) :
    serveThen c op run after s = answer c st 0 [] s := by
  simp [serveThen, h, e]

end Sys2Proof.Machine
end

