-- ==== Sys2Proof/WellFormed.lean ====
section
/-! DEFINITION. Which commands are well-formed: every index that an operand gives names a part that the controller has. A
command that is not well-formed names nothing, and its meaning leaves the state it would name alone. -/

namespace Sys2Proof

/-- A mailbox channel (R372), a bay (R425), a port (R274), an SP port (R306), a sub-port (R274), a class (R281). -/
def okChan (n : Nat) : Bool := decide (n < 64)
def okBay (n : Nat) : Bool := decide (n < 24)
def okPort (n : Nat) : Bool := decide (n < 12)
def okSp (n : Nat) : Bool := decide (n < 4)
def okSub (n : Nat) : Bool := decide (n < 4)
def okClass (n : Nat) : Bool := decide (n < 8)

/-- A stripe group (R232), a time source (R43), a fabric address (R307), a DMA queue (R415), an MSI-X vector (R416), a namespace
index (R57). -/
def okGroup (n : Nat) : Bool := decide (n < 6)
def okSource (n : Nat) : Bool := decide (1 ≤ n) && decide (n < 4)
def okAddr (n : Nat) : Bool := decide (n < 4096)
def okQueue (n : Nat) : Bool := decide (n < 8)
def okVector (n : Nat) : Bool := decide (n < 64)
def okNs (n : Nat) : Bool := decide (n < 1024)

/-- The shelf strap (R515), four wake inputs or a PoE class (R463, R479), a PCIe generation (R402). -/
def okShelf (n : Nat) : Bool := decide (n < 64)
def okNibble (n : Nat) : Bool := decide (n < 16)
def okGen (n : Nat) : Bool := decide (1 ≤ n) && decide (n < 7)

/-- Numbers of 16 and 32 bits. -/
def okU16 (n : Nat) : Bool := decide (n < 2 ^ 16)
def okU32 (n : Nat) : Bool := decide (n < 2 ^ 32)

/-- A completion entry is 16 bytes (R218). -/
def okEntry (b : List Byte) : Bool := b.length == 16

/-- Every index in the command's operands is in range. -/
def Instr.wf : Instr → Bool
  | .registerWrite _ _ => true
  | .mirroredRead _ => true
  | .powerDieWriteApply => true
  | .pkgLinkDown _ _ => true
  | .pkgLinkUp => true
  | .timeNowRead => true
  | .timeCfgWrite v => okU32 v
  | .todLoad => true
  | .slotBoundary => true
  | .frameBoundary => true
  | .turnBoundary => true
  | .timeStep => true
  | .ptpSyncRx _ => true
  | .ptpAnnounceRx _ => true
  | .ptpSourceLoss _ => true
  | .ppsInEdge _ _ => true
  | .ppsInLoss => true
  | .sourceRequalified src => okSource src
  | .slewComplete => true
  | .lockOffsetDrift => true
  | .ppsOutStart => true
  | .ppsOutEnd => true
  | .connect _ => true
  | .propertySet _ => true
  | .propertyGet _ => true
  | .disconnect _ => true
  | .getLogPage _ => true
  | .nvmeIdentify _ => true
  | .nvmeAbort _ => true
  | .setFeatures _ => true
  | .getFeatures _ => true
  | .asyncEventRequest _ => true
  | .keepAlive _ => true
  | .directiveSend _ => true
  | .directiveReceive _ => true
  | .unsupportedCommand _ => true
  | .nvmeFlush _ => true
  | .nvmeWrite _ => true
  | .nvmeRead _ => true
  | .writeZeroes _ => true
  | .datasetManagement _ => true
  | .nvmeVerify _ => true
  | .zoneMgmtSend _ => true
  | .zoneMgmtReceive _ => true
  | .zoneAppend _ => true
  | .gatheredRead _ => true
  | .pacedRead _ => true
  | .katoExpiry _ => true
  | .transportError _ _ => true
  | .capsuleReserveAdmit => true
  | .overlapWriteRelease => true
  | .writeFetchResume => true
  | .pacedFrameSend _ _ _ => true
  | .stageBufferGrant => true
  | .stageStarveTimeout => true
  | .bayWriteTlp bay _ _ => okBay bay
  | .tagCheckDone _ => true
  | .slotRevokeDrain _ => true
  | .tagQuarantineExpiry _ => true
  | .hawkDecay => true
  | .hawkPinRelease _ => true
  | .peerHoldExpiry _ => true
  | .peerReadReq src _ => okAddr src
  | .peerReadRsp src _ => okAddr src
  | .dieDispatch bay _ => okBay bay
  | .eraseTurnSuspend => true
  | .programOverrun bay _ => okBay bay
  | .dieStatusPoll bay _ => okBay bay
  | .readCpl bay entry => okBay bay && okEntry entry
  | .verifyCpl bay entry => okBay bay && okEntry entry
  | .programCpl bay entry => okBay bay && okEntry entry
  | .eraseCpl bay entry => okBay bay && okEntry entry
  | .suspendCpl bay entry => okBay bay && okEntry entry
  | .resumeCpl bay entry => okBay bay && okEntry entry
  | .abortCpl bay entry => okBay bay && okEntry entry
  | .dieStatusCpl bay entry => okBay bay && okEntry entry
  | .epochSetCpl bay entry => okBay bay && okEntry entry
  | .epochNotice bay entry => okBay bay && okEntry entry
  | .opAbortTimer _ => true
  | .opTimeout _ => true
  | .moduleSourceRead bay _ _ => okBay bay
  | .bayPerstRelease bay => okBay bay
  | .bayLinkTrainTimeout bay => okBay bay
  | .bayEnumerate bay _ _ => okBay bay
  | .bayPortReady bay ready => okBay bay && ready.all okU32
  | .baylnkRetrain bay => okBay bay
  | .baylnkHold bay _ => okBay bay
  | .bayLinkDown bay => okBay bay
  | .spareBandForm gi => okGroup gi
  | .gcVictimSelect gi => okGroup gi
  | .gcBatchVerified gi _ => okGroup gi
  | .gcVictimDurable gi _ => okGroup gi
  | .gcReadersDrained gi _ => okGroup gi
  | .zoneCompact nsx _ => okNs nsx
  | .wearLevelStart gi => okGroup gi
  | .deltaLogAppend gi => okGroup gi
  | .checkpointTimer gi => okGroup gi
  | .groupMount g _ => okGroup g
  | .skimPassStart => true
  | .skimStripeCompare g _ _ => okGroup g
  | .jmirrorRx src _ => okAddr src
  | .jackRx _ => true
  | .jmirrorRetry g => okGroup g
  | .mirrorFailTimeout g => okGroup g
  | .resyncStart g => okGroup g
  | .resyncRx _ => true
  | .jcopyReqRx src _ => okAddr src
  | .jcopyRx _ => true
  | .jcopyTimeout g => okGroup g
  | .journalWaitTimeout g => okGroup g
  | .spareDelayExpiry g _ => okGroup g
  | .returnWindowExpiry g _ => okGroup g
  | .rebuildBandDone g _ => okGroup g
  | .hostFrameRx _ => true
  | .pfcFrameRx port sub _ _ => okPort port && okSub sub
  | .pfcWatchdog port sub cls => okPort port && okSub sub && okClass cls
  | .subportDown port sub => okPort port && okSub sub
  | .subportUp port sub => okPort port && okSub sub
  | .netPortEnable port _ => okPort port
  | .portSelect port sub => okPort port && okSub sub
  | .internalFrameAdmit _ => true
  | .cnpRx _ _ => true
  | .cnpRecover _ _ => true
  | .mirrorReset => true
  | .netCommit => true
  | .scrimFrameRx port _ => okSp port
  | .helloTx => true
  | .helloRx port _ => okSp port
  | .adjDead port => okSp port
  | .addrClaim => true
  | .lsaRx port _ => okSp port
  | .lsaAckRx port _ => okSp port
  | .lsaRetransmit port => okSp port
  | .lsaRefresh => true
  | .lsaAgeTick => true
  | .spfCompute => true
  | .faultReportRx port _ => okSp port
  | .faultWindowExpiry subject _ => okAddr subject
  | .faultRepeat subject _ => okAddr subject
  | .leaseAnswerRx _ => true
  | .leaseLapse g => okGroup g
  | .takeoverTrigger g => okGroup g
  | .witnessRegisterRx src flow _ => okAddr src && okU16 flow
  | .witnessRenewRx src flow _ => okAddr src && okU16 flow
  | .witnessTakeoverRx src flow _ => okAddr src && okU16 flow
  | .witnessReleaseRx _ => true
  | .releaseHoldExpiry _ => true
  | .provisionalMature _ => true
  | .witnessDatagramRx _ port _ => okU16 port
  | .voteRx _ => true
  | .takeoverAttemptEnd g => okGroup g
  | .takeoverRetry g => okGroup g
  | .handoverOfferRx _ => true
  | .handoverAckRx _ => true
  | .handoverCommitRx _ => true
  | .handoverCancelRx _ => true
  | .handoverRequestRx _ => true
  | .handoverJackTimeout g => okGroup g
  | .failbackHoldoffExpiry g => okGroup g
  | .swapDue g => okGroup g
  | .witnessUnreachable g => okGroup g
  | .keyxInitRx port _ => okSp port
  | .keyxConfirmRx port _ => okSp port
  | .keyxInitResend port => okSp port
  | .keyxRestart port => okSp port
  | .keyxRekey port => okSp port
  | .rootKeyFault => true
  | .entropyFail => true
  | .entropyRecover => true
  | .tlsRecordRx _ _ _ => true
  | .tlsKeyUpdate _ _ _ => true
  | .mbxDoorbell c => okChan c
  | .mbxAck c => okChan c
  | .bar2AreaWrite _ _ => true
  | .mbxMpRequest _ port _ => okU16 port
  | .mbxSmbusRequest _ _ _ => true
  | .mbxScrimRequest src _ _ => okAddr src
  | .mbxDataDieTake c => okChan c
  | .mbxAonWithdraw chan => okChan chan
  | .jobDone _ => true
  | .identify chan => okChan chan
  | .stats chan => okChan chan
  | .statsDescribe chan => okChan chan
  | .netAddr chan => okChan chan
  | .mirrorRead chan => okChan chan
  | .reset chan => okChan chan
  | .credential chan => okChan chan
  | .jobStatus chan => okChan chan
  | .fuseStatus chan => okChan chan
  | .fuseRootKey chan _ => okChan chan
  | .fuseKeyHash chan _ => okChan chan
  | .fuseLifecycle chan _ => okChan chan
  | .fuseDebugLock chan _ => okChan chan
  | .otpWrite chan _ => okChan chan
  | .otpVoid chan _ => okChan chan
  | .otpRead chan => okChan chan
  | .nsCreate chan => okChan chan
  | .nsDelete chan => okChan chan
  | .nsResize chan => okChan chan
  | .nsAttr chan => okChan chan
  | .nsGrant chan => okChan chan
  | .nsSubsys chan => okChan chan
  | .nsInfo chan => okChan chan
  | .bayStatus chan => okChan chan
  | .bayPower chan => okChan chan
  | .bayHold chan => okChan chan
  | .grpForm chan => okChan chan
  | .grpDissolve chan => okChan chan
  | .grpAssign chan => okChan chan
  | .grpAcceptLoss chan => okChan chan
  | .grpStatus chan => okChan chan
  | .grpLostRead chan => okChan chan
  | .faultSubmit chan => okChan chan
  | .forceTakeover chan => okChan chan
  | .handover chan => okChan chan
  | .labelWrite chan => okChan chan
  | .labelRead chan => okChan chan
  | .genAdvance chan => okChan chan
  | .pskExport chan => okChan chan
  | .modeStatus chan => okChan chan
  | .modeRequest chan => okChan chan
  | .wakeConfig chan => okChan chan
  | .islandTime chan => okChan chan
  | .bbxRead chan => okChan chan
  | .bbxClear chan => okChan chan
  | .paramGet chan => okChan chan
  | .paramSet chan => okChan chan
  | .paramCommit chan => okChan chan
  | .paramDiscard chan => okChan chan
  | .paramDescribe chan => okChan chan
  | .paramSave chan => okChan chan
  | .paramDefaults chan => okChan chan
  | .fwBegin chan => okChan chan
  | .fwWrite chan => okChan chan
  | .fwVerify chan => okChan chan
  | .fwActivate chan => okChan chan
  | .fwConfirm chan _ => okChan chan
  | .fwStatus chan => okChan chan
  | .fwAbort chan => okChan chan
  | .fwSessionIdle => true
  | .fwTrialTimeout => true
  | .eventRead chan => okChan chan
  | .eventWait chan => okChan chan
  | .eventWaitTimeout chan => okChan chan
  | .evtHeadRead => true
  | .configRequest _ _ _ => true
  | .epPerstAssert => true
  | .epPerstDeassert => true
  | .epCfgReadyTimeout => true
  | .epHotReset => true
  | .epFlr => true
  | .epLinkDown => true
  | .epLinkUp gen _ => okGen gen
  | .dmaReadTimeout queue => okQueue queue
  | .epD3hotEntry => true
  | .epD3coldEntry => true
  | .epD0Return => true
  | .pmeTurnOff _ => true
  | .bar4Access _ _ _ _ => true
  | .epWinCommit => true
  | .winEpochDrain => true
  | .dmaDescDone queue => okQueue queue
  | .msixUnmask v => okVector v
  | .prslChange bay _ => okBay bay
  | .prssChange bay _ => okBay bay
  | .seatTimer bay => okBay bay
  | .unseatTimer bay => okBay bay
  | .rampComplete bay _ => okBay bay
  | .gateEnhanced bay => okBay bay
  | .rampTimeout bay => okBay bay
  | .faultTimerExpiry bay _ => okBay bay
  | .fastTrip bay => okBay bay
  | .powerGoodAssert bay _ => okBay bay
  | .pgUndervolt bay => okBay bay
  | .thermalSample bay _ => okBay bay
  | .fetDamageDetect bay _ => okBay bay
  | .retryOfftimeExpiry bay => okBay bay
  | .retryCountReset bay => okBay bay
  | .cycleReturn bay => okBay bay
  | .baypwrOn bay => okBay bay
  | .baypwrOff bay => okBay bay
  | .baypwrCycle bay => okBay bay
  | .baypwrClear bay => okBay bay
  | .bayOrReverse bay => okBay bay
  | .feedOringOn _ _ _ => true
  | .feedReverseOff _ _ _ => true
  | .feedRearm _ _ _ => true
  | .feedOvOff _ _ => true
  | .feedOvRecover _ _ _ => true
  | .feedAbsent _ _ => true
  | .feedRestored _ _ _ => true
  | .feedCollapse _ => true
  | .pwrfailNFall => true
  | .flushProgressTick => true
  | .pfailFlushDone => true
  | .postFlushReset => true
  | .sramEccError _ => true
  | .dramEccError _ => true
  | .invariantBreak => true
  | .dieCriticalTemp => true
  | .dieOvertempShutdown _ => true
  | .overtempWakeHoldEnd => true
  | .islandEntryComplete => true
  | .wakeInputQualify levels => okNibble levels
  | .islandAlarm => true
  | .wakeLatchClear _ => true
  | .islandExit => true
  | .mainPgTimeout => true
  | .mainPgRise => true
  | .mainPgFall => true
  | .ddRstRelease => true
  | .primerBoot _ _ => true
  | .standbyReached => true
  | .resumeTimeWindow => true
  | .avsResponse _ _ => true
  | .avsTimeout => true
  | .avsLowerRetry => true
  | .islandSupplyChange _ _ poeClass => okNibble poeClass
  | .vaonLoss => true
  | .bbxRecordSubmit _ => true
  | .bbxRecordCommit _ => true
  | .bbxEraseDone => true
  | .ddBeatEdge => true
  | .watchdogExpiry => true
  | .powerDieReset => true
  | .pwronResetAssert => true
  | .pwronResetRelease _ _ _ shelf => okShelf shelf
  | .bayLinkTrained bay _ _ => okBay bay
  | .breakerCrossing bay _ _ => okBay bay
  | .operatingPointVoltage _ _ => true
  | .mpPhyResetRelease => true
  | .ptpMessageTx _ => true
  | .ptpPdelayReqRx port _ => okSp port
  | .pfcPauseExpiry port sub cls => okPort port && okSub sub && okClass cls
  | .pfcWatchdogRecover port sub cls => okPort port && okSub sub && okClass cls
  | .transportRetransmit _ _ => true

end Sys2Proof
end

