-- ==== Sys2Proof/Tests/Slice0.lean ====
section
/-! SUPPORT. Small tests: ill-formed commands that the check refuses, states that meet the hypotheses of each statement, and single
steps whose results are worked from the spec. -/

namespace Sys2Proof.Tests

open Sys2Proof.Machine

set_option Elab.async false

/-! ### States -/

/-- The data die is out of reset, its firmware runs, the on-package link is up. -/
def up : State :=
  { State.reset with pins := { State.reset.pins with ddReset := false }, fw := { State.reset.fw with running := true },
                     sys := { linkUp := true } }

/-- What a command's next state shows. -/
def after (c : Instr) (s : State) (p : State → Bool) : Bool :=
  match exec c s with
  | .next t => p t
  | _ => false

/-! ### Reset, step, decoder -/

theorem test_reset_queue_empty : State.reset.pending = [] := by decide
theorem test_no_word_spells_a_command : decodeTableWord 16 0 = none := by decide
theorem test_step_takes_front :
    (match step { up with pending := [.todLoad, .ppsOutEnd] } with
     | .next t => decide (t.pending = [.ppsOutEnd]) && t.time.todLoad
     | _ => false) = true := by decide
theorem witness_IdleStepPassesOneCycle : State.reset.pending = [] := by decide
theorem witness_EveryStepKeepsMemoriesRingAndTables : up.Inv ∧ step up = .next (pass 1 up) :=
  ⟨⟨⟨by decide, by decide, by decide, by decide, fun _ h => absurd h (Nat.not_lt_zero _)⟩,
    ⟨by decide, by decide +kernel, by decide +kernel, by decide +kernel⟩, by decide, by decide, by decide, by decide, by decide⟩, rfl⟩
theorem witness_CommandsKeepQueueAndOnlyAdd : exec .todLoad up = .next { up with time := { up.time with todLoad := true } } := by rfl
theorem witness_FusesOnlyBlow : exec .overtempWakeHoldEnd up = .next up := rfl
theorem witness_TimeNowReadLatchesTimeRegisters : up.ep.dstate = .d0 := by decide
theorem witness_SlotsBeginWhereFormulaYieldsThem : 64 ≤ up.period ∧ frameOf up.period 1999999 = 1 ∧ slotOf up.period 1999999 = 63 := by decide

/-! ### Registers and the on-package link (00, 01) -/

theorem witness_MirroredAccessesFollowLink :
    (up.pins.ddReset = false ∧ mirrored 0x00070408 = true ∧ 0x00070408 % 4 = 0 ∧ up.sys.linkUp = true) ∧
    ({ up with sys := {} }).sys.linkUp = false ∧
    ({ up with sys := { up.sys with posted := [{ addr := 0x00070408, value := 5 }] } }).sys.posted =
      { addr := 0x00070408, value := 5 } :: [] := by decide
theorem witness_RegisterWritesFollowAccessCodes : up.pins.ddReset = false ∧ 0x000D0000 ≤ 0x000D0000 ∧ 0x000D0000 % 4 = 0 := by
  decide
theorem test_partial_write_dropped : wholeWords 0x00020061 [1, 2, 3, 4, 5, 6] = [] := by decide
theorem test_unaligned_write_takes_inner_word :
    wholeWords 0x0002005E [0, 0, 1, 2, 3, 4, 9, 9] = [(0x00020060, 0x04030201)] := by decide
theorem test_link_down_read_all_ones :
    after (.mirroredRead { off := 0x00080000, len := 4 }) { up with sys := {} } (fun t => decide (t.out = [.regRead 0x00080000 (leBytes 4 0xFFFFFFFF)]) &&
      t.sys.linkTimeout) = true := by decide

/-! ### Fabric time (02) -/

/-- Own time of the worked step of R53: 1,700,000,100,000,500,000 ns. -/
def shelf7 : State := { up with time := { up.time with fab := 1700000100000500000 * 2 ^ 32 } }

theorem test_schedule_numbers_of_shelf7 :
    shelf7.frameNow = 1700000100000 ∧ shelf7.slotNow = 32 ∧ shelf7.turnNow = 850000050000 := by decide
theorem test_slots_of_250us_frame :
    [0, 1, 2, 3, 4].map (slotStart 250000) = [0, 3907, 7813, 11719, 15625] := by decide
/-- In STANDBY. -/
def idle : State := { up with mode := { up.mode with mode := .standby } }
/-- PPS_OUT in its PPS mode, LOCKED. -/
def pulsing : State :=
  { up with par := { up.par with vals := [{ num := 0x101A, val := 1 }] }, time := { up.time with servo := .locked } }
theorem witness_TimeSettingsAndPulses :
    (idle.timeIdle = true ∧ (∀ g ∈ idle.groups, g.unfit = false) ∧ (∀ gi < 6, nth idle.host.ana gi = idle.anaState gi)) ∧
    ({ up with mode := { up.mode with mode := .owner } }).timeIdle = false ∧ up.ddUp = true ∧
    (pulsing.ppsOn = true ∧ pulsing.time.addend ≠ 0 ∧ up.ppsOn = false ∧
      ({ pulsing with tregs := { pulsing.tregs with ppsOut := true } }).tregs.ppsOut = true ∧ up.tregs.ppsOut = false) ∧
    ({ up with par := { up.par with vals := [{ num := 0x1014, val := 128 }] } }).ddUp = true ∧
    (({ up with par := { up.par with vals := [{ num := 0x1014, val := 128 }] } }).paramN 0x1014).testBit 7 = true := by decide
/-- Scrim PTP in use, qualified, under the grandmaster 5, of class 1, one hop away. -/
def onScrim : State :=
  { up with time := { up.time with active := 1, servo := .locked, gm := false, gmDev := 5, upDev := 5,
                                   scrim := { count := 16, qualified := true, last := some 0, interval := -4 } },
            fuse := { up.fuse with deviceId := 9 },
            tregs := { up.tregs with peers := [{ devId := 5, reachable := true, cls := 1, gmDev := 5, gmCls := 1, periodUs := 1000, fpt := 2 }] } }
theorem witness_SourcesQualifyAndAreLost :
    (onScrim.ddUp = true ∧ (0 : Nat) = onScrim.paramN 0x1013 ∧ onScrim.srcEnabled 1 = true ∧ onScrim.peerPeriodOk 5 = true ∧
      onScrim.time.upDev = 5 ∧ onScrim.time.gm = false ∧ onScrim.time.active = 1 ∧ onScrim.time.scrim.qualified = true ∧
      onScrim.time.scrim.lost = false ∧ onScrim.timeStands) ∧
    ((500 : Nat) * 1000 ≠ up.period ∧ up.tregs.peers = []) ∧
    (({ up with time := { up.time with active := 2 } }).srcUsable 3 = false ∧
      ({ up with time := { up.time with active := 2 } }).srcUsable 1 = false) ∧
    (false = (up.paramN 0x1019 == 1) ∧ up.time.ppsLast = none ∧ up.time.todLoad = false) ∧
    ({ up with time := { up.time with ppsQualified := true } }).time.ppsQualified = true ∧
    (({ onScrim with time := { onScrim.time with scrim := { onScrim.time.scrim with lost := true }, active := 4 } }).srcEnabled 1
      = true ∧ onScrim.elect.dev ≠ onScrim.fuse.deviceId) := by decide
/-- LOCKED with the offset outside the threshold for 16 intervals. -/
def drifted (d : Int) : State :=
  { onScrim with time := { onScrim.time with outside := 16, scrim := { onScrim.time.scrim with offsets := [d] } } }
theorem witness_ServoLocksAndActsOnDrift :
    ((let s : State := { onScrim with time := { onScrim.time with servo := .slewing } }
      s.time.servo = .slewing ∧ s.pins.ddReset = false ∧ (s.srcOffset s.time.active).natAbs ≤ s.paramN 0x1016 ∧
        ({ s with time := { s.time with everLocked := true } } : State).timeStands)) ∧
    (((drifted 1000000).srcOffset 1).natAbs ≤ (drifted 1000000).period ∧ 0 < (drifted 1000000).paramN 0x1017 ∧
      (drifted 1000000).time.stepPending = false ∧ (drifted 1000000).time.stepDue = none) ∧
    (drifted 3400000).period < ((drifted 3400000).srcOffset (drifted 3400000).time.active).natAbs ∧
    ({ up with mode := { up.mode with resumeOpen := true } }).mode.resumeOpen = true ∧ up.mode.resumeOpen = false := by decide
/-- In STANDBY with nothing waiting but a commit of one value and one that came at the boundary. -/
def committed : State :=
  { up with par := { up.par with commits := [{ entries := [{ num := 0x1310, val := 5 }], due := 1 }, { entries := [], due := 2 }] } }
theorem witness_BoundariesAdvanceNumbers :
    State.reset.pins.ddReset = true ∧
    (committed.pins.ddReset = false ∧ committed.net.scheds = [] ∧
      (∀ g ∈ committed.groups, g.role = .none ∧ g.hand = none ∧ g.requestAgain = false ∧ ¬(g.formed = true ∧ g.health = .forming)) ∧ committed.groups.length = 6 ∧
      committed.flash.skimOn = false ∧ committed.mode.toHand = [] ∧ committed.time.addend ≠ 0 ∧ committed.time.stepDue = none) ∧
    ({ committed with time := { committed.time with stepDue := some 3400000 } }).time.stepDue = some ((3400000 : Nat) : Int) := by decide
theorem test_turn_boundary_applies_commit :
    after .turnBoundary committed (fun t => decide (t.param 0x1310 = 5) && decide (t.nowNs = 2000000)) = true := by decide
theorem test_step_of_R53 :
    after .timeStep { shelf7 with time := { shelf7.time with stepDue := some 3400000 }, tregs := { shelf7.tregs with turnSeen := 850000050000 } }
      (fun t => decide (t.nowNs = 1700000100005400000) && decide (t.reg 0x00020064 = 0xD48) && t.time.stepPending &&
        decide (t.frameNow = 1700000100005) && decide (t.slotNow = 25) && decide (t.turnNow = 850000050002)) = true := by
  decide +kernel

/-! ### Host service (03) -/

/-- A granted conventional namespace 0 and zoned namespace 1 of an owned group, one association with one session. -/
def hosted : State :=
  { up with
    mode := { up.mode with mode := .owner }
    groups := upd up.groups 0 fun g => { g with formed := true, role := .owner, health := .optimal }
    host := { up.host with
      nss := [{ nsx := 0, size := 1073741824, hawk := 0 }, { nsx := 1, zoned := true, size := 1073741824, hawk := 0, maxActive := 4, maxOpen := 4 }]
      grants := [{ num := 0, nqn := [104], bitmap := 3 }]
      assocs := [{ num := 1, cntlid := 1, nqn := [104] }]
      sessions := [{ num := 2, assoc := 1, qid := 1, sqsize := 32, policy := { rate := 800 }, bucket := 4096 }]
      nextId := 3 } }
/-- An I/O capsule of one 4 KiB LBA, and an admin capsule. -/
def ioCap (nsid : Nat) : Payload.Capsule := { cntlid := 1, qid := 1, cid := 7, nsid }
def adminCap : Payload.Capsule := { cntlid := 1, cid := 7 }
def theAssoc : Assoc := { num := 1, cntlid := 1, nqn := [104] }
def theSess : Session := { num := 2, assoc := 1, qid := 1, sqsize := 32, policy := { rate := 800 }, bucket := 4096 }

theorem witness_AdminCommandsAnswer :
    hosted.adminNow adminCap theAssoc ∧ katoOk 600000 = true ∧ katoOk 0 = true ∧ hosted.sessAt 1 2 = none ∧
    hosted.hostNs theAssoc 1 = some { nsx := 0, size := 1073741824, hawk := 0 } ∧ theAssoc.notices = [] ∧ theAssoc.aers.length < 16 ∧
    ({ hosted with host := { hosted.host with assocs := [{ theAssoc with notices := [(2, 0, 4)] }] } }).adminNow adminCap
      { theAssoc with notices := [(2, 0, 4)] } ∧
    ({ hosted with host := { hosted.host with assocs := [{ theAssoc with aers := [9] }] } }).adminNow { adminCap with cdw10 := 9 * 65536 }
      { theAssoc with aers := [9] } := by
  unfold State.adminNow State.decodesNow; decide +kernel
theorem test_keep_alive_completes :
    after (.keepAlive adminCap) hosted (fun t => decide (t.out = [.completion 1 0 7 0 false 0 0 1])) = true := by decide
/-- A Connect of the granted host to the subsystem. -/
def conn (qid cntlid : Nat) : Payload.Connect := { qid, cntlid, port := 12, hostNqn := [104], subNqn := [115] }
def named : State := { hosted with host := { hosted.host with nqn := some [115] } }
theorem witness_AssociationsComeAndGo :
    (named.ddUp = true ∧ named.subUp 12 0 = true ∧ named.serves (conn 0 0xFFFF) false = true ∧ named.serving = true ∧
      ({ named with mode := { named.mode with mode := .standby } }).serving = false ∧ nqnOf [115] ≠ discoveryNqn ∧ nqnOf [115] = named.subsystemNqn) ∧
    (∀ g ∈ ({ named with host := { named.host with grants := [] } }).host.grants, nqnOf g.nqn ≠ nqnOf [104]) ∧
    (named.freeCntlid = some 2 ∧ (∀ x ∈ named.host.assocs, x.num ≠ named.host.nextId) ∧ named.admitted + 31 + 1 ≤ named.paramN 0x2003) ∧
    (named.assocAt 1 = some theAssoc ∧ named.sessAt 1 2 = none ∧ 1023 + 1 ≤ named.paramN 0x2002 ∧
      (named.host.sessions.filter fun q => q.assoc == 1).length < named.paramN 0x2001) ∧
    (hosted.decodesNow (ioCap 1) ∧ hosted.sessAt 1 1 = some theSess ∧ (∀ x ∈ hosted.host.cmds, x.sess ≠ 2)) ∧
    (({ hosted with host := { hosted.host with held := [{ cap := { adminCap with opc := 0x18 } }] } }).contexts < 65536) := by
  unfold State.decodesNow; decide +kernel
theorem test_connect_gets_lowest_free_id :
    after (.connect (conn 0 0xFFFF)) named (fun t => decide (t.out = [.completion 2 0 0 0 false 2 0 0])) = true := by decide +kernel
/-- As many contexts in use as `l` is long, stood for by Asynchronous Event Requests, and `used` cells of the reserve. -/
def full (l : List Nat) (used : Nat) : State :=
  { hosted with host := { hosted.host with assocs := [{ theAssoc with aers := l }], held := [{ cells := used }] } }
theorem full_contexts (l : List Nat) (used : Nat) : (full l used).contexts = l.length := by
  simp only [full, State.contexts, hosted, up, State.reset]
  simp
theorem witness_capsule_held (used : Nat) : ∃ l, (full l used).contexts = 65536 ∧ (full l used).cellsUsed = used :=
  ⟨List.replicate 65536 0, (full_contexts _ _).trans List.length_replicate, by simp only [full, State.cellsUsed, hosted, up, State.reset]; simp⟩
theorem witness_ReadsDeliverTheirRange :
    hosted.ioNow (ioCap 1) false theAssoc theSess { nsx := 0, size := 1073741824, hawk := 0 } ∧
    (hosted.queueOf 2 = (1, 1) ∧ hosted.sess? 2 = some theSess ∧ (∀ x ∈ hosted.host.cmds, x.num ≠ hosted.host.nextId)) ∧
    (4096 : Nat) ≤ hosted.paramN 0x2006 ∧ (hosted.pacedLeft 2 + 4096) * 8 ≤ hosted.paramN 0x2008 * 800 * 1000 ∧
    hosted.paramN 0x2008 * 1 * 1000 < (hosted.pacedLeft 2 + 65536 * 4096) * 8 ∧
    hosted.ioNow { ioCap 2 with cdw13 := 0x500 } false theAssoc theSess
      { nsx := 1, zoned := true, size := 1073741824, hawk := 0, maxActive := 4, maxOpen := 4 } ∧
    (hosted.cntlidOf 1 = 1 ∧ 4096 ≤ hosted.bucketNow theSess ∧ hosted.bucketNow theSess < 4097) := by
  unfold State.ioNow State.decodesNow; decide +kernel
theorem test_read_past_end :
    after (.nvmeRead { ioCap 1 with cdw10 := 262144 }) hosted (fun t => decide (t.out = [.completion 1 1 7 0x080 true 0 0 1])) = true := by
  decide
/-- A write in flight to the first 4 KiB. -/
def writing (w : WriteSt) : State :=
  { hosted with host := { hosted.host with
    cmds := [{ num := 3, sess := 2, kind := .write, stamp := 1, len := 4096, wst := w }], nextId := 4 } }
theorem witness_WritesEnterOrAreRefused :
    hosted.ioNow (ioCap 1) true theAssoc theSess { nsx := 0, size := 1073741824, hawk := 0 } ∧
    (hosted.ns? 0 = some { nsx := 0, size := 1073741824, hawk := 0 } ∧ hosted.writeProtected { nsx := 0 } = false) ∧
    hosted.writeProtected { nsx := 0, protect := true } = true ∧
    (writing .staged).ioNow (ioCap 1) true theAssoc theSess { nsx := 0, size := 1073741824, hawk := 0 } ∧
    hosted.ioNow (ioCap 2) true theAssoc theSess
      { nsx := 1, zoned := true, size := 1073741824, hawk := 0, maxActive := 4, maxOpen := 4 } ∧
    (hosted.group 0).journal = [] ∧ (hosted.group 0).space ≠ .spent ∧ hosted.poolHigh = false := by
  unfold State.ioNow State.decodesNow; decide +kernel
/-- The zone of a first write opens. -/
theorem witness_zone_opens : ∃ s₁, openForWrite { nsx := 1, zoned := true, size := 1073741824, hawk := 0, maxActive := 4, maxOpen := 4 } 0 0
    (hosted.decoded (ioCap 2)) = .ok s₁ := ⟨_, rfl⟩
/-- A held Finish of an open zone of a group that runs solo. -/
def finishing : State :=
  { hosted with
    groups := upd hosted.groups 0 fun g => { g with mirror := .solo }
    host := { hosted.host with
      nss := [{ nsx := 1, zoned := true, size := 1073741824, zones := [{ num := 0, st := .explOpen }] }]
      cmds := [{ num := 3, sess := 2, kind := .zone, nsx := 1, act := 2, wst := .room }], nextId := 4 } }
theorem witness_held_commands :
    ((writing .overlap).planWrite { num := 3, sess := 2, kind := .write, stamp := 1, len := 4096, wst := .overlap } { nsx := 0, size := 1073741824 }
      = none ∧ 1025 ≤ finishing.freeRecs ∧ (finishing.group 0).mirror = .solo ∧ finishing.poolHigh = false) := by decide +kernel
theorem test_finish_resumes :
    after .writeFetchResume finishing (fun t => decide ((t.ns? 1).map (fun n => (n.zone 0).st) = some .full)) = true := by decide +kernel
theorem test_write_past_pointer :
    after (.nvmeWrite { ioCap 2 with cdw10 := 4, cdw12 := 3 }) hosted
      (fun t => decide (t.out = [.completion 1 1 7 0x1BC true 0 0 1])) = true := by decide
theorem test_overlapping_write_held :
    after (.nvmeWrite (ioCap 1)) (writing .staged) (fun t => decide (t.out = []) && decide ((t.cmd? 4).map Cmd.wst = some .overlap)) = true := by
  decide

/-! ### Staging, Hawk and peer reads (04) -/

/-- A live slot of tag 5, generation 2, in place mode into block 9, and its buffer. -/
def slot5 : FlashOp := { tag := 5, gen := 2, st := .outstanding, live := true, buf := 9, opc := 1, use := .landing 9 }
def buf9 : Buf := { blk := 9, st := .bound, use := .skimTag 0 0 0 0 0 }
def landing : State := { up with flash := { up.flash with ops := [slot5], bufs := [buf9] } }
theorem witness_LandingWritesObeySlots :
    landing.op? 5 = some slot5 ∧ landing.op? 6 = none ∧ slot5.live = true ∧ slot5.gen ≠ 3 ∧ slot5.tagged = false := by decide
theorem test_data_lands_in_place :
    after (.bayWriteTlp 0 (0x0000010000000000 + 2 * 2 ^ 32 + 5 * 2 ^ 14 + 1) [0xAB, 0xCD]) landing (fun t =>
      decide ((t.buf? 9).map (fun b => b.unit.data) = some 0xCDAB00) && decide ((t.op? 5).map FlashOp.bytes = some 2)) = true := by decide
theorem test_stale_generation_dropped :
    after (.bayWriteTlp 0 (0x0000010000000000 + 3 * 2 ^ 32 + 5 * 2 ^ 14) [0xAB]) landing (fun t =>
      decide (t.flash.bufs = landing.flash.bufs) && decide (t.flash.ctrs.lateData = 1)) = true := by decide
def req (cls : Nat) : StageReq := { cls, use := .skimTag 0 0 0 0 0 }
def waitingReq (cls since : Nat) : State := { up with time := { up.time with fab := 2000000 * 2 ^ 32 }, flash := { up.flash with waits := [{ req cls with since }] } }
theorem witness_StagingRequestsTagsAndRescue :
    ((waitingReq 4 0).flash.waits = [req 4] ∧ (waitingReq 4 0).classMay 4 = true ∧ (waitingReq 4 0).buf? 0 = none ∧
      (waitingReq 4 0).flash.hawk = []) ∧
    ((req 0).since + (waitingReq 0 0).period < (waitingReq 0 0).nowNs ∧ (waitingReq 0 0).canTell) ∧
    ({ up with flash := { up.flash with ops := [{ slot5 with st := .quarantine }] } }).op? 5 = some { slot5 with st := .quarantine } ∧
    ({ up with flash := { up.flash with bufs := [{ buf9 with draining := true, st := .orphan }] } }).buf? 9 =
      some { buf9 with draining := true, st := .orphan } ∧
    ({ up with flash := { up.flash with bufs := [{ buf9 with st := .check, use := .host 1 0, plain := true }] } }).buf? 9 =
      some { buf9 with st := .check, use := .host 1 0, plain := true } ∧
    ((up.group 0).canRebuild {} = true) := by unfold State.canTell; decide +kernel
theorem witness_no_free_block (n b : Nat) (hb : b < n) :
    (({ up with flash := { up.flash with bufs := (List.range n).map fun b => { buf9 with blk := b } } } : State).buf? b).isSome = true := by
  simp only [State.buf?, List.find?_isSome]
  exact ⟨_, List.mem_map.2 ⟨b, List.mem_range.2 hb, rfl⟩, by simp⟩
def entry3 : HawkEntry := { blk := 3, nsx := 0, unitNo := 7, hits := 5, pins := 1 }
/-- Namespace 0 serves peer 0x123 and holds unit 7 in Hawk. -/
def serving : State :=
  { hosted with host := { hosted.host with nss := [{ nsx := 0, size := 1073741824, peerServe := true, sources := [(0x123, 1)] }] }
                flash := { hosted.flash with hawk := [entry3], admits := [(4, 3)] } }
def reqBody (nsid u epoch : Nat) : List Byte := leBytes 4 5 ++ leBytes 4 nsid ++ leBytes 8 u ++ leBytes 8 epoch ++ leBytes 8 0
def peerSlot : FlashOp := { slot5 with opc := opcPeer }
theorem witness_HawkAndPeerReads :
    serving.flash.decayFrames < serving.paramN 0x2112 ∧ serving.admitCount 4 < 16 ∧
    ({ serving with flash := { serving.flash with decayFrames := 65535 } }).paramN 0x2112 ≤ 65535 ∧
    (serving.ns? 0).map Ns.peerServe = some true ∧ (serving.role 0).owns = true ∧ serving.hawk? 0 7 = some entry3 ∧
    serving.hawk? 0 8 = none ∧ (serving.flash.hawk.map HawkEntry.peerPins).sum < serving.paramN 0x2122 ∧
    leAt (Tests.reqBody 1 7 0) 4 4 = 1 ∧ leAt (Tests.reqBody 1 7 0) 8 5 = 7 ∧
    ({ landing with flash := { landing.flash with ops := [peerSlot] } }).op? 5 = some peerSlot ∧ landing.buf? 9 = some buf9 ∧
    buf9.st = .bound ∧ ({ buf9 with peerTag := some 5 } : Buf).peerTag ≠ none := by decide
theorem test_hawk_decay_halves :
    after .hawkDecay { serving with flash := { serving.flash with decayFrames := 65535 } } (fun t =>
      decide (t.admitCount 4 = 1) && decide (t.flash.hawk.map HawkEntry.hits = [2])) = true := by decide
theorem test_pin_release : after (.hawkPinRelease { blk := 3 }) serving (fun t => decide (t.flash.hawk.map HawkEntry.pins = [0])) = true := by decide

/-! ### Flash translation (05) -/

/-- A small owned group: three members in bays 0 to 2, one die, two positions, ten band bases and ten spares. -/
def small : Group :=
  { formed := true, role := .owner, health := .optimal, dies := 1, positions := 2, blocks := 20, spares := 10, epoch := 1, known := 1,
    members := [{ bay := 0, accepted := 1 }, { bay := 1, accepted := 1 }, { bay := 2, accepted := 1 }] }
def withSmall (f : Group → Group) : State := { up with groups := upd up.groups 0 fun _ => f small }
def closed0 : Band := { num := 0, st := .closed, stream := 0, seq := 1 }
/-- A copy of namespace 0's unit 3 from GUA 5 to GUA 2^26, and a namespace whose map names the old one, or not. -/
def copied : Collect := { victim := 0, batch := [{ old := 5, new := 67108864, done := true }] }
def mapped (gua : Nat) : State :=
  { withSmall fun g => { g with collects := [copied], owners := [{ gua := 5, nsx := 0, unit := 3 }] } with
    host := { up.host with nss := [{ nsx := 0, map := [(3, .gua gua)] }] } }
theorem witness_CollectionMovesThenErases :
    ((withSmall fun g => { g with bands := [closed0] }).streamVictim 0 0 = some 0 ∧
      (withSmall fun g => { g with bands := [closed0] }).paramN 0x3005 = 32 ∧
      ((withSmall fun g => { g with bands := [closed0] }).group 0).freeBands.length = 9) ∧
    (((mapped 5).group 0).ownerOf 5 = some { gua := 5, nsx := 0, unit := 3 } ∧ ((mapped 5).group 0).notCurrent = [] ∧
      ((mapped 5).group 0).isLost 5 = false ∧ ((mapped 5).group 0).bandUnits ≤ 2 ^ 26 ∧ (∀ x ∈ ((mapped 5).group 0).members, x.active = []) ∧
      ((mapped 5).group 0).band 0 = { num := 0 }) ∧
    ((withSmall fun g => { g with durable := 8 }).group 0).isDurable 7 = true ∧
    ((withSmall fun g => g).group 0).isDurable 7 = false ∧
    (withSmall fun g => { g with bands := [{ closed0 with st := .erasePending }] }).readers 0 0 = 0 := by decide
theorem test_copy_committed :
    after (.gcBatchVerified 0 0) (mapped 5) (fun t => decide (t.host.nss.map (fun n => n.lookup 3) = [some (.gua 67108864)])) = true := by
  decide
theorem test_rewritten_unit_not_moved :
    after (.gcBatchVerified 0 0) (mapped 9) (fun t => decide (t.host.nss.map (fun n => n.lookup 3) = [some (.gua 9)])) = true := by decide
/-- A Full zone of one unit, at GUA 5, that is to be compacted. -/
def full1 : Ns := { nsx := 1, zoned := true, zones := [{ num := 0, st := .full, compact := true, written := 1, extents := [(0, 5)] }] }
def compacting : State :=
  { withSmall fun g => { g with owners := [{ gua := 5, nsx := 1, unit := 0 }] } with host := { up.host with nss := [full1] } }
/-- Bands 1 to 9 in use, so that few are FREE. -/
def used9 : List Band := (List.range 9).map fun i => { num := i + 1, st := .closed }
theorem witness_BandsLogsAndCompaction :
    (((withSmall fun g => { g with bands := used9 }).group 0).freeBands.length ≤ (withSmall fun g => { g with bands := used9 }).paramN 0x3003 ∧
      (∀ m < 3, (withSmall fun g => { g with bands := used9 }).paramN 0x3002 < (((withSmall fun g => g).group 0).freeSpares m 0).length) ∧
      small.bases ≤ 16381 ∧ (∀ b ∈ used9, b.num ≠ 16381) ∧ ((withSmall fun g => { g with bands := used9 }).role 0).owns = true) ∧
    ((withSmall fun g => { g with bands := [{ closed0 with erases := 201 }] }).group 0).bandNums.length = 10 ∧
    ((withSmall fun g => { g with bands := [{ closed0 with erases := 201 }] }).group 0).band 0 = { closed0 with erases := 201 } ∧
    ((withSmall fun g => { g with bands := [{ closed0 with erases := 201 }] }).group 0).band 1 = { num := 1 } ∧
    (compacting.ns? 1 = some full1 ∧ (full1.zone 0).st = .full ∧ (full1.zone 0).compact = true ∧ (compacting.role 0).owns = true ∧
      compacting.validAt 0 5 = true ∧ (full1.zone 0).gua? 0 = some 5 ∧ (compacting.group 0).unitDone 5 = true) ∧
    (80 ≤ (withSmall fun g => { g with bands := [{ closed0 with erases := 65535 * 9 }] }).wearPct 0 ∧
      (withSmall fun g => { g with bands := [{ closed0 with erases := 65535 * 9 }] }).wearPct 0 < 95) ∧
    (withSmall fun g => g).poolHigh = false := by decide
theorem test_no_spare_band_above_floor :
    after (.spareBandForm 0) (withSmall fun g => g) (fun t => decide (t.groups = (withSmall fun g => g).groups)) = true := by decide
theorem test_wear_victim :
    after (.wearLevelStart 0) (withSmall fun g => { g with bands := [{ closed0 with erases := 201 }] })
      (fun t => decide (((t.group 0).band 0).st = .victim)) = true := by decide +kernel

/-! ### Die turns, patrol, rebuild (06, 08) -/

/-- Bay 0 ready with a descriptor, member 0 of the small group. -/
def theDesc : Descriptor := { moduleId := 1, dies := 1, positions := 64, blocks := 20, eccCap := 100, tProgMax := 600, tSuspErase := 30 }
def readyBay : Bay := { st := .ready, up := true, perst := false, desc := some theDesc, modId := 1 }
def withBay (f : Group → Group) (g : FlashState → FlashState) : State :=
  { withSmall f with flash := g { up.flash with bays := upd up.flash.bays 0 fun _ => readyBay } }
def readOp : FlashOp := { tag := 5, gen := 2, opc := 1, block := 3, page := 2, live := true, buf := 9, use := .landing 9 }
def progOp : FlashOp := { tag := 6, gen := 1, opc := 0x10, qcls := 3, block := 3, src := [1, 2, 3, 4], use := .chunk 0 3 0 0 }
theorem witness_DiesTakeTurns :
    ((withBay id id).bayMember 0 = some (0, 0) ∧ up.bayMember 0 = none ∧ (withBay id id).flush.active = false) ∧
    ((withBay id fun f => { f with ops := [readOp] }).flash.dies = [] ∧ ((withBay id id).group 0).hand = none ∧
      ((withBay id id).group 0).accepted 0 = true) ∧
    ((0 + (withBay id id).turnNow) % ((withBay id id).group 0).w = 0 ∧
      (withBay id fun f => { f with dies := [{ bay := 0, die := 0, op := some 6, erase := true }] }).op? 7 = none ∧
      (withBay id id).ringRoom 0 = true ∧
      (withBay id fun f => { f with bays := upd f.bays 0 fun b =>
        { b with desc := some { theDesc with flags := 2, tEraseMax := 5000, eraseHoldMs := 1000 } } }).eraseSuspendOk 0 3 = true) ∧
    (up.canTell ∧ ((withBay id fun f => { f with dies := [{ bay := 0, die := 0, op := some 6 }] }).die 0 0).op = some 6) := by
  unfold State.canTell; decide
theorem test_read_entry_leaves :
    after (.dieDispatch 0 0) (withBay id fun f => { f with ops := [readOp] }) (fun t => decide (t.out = [.bayEntry 0
      ([1, 0, 0, 0] ++ [5, 0, 8, 0] ++ [1, 0, 0, 0] ++ [0, 0, 3, 0] ++ [2, 0, 0, 0] ++ List.replicate 12 0 ++
        [0, 0x40, 1, 0, 2, 1, 0, 0] ++ [0x50, 0, 0x80, 0, 0, 2, 0, 0] ++ List.replicate 16 0), .bayReg 0 0x1020 1])) = true := by decide
theorem test_program_waits_outside_turn :
    after (.dieDispatch 0 0) { withBay id (fun f => { f with ops := [progOp] }) with time := { up.time with fab := 2000000 * 2 ^ 32 } }
      (fun t => decide (t.out = [])) = true := by decide
def work0 : SkimWork := { band := 0, q := 0, data := List.replicate 4 (some {}), parity := List.replicate 4 (some {}) }
def target1 : Member := { bay := 1, st := .target, todo := [0], active := [0], rows := [(0, 0, 0)] }
def rebuilding : State :=
  withSmall fun g => { g with members := upd g.members 1 fun _ => target1, health := .rebuilding, bands := [closed0] }
theorem witness_PatrolAndRebuild :
    (up.paramN 0x4010 = 1 ∧ up.flash.skimOn = false ∧ up.ddUp = true) ∧
    (work0.ready = true ∧ work0.badAt = []) ∧
    ((rebuilding.group 0).bandRebuilt 1 0 = true ∧ ((rebuilding.group 0).member 1).todo = [0] ∧
      (rebuilding.group 0).space = .normal ∧ rebuilding.paramN 0x3003 < (rebuilding.group 0).freeBands.length ∧
      rebuilding.anaState 0 = 1) ∧
    ((withSmall fun g => { g with members := upd g.members 1 fun x => { x with st := .missing } }).group 0 |>.member 1).st = .missing := by
  decide
theorem test_match_counts :
    after (.skimStripeCompare 0 0 0) (withSmall fun g => { g with skim := [work0, { work0 with q := 1 }] })
      (fun t => decide ((t.group 0).ctrs.skimStripes = 1)) = true := by decide

/-! ### Bay links (07) -/

def out5 (o : FlashOp) : State := withBay id fun f => { f with ops := [{ o with st := .outstanding }], bufs := [buf9] }
/-- A completion entry of R218 for tag 5, generation 2: its opcode, status and third dword. -/
def cpl5 (opc status : Nat) (d2 : List Byte := [0, 0, 0, 0]) (gen : Byte := 2) : List Byte :=
  [5, 0, gen * 4, BitVec.ofNat 8 opc] ++ [BitVec.ofNat 8 status, 0x80, 0, 0] ++ d2 ++ [0, 0, 0, 0]
def abortOp : FlashOp := { tag := 5, gen := 2, st := .outstanding, opc := 0x40, use := .abort 8 2 }
theorem test_entry_fields :
    (cplOf (cpl5 0x50 0x0A [7, 0, 3, 0])).tag = 5 ∧ (cplOf (cpl5 0x50 0x0A [7, 0, 3, 0])).gen = 2 ∧
      (cplOf (cpl5 0x50 0x0A [7, 0, 3, 0])).opc = 0x50 ∧ (cplOf (cpl5 0x50 0x0A [7, 0, 3, 0])).status = 0x0A ∧
      (cplOf (cpl5 0x50 0x0A [7, 0, 3, 0])).cbits = 7 ∧ (cplOf (cpl5 0x50 0x0A [7, 0, 3, 0])).dstate = 3 := by decide
theorem witness_LateCompletionsAreDiscarded :
    (0 < (out5 readOp).flash.bays.length ∧ (out5 readOp).op? 4 = none ∧ (out5 readOp).fresh 0 (cpl5 0x40 0) = true ∧
      (out5 readOp).fresh 0 [] = false) ∧
    ((withBay id fun f => { f with ops := [abortOp, { readOp with tag := 8, st := .outstanding }] }).op? 8 =
      some { readOp with tag := 8, st := .outstanding } ∧
      (withBay id fun f => { f with ops := [abortOp] }).op? 5 = some abortOp ∧
      ((out5 readOp).group 0).presentMember 0 = true) := by decide
theorem test_stale_completion :
    after (.readCpl 0 (cpl5 1 0 [0, 0, 0, 0] 3)) (out5 readOp)
      (fun t => decide ((t.bay 0).lateCpl = 1 ∧ (t.bay 0).cqHead = 1) && decide (t.flash.ops = (out5 readOp).flash.ops)) = true := by
  decide
theorem test_old_phase_is_no_entry :
    after (.readCpl 0 (upd (cpl5 1 0) 5 fun _ => 0)) (out5 readOp) (fun t => decide (t = out5 readOp)) = true := by decide
theorem witness_CompletionsTakeEffect :
    ((out5 readOp).op? 5 = some { readOp with st := .outstanding } ∧ (out5 readOp).buf? 9 = some buf9 ∧
      (out5 readOp).fresh 0 (cpl5 1 1) = true ∧ readOp.live = true ∧ buf9.how ≠ .die ∧ buf9.st = .bound ∧
      buf9.use.checked = true ∧ ((out5 readOp).group 0).canRebuild {} = true) ∧
    (withBay id fun f => { f with slots := [{ slot := 4 }] }).flash.slots = [{ slot := 4 }] ∧
    (((withSmall fun g => { g with bands := [{ num := 3, st := .erasing, eraseLeft := [(0, 0)] }] }).group 0).band 3 =
      { num := 3, st := .erasing, eraseLeft := [(0, 0)] } ∧
      (withSmall fun g => { g with bands := [{ num := 3, st := .erasing, eraseLeft := [(0, 0)] }] }).paramN 0x3003 <
        ((withSmall fun g => { g with bands := [{ num := 3, st := .erasing, eraseLeft := [(0, 0)] }] }).group 0).freeBands.length) ∧
    (withBay id id).bayMember 0 = some (0, 0) ∧ ((withBay id id).group 0).presentMember 0 = true := by decide
theorem test_suspend_marks_die :
    after (.suspendCpl 0 (cpl5 0x30 0)) (out5 { readOp with opc := 0x30, use := .suspend false })
      (fun t => decide ((t.die 0 0).suspAt = some 0)) = true := by decide
theorem test_erase_frees_band :
    after (.eraseCpl 0 (cpl5 0x20 0)) { out5 { readOp with opc := 0x20, use := .erase 0 0 (.band 3) } with
        groups := upd up.groups 0 fun _ => { small with bands := [{ num := 3, st := .erasing, eraseLeft := [(0, 0)] }] } }
      (fun t => decide (((t.group 0).band 3).st = .free ∧ ((t.group 0).band 3).erases = 1)) = true := by decide
theorem witness_OperationTimersAndSourceReads :
    ((out5 readOp).paramN 0x9101 = 1 ∧ (out5 readOp).op? 7 = none ∧ ((out5 readOp).bay 0).timeoutsRow < 2 ∧
      (out5 readOp).ringRoom 0 = true) ∧
    ((withBay (fun g => { g with role := .partner }) id).bayMember 0 = some (0, 0) ∧
      (out5 readOp).fresh 0 (cpl5 0xF0 0) = true ∧ (cplOf (cpl5 0xF0 0)).opc = 0xF0) ∧
    (∃ o ∈ (out5 { progOp with tag := 5 }).flash.ops, o.opc = 0x10 ∧ o.st = .outstanding ∧ 3 ∈ o.src) := by decide
theorem test_source_read_refused :
    after (.moduleSourceRead 0 (0x0000030000000000 + 7 * 32768) 64) (out5 { progOp with tag := 5 })
      (fun t => decide (t.out = [.baySource 0 none] ∧ (t.bay 0).badRead = 1)) = true := by decide
theorem test_timeout_revokes :
    after (.opTimeout 5) (out5 readOp) (fun t => decide ((t.op? 5).map FlashOp.st = some .quarantine ∧ (t.bay 0).timeouts = 1)) = true := by
  decide
def bayIn (b : Bay) : State := { up with flash := { up.flash with bays := upd up.flash.bays 3 fun _ => b } }
theorem witness_BaysComeUpAndDepart :
    (nth ({ up with pwr := { up.pwr with chans := upd up.pwr.chans 3 fun c => { c with pg := true } } }).pwr.chans 3).pg = true ∧
    (bayIn { st := .training, perst := false }).bay 3 = { st := .training, perst := false } ∧
    ((bayIn { readyBay with st := .descriptor, spare := true }).bayMember 3 = none) ∧
    (bayIn readyBay).flash.ops = [] ∧ capacityOk theDesc = true := by decide
theorem test_slow_link_degraded :
    after (.bayLinkTrained 3 5 2) (bayIn { st := .training, perst := false }) (fun t => decide ((t.bay 3).degraded = true)) = true := by
  decide

/-! ### Mirroring and mounts (08) -/

/-- This controller is PARTNER of the small group, at JSEQ 5. -/
def copy0 : State := withSmall fun g => { g with role := .partner, known := 3, acked := 5, jseq := 5, topSeen := 5, applied := 5, retired := 5 }
def rec5 : JRec := { ty := 7, epoch := 3, jseq := 5, body := recBody (leBytes 2 0) }
def mirror1 (epoch : Nat) : List Byte :=
  leBytes 1 0 ++ leBytes 1 1 ++ leBytes 2 0 ++ leBytes 4 epoch ++ leBytes 8 5 ++ leBytes 8 0 ++ leBytes 8 0 ++ recBytes 0 rec5
def owner0 : State := withSmall fun g => { g with mirror := .service, acked := 5, jseq := 8 }
theorem witness_MirrorAnswersAndRetries :
    (copy0.ddUp = true ∧ 0 < copy0.freeFor 7 ∧ copy0.partners 0 = true ∧ carried (mirror1 3) = [some rec5] ∧ (mirror1 3).length = 96 ∧
      (copy0.group 0).attempt = none ∧ copy0.mode.mode ≠ .contained) ∧
    ((owner0.group 0).role = .owner ∧ (owner0.group 0).acked < (owner0.group 0).jseq ∧ (owner0.group 0).hand = none) ∧
    (owner0.turnMismatch = false ∧
      { (withSmall fun g => { g with mirror := .solo, devA := 1, devB := 2 }) with
        fuse := { up.fuse with deviceId := 1 }, scrim := { up.scrim with
          lsdb := [{ dev := 2, addr := 9, claimed := true }], routes := [{ addr := 9, ports := [0] }] } }.partnerReached 0 = true) := by
  decide +kernel
theorem test_mirror_stores_record :
    after (.jmirrorRx 9 (mirror1 3)) copy0 (fun t => decide ((t.group 0).journal = [{ rec5 with turn := copy0.turnNow }] ∧ (t.group 0).acked = 6)) = true := by decide +kernel
theorem test_mirror_stale_epoch :
    after (.jmirrorRx 9 (mirror1 2)) copy0 (fun t => decide ((t.group 0).journal = [] ∧ (t.group 0).acked = 5)) = true := by decide +kernel
def fit0 : CiphState := { up.ciph with pipes := 40, keying := true }
/-- The small group at a controller that may take roles. -/
def fitWith (f : Group → Group) : State := { withSmall f with ciph := fit0, mode := { up.mode with mode := .standby, hold := false, entering := none } }
theorem witness_MountsAndCopies :
    ((withSmall fun g => { g with formed := false }).group 0).formed = false ∧
    ((withSmall fun g => { g with mountWait := true, role := .takingOver, won := true, health := .mounting }).group 0).copies = [] ∧
    ((fitWith fun g => { g with role := .none }).takesRoles = true ∧
      (withSmall fun g => { g with role := .none }).partnerReached 0 = false ∧ ({} : MountImage).newest = none ∧
      ({ anchors := [{ checkpoint := some {} }] } : MountImage).newest = some {}) ∧
    (let s := withSmall fun g => { g with mountWait := true, copies := [{ base := some 0 }] }
     s.ddUp = true ∧ ∀ x ∈ (s.group 0).copies, (s.group 0).copyCounts x = true) := by decide
theorem test_mount_not_found :
    after (.groupMount 0 {}) (fitWith fun g => { g with role := .none, health := .forming, members := [], wits := [] })
      (fun t => decide ((t.group 0).health = .failed ∧ (t.group 0).cause = 2)) = true := by decide +kernel

/-! ### Ethernet (09) -/

/-- HP0 in service with its sub-port 0 up at 10.0.0.1. -/
def subUp0 : SubPort := { up := true, prefix4 := 24, ipv4 := 0x0100000A }
def portUp : State := { up with net := { up.net with ports := upd up.net.ports 0 fun x => { x with enable := true, subs := upd x.subs 0 fun _ => subUp0 } } }
/-- An ARP frame to that address. -/
def arp : List Byte := leBytes 6 0xFFFFFFFFFFFF ++ leBytes 6 5 ++ [0x08, 0x06] ++ List.replicate 24 0 ++ [0x0A, 0, 0, 1]
def arpFrame : Payload.EthFrame := { head := arp }
theorem witness_HostFramesArePolicedAndAdmitted :
    (portUp.subUp 0 0 = true ∧ portUp.ddUp = true ∧ portUp.paramN 0x6040 = 0 ∧ portUp.lossless 0 7 = false) ∧
    (frameKind portUp 0 (portUp.subPort 0 0) arp = some (.control 7)) ∧
    (portUp.subPort 0 0).tc = 1048576 ∧ 1 ≤ portUp.paramN 0x6070 := by decide +kernel
theorem test_arp_joins_mgt :
    after (.hostFrameRx arpFrame) portUp (fun t => decide ((t.net.frames.map fun f => (f.port, f.cls, f.guaranteed)) = [(20, 7, 1)])) = true := by
  decide +kernel
theorem test_bad_fcs_counts :
    after (.hostFrameRx { arpFrame with fcsOk := false }) portUp
      (fun t => decide (t.net.frames = [] ∧ nth (t.netPort 0).ctrs 24 = 1 ∧ nth (t.netPort 0).ctrs 0 = 1)) = true := by decide +kernel
def frame0 : NetFrame := { port := 0, cls := 6, len := 64, guaranteed := 1 }
def queued : State := { portUp with net := { portUp.net with frames := [frame0] } }
theorem witness_FramesLeaveInOrderUnderPause :
    (queued.subUp 0 0 = true ∧ queued.net.frames = [frame0] ∧ (queued.net.sched 0 0).sendEnd ≤ queued.clock ∧
      (queued.net.sched 0 0).classes.length = 8 ∧ queued.gateOpen 0 6 63 = true ∧ (queued.netPort 0).ctrs.length = 104) ∧
    ({ portUp with net := { portUp.net with ports := upd portUp.net.ports 0 fun x =>
        { x with pfc := 8, subs := upd x.subs 0 fun y => { y with paused := 8 } } } }.subPort 0 0).paused.testBit 3 = true := by decide +kernel
theorem test_internal_frame_queued :
    after (.internalFrameAdmit (some { len := 100 })) portUp
      (fun t => decide ((t.net.frames.map fun f => (f.cls, f.guaranteed)) = [(6, 2)])) = true := by decide +kernel
theorem test_host_to_host_dropped :
    after (.internalFrameAdmit (some { src := 3 })) portUp (fun t => decide (t.net.frames = [] ∧ t.net.held = [])) = true := by
  decide +kernel
theorem witness_PortsGoUpAndDown :
    ((portUp.netPort 0).enable = true ∧ (portUp.subPort 0 0).up = true ∧ (up.netPort 0).enable = false) ∧
    (up.par.netStage = [] ∧ { portUp with host := { portUp.host with sessions := [] } }.host.assocs = []) := by decide +kernel
theorem test_port_down_frees :
    after (.subportDown 0 0) queued (fun t => decide (t.net.frames = [] ∧ (t.netPort 0).evt = 1)) = true := by decide +kernel
theorem test_gate_commit_refused :
    after .netCommit { up with par := { up.par with netStage := (List.range 16).map fun k => { num := 0x6100 + k, val := 0x3F3F3F3F } } }
      (fun t => decide (t.net.refused = true ∧ t.par.netStage.length = 16)) = true := by decide +kernel

/-! ### Scrim (10) -/

/-- Device 7 at address 9, with SP0 in service. -/
def spUp (a : Adj) (f : ScrimState → ScrimState) : State :=
  { up with fuse := { up.fuse with deviceId := 7 }, scrim := f { up.scrim with addr := 9, chosen := true, adjs := upd up.scrim.adjs 0 fun _ => a },
            net := { up.net with ports := upd up.net.ports 8 fun x => { x with enable := true, subs := upd x.subs 0 fun _ => { up := true } } } }
def fullAdj : Adj := { st := .full, nbr := 8, nbrAddr := 5, nbrClaimed := true }
def hello8 (seen : Nat) : List Byte := leBytes 8 8 ++ leBytes 2 0x1005 ++ leBytes 2 0 ++ leBytes 8 seen ++ leBytes 12 0
def plain42 : List Byte := List.replicate 12 0 ++ [0x88, 0xB5, 1, 0, 0, 0] ++ List.replicate 8 0 ++ leBytes 2 0 ++ leBytes 2 5 ++ leBytes 2 1 ++
  leBytes 2 1 ++ leBytes 2 32 ++ leBytes 6 0 ++ hello8 0
theorem witness_AddressesAdjacenciesAndFrames :
    ((spUp {} id).ddUp = true ∧ (spUp {} id).scrim.claimed = false ∧ (spUp {} id).spEnabled 0 = true ∧ (spUp {} id).paramN 0x6048 = 0) ∧
    ((hello8 7).length = 32 ∧ leAt (hello8 7) 12 8 = 7 ∧ leAt (hello8 7) 0 8 = 8 ∧ ((spUp fullAdj id).adj 0).st = .full) ∧
    (leAt plain42 12 2 = 0xB588 ∧ leAt plain42 14 1 = 1 ∧ (routeHead (plain42.drop 26)).map RouteHead.ty = some 1) := by decide +kernel
theorem test_hello_frame_makes_init :
    after (.scrimFrameRx 0 { bytes := plain42 }) (spUp {} id) (fun t => decide ((t.adj 0).st = .init ∧ (t.adj 0).nbr = 8 ∧ (t.adj 0).nbrAddr = 5)) = true := by
  decide +kernel
theorem test_hello_that_names_us :
    after (.helloRx 0 (hello8 7)) (spUp {} id) (fun t => decide ((t.adj 0).st = .twoWay)) = true := by decide +kernel
def lsa8 : Lsa := { dev := 8, addr := 5, claimed := true, lseq := 3, links := [{ dev := 7, addr := 9 }] }
theorem witness_LinkStateAndRoutes :
    (lsaOf (lsaBytes lsa8) = some lsa8 ∧ ((spUp fullAdj id).adj 0).st = .full) ∧
    ((spUp fullAdj fun x => { x with lsdb := [{ lsa8 with lseq := 2 }] }).scrim.lsdb.find? (fun y => y.dev == 8) = some { lsa8 with lseq := 2 }) ∧
    ((spUp fullAdj fun x => { x with unacked := [(0, 8, 3)], lsdb := [lsa8] }).scrim.unacked = [(0, 8, 3)] ∧
      1 ≤ (spUp fullAdj id).paramN 0x7005) := by decide +kernel
theorem test_route_of_one_hop :
    after .spfCompute (spUp fullAdj fun x => { x with spfDue := true, lsdb := [{ dev := 7, addr := 9, links := [{ dev := 8 }] }, lsa8] })
      (fun t => decide (t.scrim.routes = [{ addr := 5, hops := 1, ports := [0] }])) = true := by decide +kernel
theorem test_ack_covers_lower :
    after (.lsaAckRx 0 (leBytes 8 8 ++ leBytes 4 3 ++ leBytes 4 0)) (spUp fullAdj fun x => { x with unacked := [(0, 8, 2), (1, 8, 2), (0, 8, 4)] })
      (fun t => decide (t.scrim.unacked = [(1, 8, 2), (0, 8, 4)])) = true := by decide +kernel
def report5 : List Byte := faultBody 5 1 9 0 8 77
theorem witness_FaultReportsCoalesce :
    (report5.length = 32 ∧ leAt report5 0 2 = 5 ∧ (spUp fullAdj id).scrim.faults = [] ∧ (spUp fullAdj id).canTell) ∧
    (spUp fullAdj fun x => { x with faults := [{ subject := 5, cls := 1 }], standing := [(5, 1)] }).scrim.standing = [(5, 1)] := by
  unfold State.canTell; decide +kernel
theorem test_second_report_counts :
    after (.faultReportRx 0 report5) (spUp fullAdj fun x => { x with faults := [{ subject := 5, cls := 1, count := 4 }] })
      (fun t => decide (t.scrim.faults = [{ subject := 5, cls := 1, count := 5 }] ∧ t.out = [])) = true := by decide +kernel
def withWit (e : WitEntry) : State := { up with wit := { up.wit with entries := [e] } }
def ask1 : WitMsg := { uid := 0x1234, sender := 2, epoch := 7, tag := 5, lease := 32, period := 1000 }
def entry1 : WitEntry := { uid := 0x1234, devA := 1, devB := 2, owner := 1, epoch := 6, promised := 6, grant := some 0 }


theorem witness_WitnessVotesByItsTable :
    (ask1.bytes.length = 64 ∧ WitMsg.ofBytes ask1.bytes = ask1 ∧ up.witEntry 0x1234 = none ∧ (withWit entry1).witEntry 0x1234 = some entry1) ∧
    (up.groupOf 0x1234 = none ∧ (withWit { entry1 with provisional := true }).witEntry 0x1234 = some { entry1 with provisional := true }) ∧
    up.datagramOk [] = false := by decide +kernel
theorem test_young_grant_votes_no :
    after (.witnessTakeoverRx 9 0 ask1.bytes) (withWit entry1) (fun t => decide (t.wit.entries = [entry1])) = true := by decide +kernel
theorem test_release_votes_yes :
    after (.witnessTakeoverRx 9 0 ask1.bytes) (withWit { entry1 with release := some (2, 0) })
      (fun t => decide (t.wit.entries.map WitEntry.owner = [2] ∧ t.wit.entries.map WitEntry.promised = [7])) = true := by decide +kernel
/-- The small group with two witnesses; the first one's renewal with TAG 5 is outstanding. -/
def leased (r : Role) : State := withSmall fun g =>
  { g with role := r, uid := 0x1234, epoch := 6, formed := true, wits := [{ dev := 2, sent := [(5, 0)] }, { dev := 3, granted := some 0 }] }
theorem witness_LeasesAndTakeovers :
    ((leased .leaseLost).groupOf 0x1234 = some 0 ∧ ((leased .leaseLost).group 0).wits.length = 2 ∧
      (leased .owner).grants 0 < 2 ∧ (leased .owner).witnessesSeen 0 < 2) ∧
    ((fitWith fun g => { g with role := .partner }).takesRoles = true ∧ ((fitWith fun g => { g with role := .partner }).group 0).attempt = none) ∧
    ((withSmall fun g => { g with role := .takingOver, attempt := some {} }).group 0).attempt = some {} := by decide +kernel
theorem test_second_grant_restores_owner :
    after (.leaseAnswerRx { ask1 with answer := 1 }.bytes) (leased .leaseLost) (fun t => decide ((t.group 0).role = .owner)) = true := by
  decide +kernel
theorem test_lapse_loses_lease :
    after (.leaseLapse 0) (leased .owner) (fun t => decide ((t.group 0).role = .leaseLost)) = true := by decide +kernel
def handed (h : Option Handover) : State := withSmall fun g => { g with uid := 0x1234, formed := true, devB := 2, hand := h }
theorem witness_HandoversMoveAGroup :
    ((handed none).groupOf 0x1234 = some 0 ∧ (handed none).otherDev 0 = 2 ∧ (handed none).failFit 0 = false ∧
      ((handed (some { offered := true })).group 0).hand = some { offered := true }) ∧
    ((handed none).paramN 0x7023 = 1 ∧ (handed none).paramN 0x7025 = 24 ∧ ((handed none).group 0).health = .optimal ∧
      (handed none).turnMismatch = false ∧
      ({ handed none with time := { up.time with fab := 10 ^ 16 * 2 ^ 32 } } : State).swapInstant 0 ≠ none) := by decide +kernel
theorem test_ack_makes_handing_over :
    after (.handoverAckRx { ask1 with step := 2 }.bytes) (handed (some { offered := true })) (fun t => decide ((t.group 0).role = .handingOver)) = true := by
  decide +kernel

/-! ### Mailboxes (12) -/

/-- A request: opcode, channel, privilege asked for, body. -/
def msg (op c priv : Nat) (body : List Byte) : List Byte :=
  leBytes 2 op ++ leBytes 1 c ++ leBytes 1 priv ++ leBytes 4 9 ++ leBytes 2 body.length ++ leBytes 6 0 ++ leBytes 16 0 ++ body
/-- Channel 0 carries a request, the only one that Core 0 has taken. -/
def carry (op : Nat) (body : List Byte) (s : State) : State :=
  let s1 := s.modChan 0 fun h => { h with state := .busy, req := msg op 0 2 body }
  { s1 with mbx := { s1.mbx with order := [0] } }
theorem witness_Bar2ChannelsTakeCheckAndAnswer :
    (up.ddUp = true ∧ up.fw.recovery = false ∧ up.mbx.chans.length = 64 ∧ up.mbx.bar2.wf = true) ∧
    (up.transport 0 = 1 ∧ (up.chan 0).state = .idle ∧ up.transport 32 ≠ 1 ∧ ((carry 0x0101 [] up).chan 0).state = .busy) := by decide +kernel
theorem test_doorbell_on_busy_overruns :
    after (.mbxDoorbell 0) (carry 0x0101 [] up) (fun t => (t.chan 0).overrun && decide ((t.chan 0).state = .busy)) = true := by decide +kernel
theorem test_area_write_lands :
    after (.bar2AreaWrite 2 [1, 2]) up (fun t => Memory.read t.mbx.bar2 3 == 2 && Memory.read t.mbx.bar2 4 == 0) = true := by decide +kernel
theorem witness_RemoteChannelsCheckSeqAndCmac :
    (up.transport 32 = 2 ∧ (up.chan 32).credential = [] ∧ up.transport 48 = 3 ∧ up.transport 56 = 4 ∧ up.paramN (0x1180 + 56) = 0) ∧
    (reqChannel (msg 0x0101 48 0 []) = 48 ∧ 32 ≤ (msg 0x0101 48 0 []).length ∧ (up.chan 48).lastSeq = none ∧ (up.chan 48).state = .idle) ∧
    ((up.modChan 48 fun h => { h with aonHeld := true, state := .busy }).chan 48).aonHeld = true := by decide +kernel
theorem test_smbus_request_is_held :
    after (.mbxSmbusRequest true 0x7F (leBytes 4 0 ++ msg 0x0101 48 0 [])) up (fun t => (t.chan 48).aonHeld) = true := by decide +kernel
theorem witness_SystemAndEventCommandsAnswer :
    (((carry 0x0101 [] up).carries 0 0x0101 ∧ (carry 0x0102 [0, 0, 1, 0, 0, 0] up).carries 0 0x0102 ∧
      (carry 0x0103 [0, 0, 1, 0] up).carries 0 0x0103) ∧
      ((carry 0x0104 (padTo 32 []) up).carries 0 0x0104 ∧ (carry 0x0105 [0, 0, 0, 0, 1, 0] up).carries 0 0x0105 ∧
        (carry 0x0106 [1] up).carries 0 0x0106 ∧ (carry 0x0107 (padTo 36 []) up).carries 0 0x0107)) ∧
    (((carry 0x0108 [1, 0] up).carries 0 0x0108 ∧ (carry 0x0501 [0, 0, 0, 0] up).carries 0 0x0501) ∧
      ((carry 0x0B01 (padTo 28 (leBytes 9 0 ++ [0])) up).carries 0 0x0B01 ∧
        (carry 0x0B02 (padTo 28 (leBytes 8 0 ++ [1]) ++ [1, 0, 0, 0]) up).carries 0 0x0B02) ∧
      (up.transport 0 = 1 ∧ up.canTell ∧ up.ddUp = true)) := by
  unfold State.carries State.canTell; decide +kernel
theorem test_identify_part :
    after (.identify 0) (carry 0x0101 [] up) (fun t => decide ((t.chan 0).state = .done ∧
      Memory.readN t.mbx.bar2 0x1020 3 = [0x00, 0x24, 0xB0])) = true := by decide +kernel
theorem test_event_wait_holds :
    after (.eventWait 0) (carry 0x0B02 (padTo 28 (leBytes 8 0 ++ [1]) ++ [1, 0, 0, 0]) up) (fun t => (t.chan 0).waiting) = true := by
  decide +kernel
def nsFit : State := fitWith fun g => { g with blocks := 200 }
def theNs : Ns := { nsx := 5, group := 0, size := 4096 }
def withNs5 (s : State) : State := { s with host := { s.host with nss := [theNs] } }
def createBody : List Byte := leBytes 2 6 ++ [0, 0, 1, 0, 0, 1] ++ leBytes 8 4096 ++ padTo 16 [1]
theorem witness_NamespaceCommandsCreateChangeAndGrant :
    (((carry 0x0201 createBody nsFit).carries 0 0x0201 ∧ nsFit.ns? 6 = none ∧ (nsFit.group 0).formed = true ∧ (nsFit.role 0).owns = true) ∧
      ((carry 0x0202 [5, 0] (withNs5 nsFit)).carries 0 0x0202 ∧ (withNs5 nsFit).ns? 5 = some theNs)) ∧
    (((carry 0x0203 (padTo 16 [5]) (withNs5 nsFit)).carries 0 0x0203 ∧ (carry 0x0204 (padTo 48 [5, 0, 2]) (withNs5 nsFit)).carries 0 0x0204) ∧
      ((carry 0x0207 [5, 0] (withNs5 nsFit)).carries 0 0x0207 ∧ (carry 0x0205 (padTo 408 []) nsFit).carries 0 0x0205 ∧
        (carry 0x0206 (padTo 224 [97]) nsFit).carries 0 0x0206)) := by
  unfold State.carries; decide +kernel
theorem test_create_fits :
    after (.nsCreate 0) (carry 0x0201 createBody nsFit) (fun t => decide ((t.chan 0).lastStatus = 0 ∧ (t.ns? 6).isSome)) = true := by
  decide +kernel
theorem test_grant_without_partner :
    after (.nsGrant 0) (carry 0x0205 (padTo 408 (padTo 24 [] ++ [97])) nsFit) (fun t => decide ((t.chan 0).lastStatus = 0x44)) = true := by
  decide +kernel
theorem witness_BayAndGroupCommandsAnswerAndAct :
    (((carry 0x0301 [3] nsFit).carries 0 0x0301 ∧ (carry 0x0302 [3, 0] nsFit).carries 0 0x0302 ∧ (carry 0x0303 [3, 1] nsFit).carries 0 0x0303 ∧
      nsFit.bayIdle 3 = true) ∧ ((carry 0x0401 (padTo 100 [1, 3]) nsFit).carries 0 0x0401 ∧ (carry 0x0402 [0] nsFit).carries 0 0x0402 ∧
      (carry 0x0403 [5, 1, 0, 0] nsFit).carries 0 0x0403 ∧ nsFit.bayMember 5 = none)) ∧
    (((carry 0x0404 (padTo 8 [0]) nsFit).carries 0 0x0404 ∧ (carry 0x0405 [0] nsFit).carries 0 0x0405 ∧
      (carry 0x0406 (padTo 10 [0]) nsFit).carries 0 0x0406) ∧ ((carry 0x0502 (padTo 8 [0]) nsFit).carries 0 0x0502 ∧
      (carry 0x0503 [0] nsFit).carries 0 0x0503 ∧ (nsFit.group 0).role = .owner ∧ (nsFit.group 0).hand = none)) := by
  unfold State.carries; decide +kernel
theorem test_spare_is_designated :
    after (.grpAssign 0) (carry 0x0403 [5, 1, 0, 0] nsFit) (fun t => decide ((t.group 0).spareBays = [5]) && (t.bay 5).spare) = true := by
  decide +kernel
theorem test_form_of_three_fails_row_1 :
    after (.grpForm 0) (carry 0x0401 (padTo 100 [1, 3]) nsFit) (fun t => decide ((t.chan 0).lastStatus = 0x10) &&
      Memory.readN t.mbx.bar2 0x100C 4 == [1, 0, 0, 0]) = true := by decide +kernel
def guardSet : List Byte := leBytes 2 1 ++ [0, 0] ++ leBytes 2 0x4001 ++ leBytes 2 0 ++ leBytes 4 0 ++ leBytes 8 80
def staged (gen : Option Nat) : State :=
  carry 0x0903 [] (up.modChan 0 fun h => { h with stage := [{ num := 0x4001, val := 80, gen }] })
theorem witness_ParameterCommandsCheckStageAndCommit :
    (((carry 0x0901 [1, 0, 0, 0, 1, 0x40] up).carries 0 0x0901 ∧ (carry 0x0902 guardSet up).carries 0 0x0902 ∧ (staged none).carries 0 0x0903) ∧
      ((carry 0x0904 [] up).carries 0 0x0904 ∧ (carry 0x0905 [0, 0, 1, 0] up).carries 0 0x0905)) ∧
    ((carry 0x0906 [] up).carries 0 0x0906 ∧ (carry 0x0907 [] up).carries 0 0x0907) := by unfold State.carries; decide +kernel
theorem test_edge_value_is_staged :
    after (.paramSet 0) (carry 0x0902 guardSet up) (fun t => decide ((t.chan 0).stage.map StageEntry.val = [80]) && t.param 0x4001 != 80) = true := by
  decide +kernel
theorem test_stale_commit_conflicts :
    after (.paramCommit 0) (staged (some 7)) (fun t => decide ((t.chan 0).lastStatus = 0x32 ∧ (t.chan 0).stage.length = 1)) = true := by
  decide +kernel

def fwUp (r : BootRec) (f : FwState → FwState) : State := { up with fw := f { up.fw with recs := [r, {}] } }
def trialA : BootRec := { valid := true, seq := 1, stateA := .trial, stateB := .standby }
theorem witness_FirmwareSessionsSlotsAndTrials :
    (((carry 0x0A01 (leBytes 4 65536) (fwUp trialA id)).carries 0 0x0A01 ∧ (carry 0x0A02 ([0, 0, 0, 0, 1, 0, 0, 0, 7]) up).carries 0 0x0A02 ∧
      (carry 0x0A03 [] up).carries 0 0x0A03 ∧ (carry 0x0A04 [0] up).carries 0 0x0A04) ∧
      ((carry 0x0A05 [0] up).carries 0 0x0A05 ∧ (carry 0x0A06 [] up).carries 0 0x0A06 ∧ (carry 0x0A07 [] up).carries 0 0x0A07)) ∧
    ((fwUp trialA id).fw.boot.st false = .trial ∧ (fwUp trialA id).fw.boot.st true = .standby ∧ (fwUp trialA id).ownedGroups = [] ∧
      (fwUp trialA id).fw.recovery = false) := by unfold State.carries; decide +kernel
theorem test_confirm_makes_active :
    after (.fwConfirm 0 true) (carry 0x0A05 [0] (fwUp trialA id)) (fun t => decide (t.fw.boot.st false = .active ∧ t.fw.boot.seq = 2)) = true := by
  decide +kernel
theorem test_trial_gives_up :
    after .fwTrialTimeout (fwUp trialA id) (fun t => t.pins.ddReset && decide (t.fw.boot.st false = .invalid ∧ t.fw.reason = 3)) = true := by
  decide +kernel

/-! ### Endpoint (13) -/

def win (e : WinEntry) (f : EpState → EpState) : State :=
  { up with ep := f { up.ep with perst := false, cfgReady := true, active := upd up.ep.active 1 fun _ => e, shadow := upd up.ep.shadow 1 fun _ => e } }
/-- Segment 1 maps the first page of the exchange area, read only. -/
def page : WinEntry := { valid := true, target := 0x7F00, len := 1 }
theorem witness_WindowTranslatesByTheActiveBank :
    ((win page id).ep.dstate = .d0 ∧ (win page id).pins.ddReset = false ∧ nth (win page id).ep.shadow 1 = page ∧ (win page id).paramN 0x1201 = 0 ∧
      (win page id).paramN 0x607E ≤ 4096) ∧ ((win page id).canTell ∧ (win page id).ep.faultTold = none ∧ (win page id).ep.dmaPaused = false) := by
  unfold State.canTell; decide +kernel
theorem test_write_through_read_only_entry_faults :
    after (.bar4Access true (2 ^ 20) 0 [7]) (win page id) (fun t => decide (t.ep.exchange = [] ∧ t.ep.errCount = 1 ∧ t.ep.errAddr = 2 ^ 20)) = true := by
  decide +kernel
theorem test_commit_with_length_0_is_refused :
    after .epWinCommit (win { page with len := 0 } id) (fun t => decide (t.ep.refused = true ∧ t.ep.errEntry = 1 ∧ t.ep.epoch = 0)) = true := by
  decide +kernel
theorem witness_EndpointResetsPowerAndConfiguration :
    ((win page id).pins.ddReset = false ∧ (win page id).mbx.chans.any Chan.waiting = false ∧ (win page id).ep.evt < 8 ∧
      (win page id).paramN 0x1202 = 0 ∧ (win page id).ep.cfgReady = true) ∧
    ((win page fun e => { e with dstate := .d3hot }).ep.dstate = .d3hot ∧ (win page id).fuse.otpField 2 12 1 = none) := by decide +kernel
theorem test_flr_clears_window :
    after .epFlr (win page id) (fun t => decide ((nth t.ep.active 1).valid = false) && t.ep.cfgReady) = true := by decide +kernel
theorem test_doorbell_in_d3hot_is_dropped :
    after (.mbxDoorbell 0) (win page fun e => { e with dstate := .d3hot }) (fun t => decide ((t.chan 0).state = .idle)) = true := by decide +kernel

/-! ### Bay power and feeds (14) -/

/-- Bay 5's channel as given, in a controller that is up. -/
def chanUp (c : PwrChan) : State := { up with pwr := { up.pwr with chans := upd up.pwr.chans 5 fun _ => c, loaded := true } }
def ramping : PwrChan := { st := .ramp, long := true, short := true, stable := true, hsOn := true }
def feeding (a b : Feed) : State := { up with pwr := { up.pwr with feedA := a, feedB := b } }
theorem witness_BayChannelMovesByPresenceTimersAndCommands :
    (chanUp ramping).pwr.chans.length = 24 ∧ ((chanUp ramping).pchan 5).short = true ∧ (chanUp {}).pwr.chans.length = 24 ∧
      ((chanUp {}).pchan 5).short = false := by decide +kernel
theorem test_seated_module_ramps_by_autostart :
    after (.seatTimer 5) (chanUp { st := .detected, long := true, short := true }) (fun t => decide ((t.pchan 5).st = .ramp ∧ (t.pchan 5).hsOn)) =
      true := by decide +kernel
theorem test_short_pin_lost_while_on_unseats :
    after (.prssChange 5 false) (chanUp { ramping with st := .on, pg := true }) (fun t => decide ((t.pchan 5).st = .unseating ∧ (t.pchan 5).pg)) =
      true := by decide +kernel
theorem witness_TripsLatchesAndFeeds :
    ((chanUp { ramping with breaker := true }).pwr.chans.length = 24 ∧ ((chanUp { ramping with breaker := true }).pchan 5).st = .ramp ∧
      ((chanUp { ramping with breaker := true }).pchan 5).faultTold = none ∧ (chanUp { ramping with breaker := true }).canTell) ∧
    ((chanUp { st := .on, breaker := true, retries := 7 }).pchan 5).retries = 7 ∧ (chanUp {}).paramN 0x9008 = 7 ∧
    ((feeding { st := .conducting } { st := .conducting }).feed true).st = .conducting ∧
    (feeding {} {}).ddUp = true ∧ (feeding {} {}).canTell := by
  unfold State.canTell; decide +kernel
theorem test_trip_after_the_last_retry_latches :
    after (.fastTrip 5) (chanUp { st := .on, hsOn := true, orOn := true, pg := true, retries := 7 }) (fun t =>
      decide ((t.pchan 5).st = .latched ∧ (t.pchan 5).lastFc = 0x0C17 ∧ ¬ (t.pchan 5).pg)) = true := by decide +kernel
theorem test_lost_feed_is_told :
    after (.feedAbsent false 9000) (feeding { st := .idle } { st := .conducting }) (fun t =>
      decide (t.pwr.feedA.st = .absent ∧ (t.newest.map EventRec.code) = some 0x0C04)) = true := by decide +kernel

/-! ### Modes and supplies (15, 17) -/

/-- A controller that is up, with its mode state as given. -/
def moded (m : ModeState) : State := { up with mode := m }
/-- The data die is in reset and unpowered. -/
def dark (m : ModeState) : State := { State.reset with mode := m, pins := { State.reset.pins with pwronLow := false } }
theorem witness_ModesWakesAndContained :
    (carry 0x0701 [] (moded { mode := .standby })).mbx.chans.length = 64 ∧ (carry 0x0702 [1] (moded { mode := .standby })).mode.entering = none ∧
    (moded { mode := .standby }).ddUp = true ∧ (moded { mode := .standby }).ownedGroups = [] ∧ (moded { mode := .standby }).groups = List.replicate 6 {} ∧
    (dark { latch := 2 }).mode.mode = .island ∧ (dark { latch := 2 }).pins.pwronLow = false ∧ (dark { entering := some .island }).pins.mainEn = false ∧
    (dark { entering := some .island }).pins.ddReset = true ∧
    (carry 0x0702 [1] (moded { mode := .standby })).carries 0 0x0702 ∧ (carry 0x0703 (List.replicate 16 0) (moded { mode := .standby })).carries 0 0x0703 ∧
    (carry 0x0704 [] (moded { mode := .standby })).carries 0 0x0704 := by unfold State.carries; decide +kernel
theorem test_island_exit_raises_MAIN_EN :
    after .islandExit (dark { latch := 2 }) (fun t => decide (t.pins.mainEn ∧ t.mode.latch = 0 ∧ t.mode.entering = some .standby)) = true := by
  decide +kernel
theorem test_invariant_break_contains_a_standby_controller :
    after .invariantBreak (moded { mode := .standby }) (fun t => decide (t.mode.mode = .contained ∧ t.mode.cause = 4)) = true := by decide +kernel
/-- Primer's turn: the trial image is the one in slot A. -/
def booting : State := { fwUp trialA id with fw := { (fwUp trialA id).fw with running := false }, fuse := { up.fuse with rootSt := .good } }
theorem witness_BringUpVoltagesSuppliesAndResets :
    ((dark {}).pins.ddReset = true ∧ (dark { mainPg := true, entering := some .standby }).mode.mainPg = true) ∧
    ((moded { mode := .standby, avs := some { mv := 825, goal := 850, left := 0, why := 1 } }).ddUp = true ∧
      (moded { mode := .standby, avs := some { mv := 825, goal := 850, left := 0, why := 1 } }).mode.avsAcked = 800 ∧ (moded {}).canTell) ∧
    (booting.pins.ddReset = false ∧ booting.fw.running = false ∧ booting.fw.halted = false ∧ booting.fuse.lifecycle ≠ 3 ∧
      booting.sys.bootSel = false ∧ booting.fw.recs.length = 2 ∧ booting.fw.boot.st false = .trial ∧ booting.fw.boot.att false < 2) ∧
    ((moded { mode := .owner, entering := some .standby }).fw.recovery = false ∧ (moded { avsLower := some 700 }).mode.avs = none ∧
      State.reset.pins.pwronLow = true ∧ State.reset.bbx.gasps.length < 16) := by unfold State.canTell; decide +kernel
theorem test_raise_goes_in_steps_of_25_mV :
    after (.operatingPointVoltage 850 false) (moded { mode := .standby }) (fun t => decide (t.out = [.avs 825] ∧ t.mode.avsTarget = 825)) = true := by
  decide +kernel
theorem test_straps_are_sampled_at_the_rise :
    after (.pwronResetRelease true true false 7) State.reset (fun t => decide (t.sys.slotB ∧ t.sys.prov ∧ t.sys.shelf = 7 ∧ t.mode.latch = 128)) =
      true := by decide +kernel

/-! ### Black box and fuses (16) -/

/-- A controller in PROVISION. -/
def prov (s : State) : State := { s with mode := { s.mode with mode := .provision } }
def rec1 : BbxRec := { code := 0x0E19, seq := 4 }
def bbxAt (pos : Nat) : State := { up with bbx := { up.bbx with queue := [rec1], pos } }
theorem witness_BlackBoxKeepsRecordsInOrder :
    ((up.pins.ddReset = false ∧ up.bbxTokens = 256) ∧ ((bbxAt 14).bbx.queue = [rec1] ∧ (bbxAt 14).bbx.erasing = false)) ∧
    ((carry 0x0801 [0, 0, 0, 0, 1, 0] up).carries 0 0x0801 ∧ (carry 0x0802 [] (prov up)).carries 0 0x0802) := by
  unfold State.carries; decide +kernel
theorem test_commit_enters_sector :
    after (.bbxRecordCommit true) (bbxAt 15) (fun t => t.bbx.erasing && decide (t.bbx.pos = 16 ∧ t.bbx.ring.length = 1)) = true := by decide +kernel
theorem test_bad_read_back_leaves_no_record :
    after (.bbxRecordCommit false) (bbxAt 14) (fun t => decide (t.bbx.pos = 15 ∧ t.bbx.ring = [] ∧ t.bbx.queue = [])) = true := by decide +kernel
theorem witness_FusesAndOtpAreWrittenOnce :
    (((carry 0x0110 [] (prov up)).carries 0 0x0110 ∧ (carry 0x0111 (padTo 32 [1]) (prov up)).carries 0 0x0111 ∧
      (carry 0x0112 (padTo 52 [1]) (prov up)).carries 0 0x0112) ∧ ((carry 0x0113 [3] (prov up)).carries 0 0x0113 ∧
      (carry 0x0114 [] (prov up)).carries 0 0x0114 ∧ (carry 0x0118 (padTo 124 [1]) (prov up)).carries 0 0x0118)) ∧
    (((carry 0x0119 [] (prov up)).carries 0 0x0119 ∧ (carry 0x011A [2] (prov up)).carries 0 0x011A) ∧
      (up.fuse.lifecycle = 0 ∧ blown up.fuse.writeLock = false ∧ up.fuse.otp.length = 4)) := by unfold State.carries; decide +kernel
theorem test_retire_from_blank :
    after (.fuseLifecycle 0 true) (carry 0x0113 [3] (prov up)) (fun t => decide (t.fuse.lifecycle = 3)) = true := by decide +kernel
theorem test_root_key_is_good :
    after (.fuseRootKey 0 true) (carry 0x0111 (padTo 32 [5]) (prov up)) (fun t => decide (t.fuse.root = 5 ∧ t.fuse.rootSt = .good)) = true := by
  decide +kernel

/-! ### Flush and watchdog (16) -/

/-- A flush that has ended with a result, on a bus that is up. -/
def flushed : State := { up with flush := { active := true, before := some [1, 0, 0, 9] } }
/-- An owner whose group has one current member. -/
def lone : State := withSmall fun g => { g with members := [{ bay := 3, accepted := 1, set0 := true }] }
theorem witness_FlushesAndWatchdogResets :
    (up.ddUp = true ∧ up.flush.active = false ∧ up.ownedGroups = [] ∧ up.flash.dies = [] ∧ up.flash.ops = [] ∧ up.pins.ddReset = false ∧
      1 < up.paramN 0xA002 ∧ up.pins.dogResets = [] ∧ up.canTell) ∧
    (lone.ddUp = true ∧ lone.imageBays = (some 3, none, true) ∧ (lone.imageSet 3).isSome = true ∧ (lone.bayMember 3).isSome = true ∧ lone.ownedGroups = [0] ∧ (lone.group 0).stripes = [] ∧ lone.flash.ops = []) ∧
    (flushed.flush.before ≠ none ∧ flushed.pwr.collapse = false ∧ flushed.mode.entering = none) := by
  unfold State.canTell; decide +kernel
theorem test_watchdog_resets_the_data_die :
    after .watchdogExpiry up (fun t => decide (t.pins.ddReset ∧ t.fw.reason = 1 ∧ (t.bbx.queue.map BbxRec.code) = [0x0E13])) = true := by
  decide +kernel
theorem test_power_fail_starts_a_flush :
    after .pwrfailNFall up (fun t => t.pins.pfWarn && t.flush.active) = true := by decide +kernel

/-! ### Keying (11) -/

/-- A PROVISIONED part whose engine derives, with a link that is TWO_WAY in an exchange; the neighbour's nonce is 3 or has not come. -/
def keyedUp (a : Adj) : State :=
  fabricLabels { up with fuse := { up.fuse with deviceId := 7, provisioned := 0xFF, root := 5, rootSt := .good },
                         ciph := { up.ciph with keying := true, rootOk := true, entropyOk := true, pipes := 48 },
                         scrim := { up.scrim with adjs := upd up.scrim.adjs 0 fun _ => a } }
def inExchange : Adj := { st := .twoWay, nbr := 8, nbrPort := 1, keyx := true, ownNonce := 5, protTx := true, rxNext := [1] }
/-- CONFIRM of device 8 over its nonce 3 and ours, 5. -/
def confirmHead : List Byte := leBytes 8 8 ++ [2, 0, 0, 0] ++ leBytes 4 ((keyedUp inExchange).paramN 0x8009) ++ leBytes 8 3 ++ leBytes 8 5
def confirm8 : List Byte := confirmHead ++ messageMac (Aes.toBytes (((keyedUp inExchange).workingKey 3074 6).getD [])) confirmHead
theorem witness_LinkKeysAreAgreed :
    ((keyedUp inExchange).ddUp = true ∧ ((keyedUp inExchange).adj 0).nbr = 8 ∧ (keyedUp inExchange).derives = true ∧
      (keyedUp inExchange).drbgStale = false ∧ ((keyedUp inExchange).workingKey 3074 6).isSome = true ∧ (0 : Nat) < (keyedUp inExchange).scrim.adjs.length) ∧
    (confirm8.length = 48 ∧ leAt confirm8 8 1 = 2 ∧ (keyedUp inExchange).confirmOk 0 confirm8 = true ∧
      (keyedUp inExchange).confirmOk 0 (List.replicate 48 2) = false) ∧
    (((keyedUp { inExchange with keyx := false }).adj 0).st = .twoWay ∧ ((keyedUp { inExchange with st := .full, keyx := false }).adj 0).st = .full) := by
  decide +kernel
theorem test_confirm_makes_the_link_full :
    after (.keyxConfirmRx 0 confirm8) (keyedUp inExchange) (fun t => decide ((t.adj 0).st = .full ∧ (t.adj 0).keyx = false)) = true := by
  decide +kernel
/-- A session with record keys. -/
def recorded : State :=
  { up with host := { up.host with assocs := [theAssoc], sessions := [theSess] }, ciph := { up.ciph with recs := [{ sess := 2 }] } }
theorem witness_KeyFaultsRecordsAndLabels :
    (up.ddUp = true ∧ up.canTell ∧ up.mbx.events.length < 8000 ∧ up.ownedGroups = [] ∧ (moded { mode := .standby }).mode.mode = .standby) ∧
    (recorded.sessAt 1 1 = some theSess ∧ recorded.ciph.recs = [{ sess := 2 }] ∧ up.tlsKey 1 1 = none) ∧
    ((carry 0x0601 (padTo 36 [5, 0, 0, 0, 1, 1, 0, 0, 9]) up).carries 0 0x0601 ∧ (carry 0x0602 [5, 0] up).carries 0 0x0602 ∧
      (carry 0x0603 (padTo 8 [5, 0, 0, 0, 9]) (withNs5 nsFit)).carries 0 0x0603) := by
  unfold State.canTell State.carries; decide +kernel
/-- PSK exports are enabled, grant 5 exists and slot 2,053 holds its PSK's label. -/
def exporting : State :=
  let s := setLabel 2053 (mkLabel 3 1 5 1 0 []) (keyedUp {})
  carry 0x0604 [5, 0] { s with par := { s.par with vals := [{ num := 0x8007, val := 1 }] }, host := { s.host with grants := [{ num := 5 }] } }
theorem witness_psk_export : exporting.carries 0 0x0604 ∧ exporting.paramN 0x8007 ≠ 0 ∧ (∃ x ∈ exporting.host.grants, x.num = 5) ∧
    (exporting.workingKey (2048 + 5) 3).isSome = true := by
  unfold State.carries; decide +kernel
theorem test_bad_record_ends_the_session :
    after (.tlsRecordRx 1 1 false) recorded (fun t => t.ciph.recs.isEmpty && t.host.sessions.isEmpty) = true := by decide +kernel

end Sys2Proof.Tests
end

/-! ### Registers of the power die over the on-package link (R4, R17, R18) -/

section

namespace Sys2Proof.Machine

/-! Host accesses in D0 -/

theorem State.hostRead_d0 {s : State} (h : s.ep.dstate = .d0) (off : Nat) (t : State) : s.hostRead off t = t := by
  simp [State.hostRead, h]

theorem State.hostWrite_d0 {s : State} (h : s.ep.dstate = .d0) (t : State) : s.hostWrite t = t := by
  simp [State.hostWrite, h]

theorem exec_mirroredRead {s : State} (hr : s.pins.ddReset = false) (hd : s.ep.dstate = .d0) (off len : Nat) :
    exec (.mirroredRead { off, len }) s = .next (bar0Read off len s) := by
  show Host.Outcome.next (s.hostRead off (mirroredRead off len s)) = _
  rw [State.hostRead_d0 hd, mirroredRead, hr, if_neg Bool.false_ne_true]

theorem exec_registerWrite {s : State} (hr : s.pins.ddReset = false) (hd : s.ep.dstate = .d0) (off : Nat) (data : List Byte) :
    exec (.registerWrite off data) s = .next ((wholeWords off data).foldl (fun s w => wordWrite w.1 w.2 s) s) := by
  show Host.Outcome.next (s.hostWrite (registerWrite off data s)) = _
  rw [State.hostWrite_d0 hd, registerWrite, hr, if_neg Bool.false_ne_true]

/-! Accesses within one aligned word (R4) -/

theorem touchedWords_within_word {a k n : Nat} (ha : a % 4 = 0) (hn : 1 ≤ n) (hk : k + n ≤ 4) :
    touchedWords (a + k) n = [a] := by
  have hcount : (a + k + n - 1) / 4 + 1 - (a + k) / 4 = 1 := by omega
  have hbase : 4 * ((a + k) / 4) = a := by omega
  rw [touchedWords, if_neg (by omega), hcount]
  simp [hbase]

theorem bar0Read_within_word {a k n : Nat} (ha : a % 4 = 0) (hn : 1 ≤ n) (hk : k + n ≤ 4) (s : State) :
    bar0Read (a + k) n s = (wordRead a s).2.emit (.regRead (a + k) (slice (leBytes 4 (wordRead a s).1) k n)) := by
  have hfirst : max (a + k) a - a = k := by omega
  have hlength : min (a + k + n) (a + 4) - max (a + k) a = n := by omega
  rw [bar0Read, touchedWords_within_word ha hn hk]
  simp only [List.foldl_cons, List.foldl_nil, List.nil_append, hfirst, hlength]

theorem wholeWords_word {a v : Nat} (ha : a % 4 = 0) (hv : v < 2 ^ 32) : wholeWords a (leBytes 4 v) = [(a, v)] := by
  have hval : leAt (leBytes 4 v) 0 4 = v := by rw [leAt_leBytes]; exact Nat.mod_eq_of_lt hv
  simp [wholeWords, ha, hval]

/-- Any run of whole bytes of an all-ones word is all ones. -/
theorem slice_leBytes_allOnes {k n : Nat} (hk : k + n ≤ 4) : slice (leBytes 4 0xFFFFFFFF) k n = List.replicate n 0xFF := by
  have hones : leBytes 4 0xFFFFFFFF = List.replicate 4 0xFF := by decide
  rw [hones, slice, List.drop_replicate, List.take_replicate, Nat.min_eq_left (by omega)]

/-! One word of the power die -/

theorem wordRead_mirrored_up {s : State} {a : Nat} (hm : mirrored a = true) (hl : s.sys.linkUp = true) (ha : a ≠ 0x00080010) :
    wordRead a s = (s.reg a, s) := by
  simp [wordRead, hm, hl, ha]

/-- PWR_ISLAND_LO latches the high word (R479). -/
theorem wordRead_islandLo_up {s : State} (hl : s.sys.linkUp = true) :
    wordRead 0x00080010 s = (s.reg 0x00080010, s.modMode fun m => { m with islHi := s.island / 2 ^ 32 }) := by
  have hm : mirrored 0x00080010 = true := by decide
  simp [wordRead, hm, hl]

theorem wordRead_mirrored_down {s : State} {a : Nat} (hm : mirrored a = true) (hl : s.sys.linkUp = false) :
    wordRead a s = (0xFFFFFFFF, { s with sys := { s.sys with linkTimeout := true } }) := by
  simp [wordRead, hm, hl]

theorem wordWrite_mirrored_up {s : State} {a : Nat} (hm : mirrored a = true) (hl : s.sys.linkUp = true) (v : Nat) :
    wordWrite a v s = { s with sys := { s.sys with posted := s.sys.posted ++ [{ addr := a, value := v }] } } := by
  simp [wordWrite, hm, hl]

theorem wordWrite_mirrored_down {s : State} {a : Nat} (hm : mirrored a = true) (hl : s.sys.linkUp = false) (v : Nat) :
    wordWrite a v s = { s with sys := { s.sys with linkTimeout := true } } := by
  simp [wordWrite, hm, hl]

/-! The commands on a mirrored word -/

theorem exec_mirroredRead_within_word {s : State} {a k n : Nat} (hr : s.pins.ddReset = false) (hd : s.ep.dstate = .d0)
    (ha : a % 4 = 0) (hn : 1 ≤ n) (hk : k + n ≤ 4) :
    exec (.mirroredRead { off := a + k, len := n }) s =
      .next ((wordRead a s).2.emit (.regRead (a + k) (slice (leBytes 4 (wordRead a s).1) k n))) := by
  rw [exec_mirroredRead hr hd, bar0Read_within_word ha hn hk]

theorem exec_registerWrite_word {s : State} {a v : Nat} (hr : s.pins.ddReset = false) (hd : s.ep.dstate = .d0)
    (ha : a % 4 = 0) (hv : v < 2 ^ 32) : exec (.registerWrite a (leBytes 4 v)) s = .next (wordWrite a v s) := by
  rw [exec_registerWrite hr hd, wholeWords_word ha hv, List.foldl_cons, List.foldl_nil]

/-! The link itself, and the writes that reach the power die -/

theorem foldl_emit {α : Type} (f : α → Output) (l : List α) (s : State) :
    l.foldl (fun s a => s.emit (f a)) s = { s with out := s.out ++ l.map f } := by
  induction l generalizing s with
  | nil => simp
  | cons a l ih => rw [List.foldl_cons, ih]; simp [State.emit]

/-- R17 and R18: reads complete with all ones, posted writes are discarded, and TIMEOUT tells of either. -/
theorem exec_pkgLinkDown_up {s : State} (hl : s.sys.linkUp = true) (n : Nat) (reads : List Nat) :
    exec (.pkgLinkDown n reads) s =
      .next { s with
        sys := { s.sys with
          linkUp := false, linkDownSeen := true, posted := [], replays := min 0xFF (s.sys.replays + n),
          linkTimeout := s.sys.linkTimeout || (!s.sys.posted.isEmpty || !reads.isEmpty) },
        out := s.out ++ reads.map fun r => .regRead r (leBytes 4 0xFFFFFFFF) } := by
  show Host.Outcome.next (pkgLinkDown n reads s) = _
  rw [pkgLinkDown, hl, if_neg (by decide), foldl_emit]
  rfl

theorem exec_pkgLinkUp_down {s : State} (hr : s.pins.ddReset = false) (hl : s.sys.linkUp = false) :
    exec .pkgLinkUp s = .next { s with sys := { s.sys with linkUp := true, trains := min 0xFFFF (s.sys.trains + 1) } } := by
  show Host.Outcome.next (pkgLinkUp s) = _
  rw [pkgLinkUp, hr, hl, if_neg (by decide)]
  rfl

theorem exec_powerDieWriteApply_cons {s : State} {w : PostedWrite} {rest : List PostedWrite} (hp : s.sys.posted = w :: rest) :
    exec .powerDieWriteApply s = .next (powerWrite w.addr w.value { s with sys := { s.sys with posted := rest } }) := by
  show Host.Outcome.next (powerDieWriteApply s) = _
  rw [powerDieWriteApply, hp]

/-- BAYPWR_FEED_EVT: the ones written clear (R7). -/
theorem powerWrite_feedEvt (v : Nat) (s : State) :
    powerWrite 0x00070408 v s = { s with pwr := { s.pwr with feedEvt := w1c s.pwr.feedEvt v } } := by
  simp [powerWrite]

/-- Settles O9: each command reduces to the effect on its one word, and the link decides that effect. -/
theorem mirroredAccessesFollowLink : Obligations.MirroredAccessesFollowLink := by
  intro s a v hr hd hm ha hv
  refine ⟨fun k n hn hk => ⟨fun hl hne => ?_, fun hl he => ?_, fun hl => ?_⟩, fun hl => ?_, fun hl => ?_, fun hl n reads => ?_,
    fun hl => ?_, fun rest hp => ?_⟩
  · rw [exec_mirroredRead_within_word hr hd ha hn hk, wordRead_mirrored_up hm hl hne]; rfl
  · subst he
    rw [exec_mirroredRead_within_word hr hd ha hn hk, wordRead_islandLo_up hl]; rfl
  · rw [exec_mirroredRead_within_word hr hd ha hn hk, wordRead_mirrored_down hm hl, slice_leBytes_allOnes hk]; rfl
  · rw [exec_registerWrite_word hr hd ha hv, wordWrite_mirrored_up hm hl]
  · rw [exec_registerWrite_word hr hd ha hv, wordWrite_mirrored_down hm hl]
  · exact exec_pkgLinkDown_up hl n reads
  · exact exec_pkgLinkUp_down hr hl
  · rw [exec_powerDieWriteApply_cons hp, powerWrite_feedEvt]

end Sys2Proof.Machine

end

/-! ### Slots of fabric time (R35) -/

section

namespace Sys2Proof.Machine

theorem ceilDiv_le_iff {b : Nat} (hb : 0 < b) (a c : Nat) : ceilDiv a b ≤ c ↔ a ≤ b * c := by
  rw [ceilDiv, Nat.div_le_iff_le_mul hb, Nat.mul_comm c]
  omega

theorem frameOf_add {P r : Nat} (hr : r < P) (f : Nat) : frameOf P (f * P + r) = f := by
  rw [frameOf, Nat.mul_comm, Nat.mul_add_div (by omega), Nat.div_eq_of_lt hr, Nat.add_zero]

theorem slotOf_add {P r : Nat} (hr : r < P) (f : Nat) : slotOf P (f * P + r) = r * 64 / P := by
  rw [slotOf, Nat.mul_comm f, Nat.mul_add_mod, Nat.mod_eq_of_lt hr]

theorem slotOf_lt {P : Nat} (hP : 0 < P) (T : Nat) : slotOf P T < 64 :=
  Nat.div_lt_of_lt_mul (Nat.mul_lt_mul_of_pos_right (Nat.mod_lt T hP) (by decide))

/-- Within a frame, slot `k` runs from the first nanosecond at or after `k P / 64` to the first at or after `(k + 1) P / 64`. -/
theorem slot_formula_eq_iff {P : Nat} (hP : 0 < P) (r k : Nat) :
    r * 64 / P = k ↔ ceilDiv (k * P) 64 ≤ r ∧ r < ceilDiv ((k + 1) * P) 64 := by
  have hend : r < ceilDiv ((k + 1) * P) 64 ↔ 64 * r < (k + 1) * P := by
    rw [← Nat.not_le, ceilDiv_le_iff (by decide), Nat.not_le]
  rw [hend, ceilDiv_le_iff (by decide), Nat.div_eq_iff hP, Nat.add_one_mul k]
  omega

/-- The slot after slot 63 of a frame begins where the next frame does. -/
theorem ceilDiv_slot64 (P : Nat) : ceilDiv ((63 + 1) * P) 64 = P := by
  rw [ceilDiv]
  omega

theorem slotEnd_le_period {k : Nat} (hk : k < 64) (P : Nat) : ceilDiv ((k + 1) * P) 64 ≤ P :=
  (ceilDiv_le_iff (by decide) _ _).2 (Nat.mul_le_mul_right P hk)

theorem frame_slot_eq_iff {P k : Nat} (hP : 0 < P) (hk : k < 64) (f T : Nat) :
    frameOf P T = f ∧ slotOf P T = k ↔
      f * P + ceilDiv (k * P) 64 ≤ T ∧ T < f * P + ceilDiv ((k + 1) * P) 64 := by
  constructor
  · rintro ⟨rfl, hslot⟩
    obtain ⟨hlo, hhi⟩ := (slot_formula_eq_iff hP (T % P) k).1 hslot
    have hT : frameOf P T * P + T % P = T := Nat.div_add_mod' T P
    omega
  · rintro ⟨hlo, hhi⟩
    obtain ⟨r, rfl⟩ := Nat.exists_eq_add_of_le (Nat.le_of_add_right_le hlo)
    have hr : r < P := Nat.lt_of_lt_of_le (by omega) (slotEnd_le_period hk P)
    rw [frameOf_add hr, slotOf_add hr, slot_formula_eq_iff hP]
    omega

theorem slotStart_of_lt {k : Nat} (hk : k < 64) (P f : Nat) :
    slotStart P (64 * f + k) = f * P + ceilDiv (k * P) 64 := by
  rw [slotStart, Nat.mul_add_div (by decide), Nat.mul_add_mod, Nat.div_eq_of_lt hk, Nat.mod_eq_of_lt hk, Nat.add_zero]

theorem slotStart_frame (P f : Nat) : slotStart P (64 * f) = f * P := by
  have h := slotStart_of_lt (k := 0) (by decide) P f
  simpa [ceilDiv] using h

/-- Settles O11: floor and ceiling are adjoint, so the slot formula yields `k` exactly between the two rounded-up bounds. -/
theorem slotsBeginWhereFormulaYieldsThem : Obligations.SlotsBeginWhereFormulaYieldsThem := by
  refine ⟨fun P f k T hP hk => ?_, fun P T hP => slotOf_lt (by omega) T, fun P f k hk => slotStart_of_lt hk P f,
    fun s => ⟨rfl, rfl, rfl⟩, fun P F t => slotStart_frame P (t * F)⟩
  rw [frame_slot_eq_iff (by omega) hk]
  split
  · next h63 => rw [h63, ceilDiv_slot64, Nat.add_one_mul f]
  · rfl

end Sys2Proof.Machine

end

/-! ### The latches of the time registers (R56) -/

section

namespace Sys2Proof.Machine

/-! What the latched registers read -/

@[simp] theorem reg_timeNowSecLo (s : State) : s.reg 0x00020014 = lo32 s.tregs.latSec := rfl
@[simp] theorem reg_timeNowSecHi (s : State) : s.reg 0x00020018 = hi32 s.tregs.latSec % 2 ^ 16 := rfl
@[simp] theorem reg_timeFrameLo (s : State) : s.reg 0x0002001C = lo32 s.tregs.latFrame := rfl
@[simp] theorem reg_timeFrameHi (s : State) : s.reg 0x00020020 = hi32 s.tregs.latFrame := rfl
@[simp] theorem reg_timeSlot (s : State) : s.reg 0x00020024 = s.tregs.latSlot := rfl
@[simp] theorem reg_timeTurnLo (s : State) : s.reg 0x00020028 = lo32 s.tregs.latTurn := rfl
@[simp] theorem reg_timeTurnHi (s : State) : s.reg 0x0002002C = hi32 s.tregs.latTurn := rfl

/-- The 16 bits of TIME_NOW_SEC_HI hold all that TIME_NOW_SEC_LO leaves of 48 bits of seconds. -/
theorem hi32_of_lt_48 {v : Nat} (hv : v < 2 ^ 48) : hi32 v % 2 ^ 16 = v / 2 ^ 32 := by
  rw [hi32]
  omega

@[simp] theorem pass_tregs (n : Nat) (s : State) : (pass n s).tregs = s.tregs := rfl

/-! The read itself -/

@[simp] theorem timeNowRead_tregs (s : State) :
    (timeNowRead s).tregs =
      { s.tregs with
        latSec := s.nowNs / 1000000000 % 2 ^ 48, latFrame := s.frameNow, latTurn := s.turnNow, latSlot := s.slotNow } := rfl

@[simp] theorem timeNowRead_out (s : State) :
    (timeNowRead s).out = s.out ++ [.regRead 0x00020010 (leBytes 4 (s.nowNs % 1000000000))] := rfl

/-- The latches and the completion are all that a read of TIME_NOW_NS changes. -/
theorem timeNowRead_frame (s : State) :
    { timeNowRead s with
      out := s.out
      tregs := { (timeNowRead s).tregs with
        latSec := s.tregs.latSec, latFrame := s.tregs.latFrame, latTurn := s.tregs.latTurn, latSlot := s.tregs.latSlot } } = s :=
  rfl

theorem exec_timeNowRead {s : State} (hd : s.ep.dstate = .d0) : exec .timeNowRead s = .next (timeNowRead s) := by
  show Host.Outcome.next (s.hostRead 0x00020010 (timeNowRead s)) = _
  rw [State.hostRead_d0 hd]

/-- Settles O12: the read fills the latches, the seven registers read nothing else, and passing time leaves them. -/
theorem timeNowReadLatchesTimeRegisters : Obligations.TimeNowReadLatchesTimeRegisters := by
  intro s hd
  refine ⟨timeNowRead s, exec_timeNowRead hd, timeNowRead_out s, timeNowRead_frame s, fun n => ?_⟩
  have hsec : s.nowNs / 1000000000 % 2 ^ 48 < 2 ^ 48 := Nat.mod_lt _ (by decide)
  refine ⟨?_, ?_, ?_, ?_, ?_, ?_, ?_⟩
  · rw [reg_timeNowSecLo, pass_tregs, timeNowRead_tregs, lo32]
  · rw [reg_timeNowSecHi, pass_tregs, timeNowRead_tregs, hi32_of_lt_48 hsec]
  · rw [reg_timeFrameLo, pass_tregs, timeNowRead_tregs, lo32]
  · rw [reg_timeFrameHi, pass_tregs, timeNowRead_tregs, hi32]
  · rw [reg_timeSlot, pass_tregs, timeNowRead_tregs]
  · rw [reg_timeTurnLo, pass_tregs, timeNowRead_tregs, lo32]
  · rw [reg_timeTurnHi, pass_tregs, timeNowRead_tregs, hi32]

end Sys2Proof.Machine

end

/-! ### Completions that are not current, and the ends of an ABORT (R218, R219, R224) -/

section

namespace Sys2Proof.Machine

/-! Bays and groups -/

theorem bay_modBay_same {s : State} {n : Nat} (h : n < s.flash.bays.length) (f : Bay → Bay) :
    (s.modBay n f).bay n = f (s.bay n) := by
  simp [State.bay, State.modBay, nth, upd, List.getD_eq_getElem?_getD, h]

theorem bay_modBay_ne {n b : Nat} (h : b ≠ n) (s : State) (f : Bay → Bay) : (s.modBay n f).bay b = s.bay b := by
  simp [State.bay, State.modBay, nth, upd, List.getD_eq_getElem?_getD, h.symm]

theorem modBay_modBay (s : State) (n : Nat) (f g : Bay → Bay) : (s.modBay n f).modBay n g = s.modBay n fun b => g (f b) := by
  simp only [State.modBay, upd, List.modify_modify_eq]
  rfl

theorem group_of_groups_eq {s t : State} (h : t.groups = s.groups) : t.group = s.group := by
  funext g
  rw [State.group, State.group, h]

theorem bayMember_of_groups_eq {s t : State} (h : t.groups = s.groups) (bay : Nat) : t.bayMember bay = s.bayMember bay := by
  rw [State.bayMember, State.bayMember, group_of_groups_eq h]

/-! Contexts by tag -/

theorem find?_filter_of_keeps {α : Type} {p q : α → Bool} {a : α} {l : List α} (h : l.find? p = some a) (hq : q a = true) :
    (l.filter q).find? p = some a := by
  obtain ⟨hp, as, bs, rfl, has⟩ := List.find?_eq_some_iff_append.1 h
  rw [List.filter_append, List.filter_cons_of_pos hq, List.find?_append, List.find?_cons_of_pos hp,
    List.find?_eq_none.2 fun x hx => by simpa using has x ((List.mem_filter.1 hx).1)]
  rfl

theorem find?_updWhere {α : Type} {p q : α → Bool} {f : α → α} (hf : ∀ a, q (f a) = q a) (l : List α) :
    (updWhere p f l).find? q = (l.find? q).map fun a => if p a then f a else a := by
  rw [updWhere, List.find?_map]
  congr 2
  funext a
  simp only [Function.comp_apply]
  split
  · exact hf a
  · rfl

theorem op?_tag {s : State} {t : Nat} {o : FlashOp} (h : s.op? t = some o) : o.tag = t := by
  simpa using List.find?_some h

theorem op?_of_ops_eq {s u : State} (h : u.flash.ops = s.flash.ops) (t : Nat) : u.op? t = s.op? t := by
  rw [State.op?, State.op?, h]

theorem op?_freeOp_ne {t g : Nat} {s : State} {x : FlashOp} (h : s.op? t = some x) (hne : t ≠ g) : (s.freeOp g).op? t = some x :=
  find?_filter_of_keeps h (by simpa [op?_tag h] using hne)

theorem op?_modOp {s : State} {t : Nat} {x : FlashOp} (h : s.op? t = some x) {f : FlashOp → FlashOp} (hf : ∀ a, (f a).tag = a.tag) :
    (s.modOp t f).op? t = some (f x) := by
  rw [State.op?, State.modOp, State.modFlash_flash, find?_updWhere (fun a => by rw [hf]), ← State.op?, h]
  simp [op?_tag h]

/-- The context of a slot revoked for good (R120). -/
def FlashOp.revoked (x : FlashOp) : FlashOp := { x with live := false, st := .quarantine }

theorem op?_quarantine {s : State} {t : Nat} {x : FlashOp} (h : s.op? t = some x) : (quarantine t s).op? t = some x.revoked :=
  op?_modOp h fun _ => rfl

/-- Revoking a buffer's slots leaves a context that is in quarantine already (R121). -/
theorem op?_slotsRevoked_of_quarantine {s : State} {t : Nat} {y : FlashOp} (h : s.op? t = some y) (hst : y.st = .quarantine)
    (blk : Nat) : (slotsRevoked blk s).op? t = some y := by
  simp only [State.op?, slotsRevoked, State.modBuf, State.modFlash_flash]
  rw [find?_updWhere (fun _ => by rfl), find?_filter_of_keeps h (by simp [hst])]
  simp [hst]

/-! What consuming an entry changes (R213, R219) -/

/-- A bay past an entry of its completion ring: the index moved to `head`, the phase flipped at the wrap, `n` entries consumed. -/
def Bay.pastEntry (head n : Nat) (b : Bay) : Bay :=
  { b with cqHead := head, phase := if head = 0 then !b.phase else b.phase, consumed := n }

theorem consumeEntry_eq (bay : Nat) (s : State) : ∃ n o, consumeEntry bay s =
    { s.modBay bay (Bay.pastEntry (((s.bay bay).cqHead + 1) % 4096) n) with out := s.out ++ o } := by
  unfold consumeEntry
  extract_lets n head s1
  split
  · refine ⟨0, [.bayReg bay 0x1024 head], ?_⟩
    rw [modBay_modBay]
    rfl
  · refine ⟨n, [], ?_⟩
    rw [modBay_modBay, List.append_nil]
    rfl

@[simp] theorem consumeEntry_ops (bay : Nat) (s : State) : (consumeEntry bay s).flash.ops = s.flash.ops := by
  obtain ⟨n, o, h⟩ := consumeEntry_eq bay s
  rw [h]
  rfl

@[simp] theorem consumeEntry_bufs (bay : Nat) (s : State) : (consumeEntry bay s).flash.bufs = s.flash.bufs := by
  obtain ⟨n, o, h⟩ := consumeEntry_eq bay s
  rw [h]
  rfl

@[simp] theorem consumeEntry_groups (bay : Nat) (s : State) : (consumeEntry bay s).groups = s.groups := by
  obtain ⟨n, o, h⟩ := consumeEntry_eq bay s
  rw [h]
  rfl

/-! Current and late completions (R224) -/

theorem current_of_ops_eq {s u : State} (h : u.flash.ops = s.flash.ops) (bay opc : Nat) (c : Payload.Cpl) :
    u.current bay opc c = s.current bay opc c := by
  rw [State.current, State.current, op?_of_ops_eq h]

theorem current_eq_none {s : State} {bay : Nat} {c : Payload.Cpl}
    (h : ∀ o, s.op? c.tag = some o → o.st ≠ .outstanding ∨ o.bay ≠ bay ∨ o.gen ≠ c.gen) (opc : Nat) :
    s.current bay opc c = none := by
  unfold State.current
  split
  next o ho => obtain hst | hbay | hgen := h o ho <;> simp [*]
  next => rfl

theorem current_eq_some {s : State} {c : Payload.Cpl} {o : FlashOp} (ho : s.op? c.tag = some o) (hst : o.st = .outstanding)
    (hgen : o.gen = c.gen) (hopc : c.opc = o.opc) : s.current o.bay o.opc c = some o := by
  simp [State.current, ho, hst, hgen, hopc]

/-- A completion that is counted as late: its entry is consumed, and nothing else comes of it. -/
def discardCpl (bay : Nat) (s : State) : State := lateCpl bay (consumeEntry bay s)

theorem takeCpl_late {s : State} {bay : Nat} {e : List Byte}
    (h : ∀ o, s.op? (cplOf e).tag = some o → o.st ≠ .outstanding ∨ o.bay ≠ bay ∨ o.gen ≠ (cplOf e).gen) (opc : Nat)
    (f : Payload.Cpl → FlashOp → State → State) :
    takeCpl bay opc e f s = if s.fresh bay e then discardCpl bay s else s := by
  have hcur : (consumeEntry bay s).current bay opc (cplOf e) = none := by
    rw [current_of_ops_eq (consumeEntry_ops bay s), current_eq_none h]
  simp only [takeCpl, hcur]
  cases s.fresh bay e <;> rfl

theorem discardCpl_eq (bay : Nat) (s : State) : ∃ n o, discardCpl bay s =
    { s.modBay bay (fun b => { b.pastEntry (((s.bay bay).cqHead + 1) % 4096) n with lateCpl := b.lateCpl + 1 }) with
      out := s.out ++ o } := by
  obtain ⟨n, o, h⟩ := consumeEntry_eq bay s
  refine ⟨n, o, ?_⟩
  rw [discardCpl, h]
  exact congrArg (fun u : State => { u with out := s.out ++ o })
    (modBay_modBay s bay (Bay.pastEntry _ n) fun b => { b with lateCpl := b.lateCpl + 1 })

theorem discardCpl_bay {s : State} {bay : Nat} (h : bay < s.flash.bays.length) :
    ∃ n, (discardCpl bay s).bay bay =
      { (s.bay bay).pastEntry (((s.bay bay).cqHead + 1) % 4096) n with lateCpl := (s.bay bay).lateCpl + 1 } := by
  obtain ⟨n, o, heq⟩ := discardCpl_eq bay s
  exact ⟨n, by rw [heq]; exact bay_modBay_same h _⟩

theorem discardCpl_bay_ne {bay b : Nat} (h : b ≠ bay) (s : State) : (discardCpl bay s).bay b = s.bay b := by
  obtain ⟨n, o, heq⟩ := discardCpl_eq bay s
  rw [heq]
  exact bay_modBay_ne h s _

/-- The bays' records and what leaves the block are all that a late completion changes. -/
theorem discardCpl_frame (bay : Nat) (s : State) :
    { discardCpl bay s with out := s.out, flash := { (discardCpl bay s).flash with bays := s.flash.bays } } = s := by
  obtain ⟨n, o, heq⟩ := discardCpl_eq bay s
  rw [heq]
  rfl

/-! A current completion (R220) -/

/-- The state in which a completion that ends its context has its own effect: entry consumed, context free, timeouts no longer in a
row. -/
def endedCpl (bay tag : Nat) (s : State) : State :=
  ((consumeEntry bay s).freeOp tag).modBay bay fun b => { b with timeoutsRow := 0 }

@[simp] theorem endedCpl_bufs (bay tag : Nat) (s : State) : (endedCpl bay tag s).flash.bufs = s.flash.bufs :=
  consumeEntry_bufs bay s

@[simp] theorem endedCpl_groups (bay tag : Nat) (s : State) : (endedCpl bay tag s).groups = s.groups :=
  consumeEntry_groups bay s

theorem op?_endedCpl_ne {t tag : Nat} {s : State} {x : FlashOp} (h : s.op? t = some x) (hne : t ≠ tag) (bay : Nat) :
    (endedCpl bay tag s).op? t = some x := by
  have hconsumed : (consumeEntry bay s).op? t = some x := (op?_of_ops_eq (consumeEntry_ops bay s) t).trans h
  exact op?_freeOp_ne hconsumed hne

/-- With a status that has no effect of its own on the module, a current completion from a member that is present does what its
operation does. -/
theorem takeCpl_current {s : State} {e : List Byte} {o : FlashOp} (hfresh : s.fresh o.bay e = true)
    (ho : s.op? (cplOf e).tag = some o) (hst : o.st = .outstanding) (hgen : o.gen = (cplOf e).gen) (hopc : (cplOf e).opc = o.opc)
    (hread : o.opc ≠ 0x01) (h4 : (cplOf e).status ≠ 4) (h5 : (cplOf e).status ≠ 5) (h7 : (cplOf e).status ≠ 7)
    (hpresent : ∀ gi m, s.bayMember o.bay = some (gi, m) → (s.group gi).presentMember m = true)
    (f : Payload.Cpl → FlashOp → State → State) :
    takeCpl o.bay o.opc e f s = f (cplOf e) o (endedCpl o.bay o.tag s) := by
  have hcur : (consumeEntry o.bay s).current o.bay o.opc (cplOf e) = some o := by
    rw [current_of_ops_eq (consumeEntry_ops o.bay s), current_eq_some ho hst hgen hopc]
  have hended : ((if !o.live && decide (o.opc = 0x01) then quarantine o.tag (consumeEntry o.bay s)
      else (consumeEntry o.bay s).freeOp o.tag).modBay o.bay fun b => { b with timeoutsRow := 0 }) = endedCpl o.bay o.tag s := by
    rw [endedCpl, decide_eq_false hread, Bool.and_false, if_neg Bool.false_ne_true]
  have hmember : (endedCpl o.bay o.tag s).bayMember o.bay = s.bayMember o.bay :=
    bayMember_of_groups_eq (endedCpl_groups o.bay o.tag s) o.bay
  have hgroup (gi : Nat) : (endedCpl o.bay o.tag s).group gi = s.group gi := by
    rw [group_of_groups_eq (endedCpl_groups o.bay o.tag s)]
  simp only [takeCpl, hfresh, hcur, hended, hmember]
  cases hm : s.bayMember o.bay with
  | none => simp [hmember, hm, h5]
  | some p =>
    obtain ⟨gi, m⟩ := p
    simp [hmember, hm, h4, h5, h7, hgroup, hpresent gi m hm]

/-! The ends of an ABORT (R223, R224) -/

/-- SUCCESS ends a target that is still the one named: its die is free, its tag in quarantine. -/
theorem abortEnds_success {c : Payload.Cpl} {o x : FlashOp} {s : State} {t : Nat} (huse : o.use = .abort t x.gen)
    (hx : s.op? t = some x) (hst : x.st = .outstanding) (hc : c.status = 0) :
    abortEnds c o s = opGone x (if x.writes then dieFree x s else s) := by
  simp [abortEnds, huse, hx, hst, hc]

theorem abortEnds_refused {c : Payload.Cpl} {o x : FlashOp} {s : State} {t : Nat} (huse : o.use = .abort t x.gen)
    (hx : s.op? t = some x) (hst : x.st = .outstanding) (hc : c.status ≠ 0) : abortEnds c o s = s := by
  simp [abortEnds, huse, hx, hst, hc]

theorem op?_opGone_landing {s : State} {t blk : Nat} {x : FlashOp} (hx : s.op? t = some x) (huse : x.use = .landing blk) :
    (opGone x s).op? t = some x.revoked := by
  obtain rfl := op?_tag hx
  have hquar : (quarantine x.tag s).op? x.tag = some x.revoked := op?_quarantine hx
  simp only [opGone, huse]
  split
  · exact hquar
  · refine op?_slotsRevoked_of_quarantine ?_ rfl blk
    exact hquar

theorem op?_abortEnds_success {c : Payload.Cpl} {o x : FlashOp} {s : State} {t blk : Nat} (huse : o.use = .abort t x.gen)
    (hx : s.op? t = some x) (hst : x.st = .outstanding) (hland : x.use = .landing blk) (hc : c.status = 0) :
    (abortEnds c o s).op? t = some x.revoked := by
  rw [abortEnds_success huse hx hst hc]
  split
  · exact op?_opGone_landing (s := dieFree x s) hx hland
  · exact op?_opGone_landing hx hland

theorem exec_abortCpl (bay : Nat) (e : List Byte) (s : State) :
    exec (.abortCpl bay e) s = .next (takeCpl bay 0x40 e abortEnds s) := rfl

/-- Settles O28: a stale entry meets `discardCpl` under every opcode, and only an ABORT's SUCCESS reaches `opGone`. -/
theorem lateCompletionsAreDiscarded : Obligations.LateCompletionsAreDiscarded := by
  refine ⟨fun s bay e hbay hstale => ?_, fun s bay tg e o x hfresh ho hst hob hgen hopc hcopc huse htg hx hxst hpresent => ?_⟩
  · have hlate (opc : Nat) (f : Payload.Cpl → FlashOp → State → State) :
        (.next (takeCpl bay opc e f s) : Host.Outcome State Fault Refusal) =
          .next (if s.fresh bay e then discardCpl bay s else s) :=
      congrArg Host.Outcome.next (takeCpl_late hstale opc f)
    refine ⟨if s.fresh bay e then discardCpl bay s else s, hlate 0x01 readEnds, hlate 0x02 verifyEnds, hlate 0x10 programEnds,
      hlate 0x20 eraseEnds, hlate 0x30 suspendEnds, hlate 0x31 resumeEnds, hlate 0x40 abortEnds, hlate 0x50 dieStatusEnds,
      hlate 0x60 epochSetEnds, fun hold => by simp [hold], fun hfresh => ?_⟩
    obtain ⟨n, hpast⟩ := discardCpl_bay hbay
    rw [if_pos hfresh, hpast]
    exact ⟨rfl, rfl, rfl, fun b hb => discardCpl_bay_ne hb s, discardCpl_frame bay s⟩
  · subst hob
    have hx' : (endedCpl o.bay o.tag s).op? tg = some x := op?_endedCpl_ne hx (op?_tag ho ▸ htg) o.bay
    have htake (h4 : (cplOf e).status ≠ 4) (h5 : (cplOf e).status ≠ 5) (h7 : (cplOf e).status ≠ 7) :
        exec (.abortCpl o.bay e) s = .next (abortEnds (cplOf e) o (endedCpl o.bay o.tag s)) := by
      rw [exec_abortCpl, ← hopc, takeCpl_current hfresh ho hst hgen (hcopc.trans hopc.symm) (by omega) h4 h5 h7 hpresent]
    refine ⟨fun blk hland hc => ?_, fun hc => ?_⟩
    · exact ⟨_, _, htake (by omega) (by omega) (by omega), op?_abortEnds_success huse hx' hxst hland hc, rfl, rfl⟩
    · rw [abortEnds_refused huse hx' hxst (by omega)] at htake
      exact ⟨_, htake (by omega) (by omega) (by omega), hx', endedCpl_bufs o.bay o.tag s⟩

end Sys2Proof.Machine

end
